-- ==== Sys2Proof/Word.lean ====
section
/-! DEFINITION. The word and byte types. Registers are 32 bits wide (spec/00_scope.md, "Register conventions"). -/

namespace Sys2Proof

/-- A 32-bit register or memory word. -/
abbrev Word := BitVec 32

/-- A byte of the configuration key, of a frame or of a record. -/
abbrev Byte := BitVec 8

end Sys2Proof
end

