-- ==== Sys2Proof/Syntax.lean ====
section
/-! DEFINITION. The commands the block takes from outside: one constructor per row of spec/opcode_table.json. The operands are
what reaches the device with the command: the path, address and value of a register access, the content of a frame or message,
the level of a pin, or what the environment gives the step (a sensor reading, a comparator level, a lock outcome). -/

namespace Sys2Proof

/-- The access path of a register access (R460): the management SPI or one Landing session. -/
inductive Path
  | spi
  | landing (slot : Nat)
  deriving DecidableEq, Repr

/-- A PTP event or follow-up message (R56, R63): port 1 or 2, sequenceId, sender, whether a follow-up message completes it,
the time it carries and the sum of its corrections, and the device time captured at its ingress, all in units of 2^-32 ns. -/
structure PtpMsg where
  port : Nat
  domain : Nat
  seq : Nat
  src : Nat
  twoStep : Bool
  origin : Int
  corr : Int
  tIn : Nat
  deriving DecidableEq, Repr

/-- An Announce message (R58, R59): the fields best master selection compares, and those the device reports. -/
structure PtpAnnounce where
  port : Nat
  domain : Nat
  src : Nat
  ptpTimescale : Bool
  priority1 : Nat
  clockClass : Nat
  accuracy : Nat
  variance : Nat
  priority2 : Nat
  gmId : Nat
  stepsRemoved : Nat
  timeSource : Nat
  utcValid : Bool
  utcOffset : Int
  tlv : Option Nat
  deriving DecidableEq, Repr

/-- The bits captured on modulator input `ch` since the last command that brought bits of it, oldest first, and the device time of
the newest capture edge in 2^-32 ns (R234, R237, R243). -/
structure Capture where
  ch : Nat
  bits : List Bool
  t : Nat
  deriving DecidableEq, Repr

/-- What an MRAM word holds (R441): a Logbook slot, an archive entry by its age, a copy of the Logbook header, a metering save or the
BOT_FAILS mirror (`last`: no valid copy is left), or nothing named. -/
inductive MramWord
  | slot (n : Nat)
  | archive (age : Nat)
  | header (second : Bool)
  | meter (last : Bool)
  | fails (last : Bool)
  | other
  deriving DecidableEq, Repr

/-- One word read by the scrubber (R441): memory 0-6, 128-bit word index, 0 no error, 1 corrected, 2 uncorrectable; for memory 6 what
the word holds. -/
structure ScrubWord where
  mem : Nat
  word : Nat
  err : Nat
  holds : MramWord
  deriving DecidableEq, Repr

/-- What every Landing message after HELLO has beside its body (R464): the port it came by (1: the P1/P2 pair, 3: P3), source address
and UDP port, SID, SEQ, TAG. -/
structure LandMsg where
  port : Nat
  ip : Nat
  udp : Nat
  sid : Nat
  seq : Nat
  tag : List Nat
  deriving DecidableEq, Repr

/-- The Ethernet envelope of a received frame (R325, R326): port 1-3, source address, PRP trailer (sequence number, and whether its
LAN identifier is the port's own), VLAN identifier. -/
structure EthRx where
  port : Nat
  src : Nat
  rct : Option (Nat × Bool)
  vid : Option Nat
  deriving DecidableEq, Repr

/-- A received sampled-value frame (R332 to R336): APPID and destination in the layout of SUB_ID, identity hash, confRev, test,
simulation, smpSynch; per ASDU its smpCnt and, per dataset channel, value and quality; ingress time in 2^-32 ns. -/
structure SvFrame where
  eth : EthRx
  ident : Nat
  hash : Nat
  confRev : Nat
  test : Bool
  sim : Bool
  smpSynch : Nat
  asdus : List (Nat × List (Int × Nat))
  tIn : Nat
  deriving DecidableEq, Repr

/-- A received GOOSE message (R343, R344): `data` holds the elements, `none` for one that is not BOOLEAN; `tal` in ms. -/
structure GooseMsg where
  eth : EthRx
  ident : Nat
  hash : Nat
  confRev : Nat
  ndsCom : Bool
  test : Bool
  sim : Bool
  stNum : Nat
  sqNum : Nat
  tal : Nat
  data : List (Option Bool)
  deriving DecidableEq, Repr

/-- A PAIR frame (R351): ROLE B, stepping, firmware version, pair identity; and the sender's mooring state and epoch (log entry 37). -/
structure PairFrame where
  roleB : Bool
  stepping : Nat
  fw : Nat
  ident : Nat
  state : Nat
  epoch : Nat
  deriving DecidableEq, Repr

/-- A PERIOD frame (R353, R358): state, epoch, MIS_CONSEC and fresh cells of the sender, nominal S(k) in 1.25 ns, digest of period
k - 1; from the holder the SAR and sampled-value input words, corr(k+2), GOOSE numbers (control block, stNum, sqNum, elements) and the
commands of the period. -/
structure PeriodFrame where
  state : Nat
  epoch : Nat
  mis : Nat
  fresh : List Nat
  sk : Nat
  digest : Nat
  sar : List Word
  sv : List Word
  corr : Int
  goose : List (Nat × Nat × Nat × List Bool)
  cmds : List (Nat × Word)
  deriving DecidableEq, Repr

/-- One item of a SYNC frame (R368): state-memory words from a word address; a register of the transferred state; a Gangway channel
(p, v, a, next p, v, a, target, x_hold); a leg's history (cell, leg, code, t, prev, th, lat); a carrier group (v0, tc, tcPrev, values);
an arm's applied level and order; edge numbering c and acc; E_h. -/
inductive SyncItem
  | mem (w : Nat) (vs : List Word)
  | reg (a : Nat) (v : Word)
  | gwy (n : Nat) (xs : List Nat)
  | leg (c l : Nat) (xs : List Nat)
  | grp (n : Nat) (v0 tc tcPrev : Nat) (vals : List Nat)
  | arm (a : Nat) (level : Int) (order : List Nat)
  | align (c acc : Nat)
  | epoch (e : Nat)
  deriving DecidableEq, Repr

/-- A HELLO frame (R135) received on a physical lane from a position; `ver` is its Towline version. -/
structure HelloFrame where
  lane : Nat
  pos : Nat
  ver : Nat
  bepoch : Nat
  epId : Nat
  serial : Nat
  cap : Nat
  mch : Nat
  deriving DecidableEq, Repr

/-- A TLM frame (R123) received on a physical lane from a position. `late` says that its last block was checked at or after
S(k) + TLM_DUE (R15). -/
structure TlmFrame where
  lane : Nat
  pos : Nat
  flags : Nat
  epoch : Nat
  sseq : Nat
  coastN : Nat
  exec : Nat
  gdLat : Nat
  gdAct : Nat
  sample : Nat
  m : List Nat
  aux : Nat
  crcErr : Nat
  lateSch : Nat
  late : Bool
  deriving DecidableEq, Repr

/-- What a start sequence meets (R412): levels of ROLE and TESTEN (R489, R490); whether REFCLK is present; the band each PLL locks in,
`none` if it does not; failed self-tests (code, unit); readings of TS0 to TS8 in 0.125 °C; whether the key is usable (R399, R400) and
its density in Mbit; the cell map (cell, lane, position) and the identities permitted for a cell (cell, EP_ID, serial number), which
come with the image (R101, R140; log entry 40). -/
structure StartEnv where
  role : Bool
  testen : Bool
  refclk : Bool
  bands : List (Option Nat)
  test : List (Nat × Nat)
  temps : List Int
  keyOk : Bool
  mbit : Nat
  cells : List (Nat × Nat × Nat)
  permit : List (Nat × Nat × Nat)
  deriving DecidableEq, Repr

/-- The commands: one constructor per row of spec/opcode_table.json, in the table's order. -/
inductive Instr
  /-- REGISTER_WRITE (R6): path, byte address, value -/
  | registerWrite (p : Path) (a : Nat) (v : Word)
  /-- SAMPLING_INSTANT (R11): bits captured up to the capture edge of the control samples; device time of the rising-edge c(k) -/
  | samplingInstant (caps : List Capture) (capT : Nat)
  /-- TLM_DUE (R14). -/
  | tlmDue
  /-- HELM_RUN_COMPLETE (R21): time after S(k) at which the run completes, in ns; cell lanes whose final frames cannot leave by their cut-off (R21) -/
  | helmRunComplete (ns : Nat) (late : List Nat)
  /-- HELM_DEADLINE (R24). -/
  | helmDeadline
  /-- INTERVAL_START (R23). -/
  | intervalStart
  /-- INCR_NS_WRITE (R34): path, value written to TBS_INCR_NS -/
  | incrNsWrite (p : Path) (v : Word)
  /-- INCR_FR_WRITE (R34): path, value written to TBS_INCR_FR -/
  | incrFrWrite (p : Path) (v : Word)
  /-- RESTEP (R37): path of the write of TBS_STEP.RESTEP -/
  | restep (p : Path)
  /-- STEP_GO (R61): path of the write of TBS_STEP.GO -/
  | stepGo (p : Path)
  /-- SYNC (R45): the message, with origin time and corrections (a Follow_Up completes a two-step one) -/
  | sync (m : PtpMsg)
  /-- FOLLOW_UP (R45): the message -/
  | followUp (m : PtpMsg)
  /-- ANNOUNCE (R59): the message -/
  | announce (m : PtpAnnounce)
  /-- ANNOUNCE_RECEIPT_TIMEOUT (R37): port, 1 or 2 -/
  | announceReceiptTimeout (port : Nat)
  /-- HOLDOVER_LIMIT (R37): the time in holdover reaches TBS_HO_LIM -/
  | holdoverLimit
  /-- PDELAY_REQ_SEND (R62): port, sequenceId sent, device time captured at its egress in 2^-32 ns -/
  | pdelayReqSend (port : Nat) (seq : Nat) (t : Nat)
  /-- PDELAY_REQ (R56): port, sequenceId and requester -/
  | pdelayReq (port : Nat) (seq : Nat) (src : Nat)
  /-- PDELAY_RESP (R63): the response: origin is the turnaround t3 - t2 of a one-step response, t2 of a two-step one -/
  | pdelayResp (m : PtpMsg)
  /-- PDELAY_RESP_FOLLOW_UP (R63): the follow-up of a two-step response: origin is t3 -/
  | pdelayRespFollowUp (m : PtpMsg)
  /-- TSQ_POP (R64): path, port -/
  | tsqPop (p : Path) (port : Nat)
  /-- RXQ_POP (R64): path, port -/
  | rxqPop (p : Path) (port : Nat)
  /-- BRTC_WRITE (R39): one of the writes of device time into the backup real-time counter -/
  | brtcWrite
  /-- PER_WRITE (R50): path, value written to TBS_PER -/
  | perWrite (p : Path) (v : Word)
  /-- PPSO_PULSE (R54): a whole second of device time -/
  | ppsoPulse
  /-- PPSO_PULSE_END (R54): the end of the pulse -/
  | ppsoPulseEnd
  /-- PPSI_EDGE (R55): edge direction and its device time in 2^-32 ns -/
  | ppsiEdge (falling : Bool) (t : Nat)
  /-- PPSI_MISS (R55): no edge for 1.1 s -/
  | ppsiMiss
  /-- TIME_LO_READ (R67): path -/
  | timeLoRead (p : Path)
  /-- PPSI_LO_READ (R67): path -/
  | ppsiLoRead (p : Path)
  /-- GM_ID_LO_READ (R68): path -/
  | gmIdLoRead (p : Path)
  /-- LANE_POWER_REQUEST (R73): path, lane, requested TX_REQ and RX_REQ -/
  | lanePowerRequest (p : Path) (lane : Nat) (tx : Nat) (rx : Nat)
  /-- POWER_TRANSITION_DONE (R75): lane, direction whose transition completes -/
  | powerTransitionDone (lane : Nat) (rx : Bool)
  /-- DOZE_WAKE (R76): lane -/
  | dozeWake (lane : Nat)
  /-- DOZE_RETURN (R76): lane -/
  | dozeReturn (lane : Nat)
  /-- LQF_UPDATE (R78): lane, eye openings measured -/
  | lqfUpdate (lane : Nat) (h : Nat) (v : Nat)
  /-- BLOCK_HEADER (R82): lane, 2-bit sync header, 64-bit payload -/
  | blockHeader (lane : Nat) (hdr : Nat) (payload : Nat)
  /-- SLIP (R84): path, lane -/
  | slip (p : Path) (lane : Nat)
  /-- BUOY_SEND (R85): block slots of displacement, launch instant in 2^-32 ns -/
  | buoySend (disp : Nat) (launch : Nat)
  /-- MOORING_BUOY (R88): mooring lane 0-3, skew in block times -/
  | mooringBuoy (m : Nat) (skew : Nat)
  /-- BUOY_MISS (R88): mooring lane 0-3 -/
  | buoyMiss (m : Nat)
  /-- REMAP_WRITE (R90): path, spare, value written -/
  | remapWrite (p : Path) (n : Nat) (v : Word)
  /-- TEST_MODE_WRITE (R93): path, lane, value written to LNK_LCTRL -/
  | testModeWrite (p : Path) (lane : Nat) (v : Word)
  /-- FI_START (R94): path, lane, value written to LNK_FI_CTRL -/
  | fiStart (p : Path) (lane : Nat) (v : Word)
  /-- FI_STOP (R97): path, lane -/
  | fiStop (p : Path) (lane : Nat)
  /-- FI_REORDER_RELEASE (R95): lane, direction -/
  | fiReorderRelease (lane : Nat) (rx : Bool)
  /-- INVITE (R136): cell lane -/
  | invite (lane : Nat)
  /-- HELLO (R138): the frame -/
  | hello (f : HelloFrame)
  /-- LEAVE (R138): physical lane, position, BEPOCH, maker reason -/
  | leave (lane : Nat) (pos : Nat) (bepoch : Nat) (reason : Nat)
  /-- CROSS_PROBE (R127): cell -/
  | crossProbe (cell : Nat)
  /-- CROSS_ECHO (R127): physical lane, position, probe ID, TURN and round trip in 1/32 ns -/
  | crossEcho (lane : Nat) (pos : Nat) (id : Nat) (turn : Nat) (rtt : Nat)
  /-- ECHO_TIMEOUT (R127): cell, probe ID -/
  | echoTimeout (cell : Nat) (id : Nat)
  /-- BOARDING_TIMEOUT (R138): cell -/
  | boardingTimeout (cell : Nat)
  /-- REFUSED_EXPIRY (R138): cell -/
  | refusedExpiry (cell : Nat)
  /-- TLM (R125): the frame -/
  | tlm (f : TlmFrame)
  /-- DEPART_TIMEOUT (R138): cell -/
  | departTimeout (cell : Nat)
  /-- FOREIGN_FRAME (R104): physical lane, frame type -/
  | foreignFrame (lane : Nat) (ftype : Nat)
  /-- TXN_READ (R146): path, cell, endpoint address -/
  | txnRead (p : Path) (cell : Nat) (a : Nat)
  /-- TXN_WRITE (R146): path, cell, endpoint address, data -/
  | txnWrite (p : Path) (cell : Nat) (a : Nat) (v : Word)
  /-- TXN_WRITE_POSTED (R146): path, cell, endpoint address, data -/
  | txnWritePosted (p : Path) (cell : Nat) (a : Nat) (v : Word)
  /-- TXN_RESPONSE (R146): physical lane, position, TAG, ADDR, STATUS, data -/
  | txnResponse (lane : Nat) (pos : Nat) (tag : Nat) (a : Nat) (status : Nat) (v : Word)
  /-- TXN_TIMEOUT (R146): cell, TAG -/
  | txnTimeout (cell : Nat) (tag : Nat)
  /-- TXC_POP (R150): path -/
  | txcPop (p : Path)
  /-- SHADOW_WRITE (R167): path, group, register (0 CG_SH_PER, 1-6 CG_SH_U0-U5), value -/
  | shadowWrite (p : Path) (n : Nat) (r : Nat) (v : Word)
  /-- COMMIT (R166): path, group, value written to CG_CTRL -/
  | commit (p : Path) (n : Nat) (v : Word)
  /-- MAN_WRITE (R165): path, group, value written to CG_CTRL -/
  | manWrite (p : Path) (n : Nat) (v : Word)
  /-- DIS_WRITE (R180): path, group, value written to CG_CTRL -/
  | disWrite (p : Path) (n : Nat) (v : Word)
  /-- LB_OVR_WRITE (R180): path, local output, value written to LB_OVR -/
  | lbOvrWrite (p : Path) (j : Nat) (v : Word)
  /-- LB_EDGE (R176): local output; the end of its dead time instead of the next change of code -/
  | lbEdge (j : Nat) (on : Bool)
  /-- DELAY_LINE_CALIBRATION (R178): local output, taps measured per TBC cycle -/
  | delayLineCalibration (j : Nat) (taps : Nat)
  /-- LOOP_WRITE (R205): path, value written to HLM_LOOP -/
  | loopWrite (p : Path) (v : Word)
  /-- BANKSW (R205): path, value written to HLM_BANKSW -/
  | banksw (p : Path) (v : Word)
  /-- COEF_WRITE (R206): path, word address in state memory, value -/
  | coefWrite (p : Path) (w : Nat) (v : Word)
  /-- RUNMAX_READ (R197): path -/
  | runmaxRead (p : Path)
  /-- PRESET (R218): path, channel, value -/
  | preset (p : Path) (n : Nat) (v : Word)
  /-- OUT_P_READ (R220): path, channel -/
  | outPRead (p : Path) (n : Nat)
  /-- BYPASS (R226): path, cell -/
  | bypass (p : Path) (c : Nat)
  /-- ADMIT (R226): path, cell -/
  | admitCell (p : Path) (c : Nat)
  /-- SPARE (R226): path, cell -/
  | spare (p : Path) (c : Nat)
  /-- ADMISSION_TIMEOUT (R223): cell -/
  | admissionTimeout (c : Nat)
  /-- MCLK_FAULT (R236): no MCKI edge for 1 µs -/
  | mclkFault
  /-- MCKI_FREQ_MEASURE (R236): the frequency measured -/
  | mckiFreqMeasure (khz : Nat)
  /-- METERING_SAMPLE (R243): bits captured up to the sample's capture edges -/
  | meteringSample (caps : List Capture)
  /-- SAR_TICK (R248). -/
  | sarTick
  /-- CONVERSION_END (R252): slice 0-4 (A-E), the code converted -/
  | conversionEnd (x : Nat) (code : Nat)
  /-- SAR_URG (R250): path, value written to SAR_URG -/
  | sarUrg (p : Path) (v : Word)
  /-- CAL_WINDOW_END (R253). -/
  | calWindowEnd
  /-- COMPARATOR_OUTPUT (R255): comparator, the voltage now on its pin in nanovolts, whether the VDD_ANA monitor reports low -/
  | comparatorOutput (n : Nat) (nv : Int) (anaLow : Bool)
  /-- SETTLE_END (R257): comparator -/
  | settleEnd (n : Nat)
  /-- WCM_THR_WRITE (R258): path, comparator, value written to WCM_THR -/
  | wcmThrWrite (p : Path) (n : Nat) (v : Word)
  /-- DAC_STEP (R258): comparator: 250 ns have passed since its last step -/
  | dacStep (n : Nat)
  /-- TRIP_SOURCE_ACTIVE (R266): sources that become active in one TBC cycle -/
  | tripSourceActive (ss : List Nat)
  /-- TRIP_PIN (R270): pin, filtered level against its active level -/
  | tripPin (p : Nat) (active : Bool)
  /-- PIN_KNOWN (R271): pin, level held for the filter length -/
  | pinKnown (p : Nat) (active : Bool)
  /-- BANK_MONITOR_LOW (R271): the VDDIO2 bank monitor reports low -/
  | bankMonitorLow
  /-- TRP_CLR (R273): path, value written to TRP_CLR -/
  | trpClr (p : Path) (v : Word)
  /-- REARM (R275): group whose quiet time has passed -/
  | rearm (g : Nat)
  /-- REARM_COUNT_RESET (R275): group that has stayed clear for 60 s -/
  | rearmCountReset (g : Nat)
  /-- ISLAND_POWER_ON (R279): switch values as read, first filtered levels (bit 2i SIiA high, bit 2i+1 SIiB high), SEAL and LOR high -/
  | islandPowerOn (sw : Nat) (levels : Nat) (sealHigh : Bool) (lorHigh : Bool)
  /-- ISLAND_START (R288): switch values read -/
  | islandStart (sw : Nat)
  /-- SWITCH_READ (R283): switch values read -/
  | switchRead (sw : Nat)
  /-- SAFETY_INPUT (R285): input, filtered levels of SIiA and SIiB -/
  | safetyInput (x : Nat) (a : Bool) (b : Bool)
  /-- DISCREPANCY_TIMEOUT (R285): input whose timer reaches Td -/
  | discrepancyTimeout (x : Nat)
  /-- LOR_PRESS (R290): length of the press in AOC cycles, switch values read at the fall, levels of the SAFEOFF balls -/
  | lorPress (cycles : Nat) (sw : Nat) (ballA : Bool) (ballB : Bool)
  /-- TEST_PULSE (R291): SAFEOFF_B instead of SAFEOFF_A; whether the ball reads low -/
  | testPulse (chB : Bool) (low : Bool)
  /-- SAFEOFF_READBACK_FAULT (R291): SAFEOFF_B instead of SAFEOFF_A -/
  | safeoffReadbackFault (chB : Bool)
  /-- AOC_LOSS (R291). -/
  | aocLoss
  /-- ISLAND_SUPPLY_LOW (R291). -/
  | islandSupplyLow
  /-- FAULT_CAUSE_END (R291): the supply returns; otherwise AOC -/
  | faultCauseEnd (supply : Bool)
  /-- SEAL_BREAK (R292). -/
  | sealBreak
  /-- SEAL_WATCH_PULSE (R293): the level sampled -/
  | sealWatchPulse (high : Bool)
  /-- SEAL_CLR (R293): path of the write of SAF_CTRL.SEAL_CLR -/
  | sealClr (p : Path)
  /-- SAF_DEMAND (R294): path of the write of SAF_CTRL.DEMAND -/
  | safDemand (p : Path)
  /-- LOSS_OF_VOLTAGE (R303): point, element without a confirmed crossing for ZTO ms -/
  | lossOfVoltage (m : Nat) (ph : Nat)
  /-- FALLBACK_BOUNDARY (R304): point -/
  | fallbackBoundary (m : Nat)
  /-- ECLR (R314): path, value written to MTR_ECLR -/
  | eclr (p : Path) (v : Word)
  /-- ELO_READ (R311): path, energy register -/
  | eloRead (p : Path) (r : Nat)
  /-- RSEQ_READ (R308): path, point -/
  | rseqRead (p : Path) (m : Nat)
  /-- DEMAND_CLOSE (R317): point -/
  | demandClose (m : Nat)
  /-- DEM_HDR_READ (R317): path, point -/
  | demHdrRead (p : Path) (m : Nat)
  /-- PULSE_START (R318): pulse output -/
  | pulseStart (q : Nat)
  /-- PULSE_END (R318): pulse output -/
  | pulseEnd (q : Nat)
  /-- METER_SAVE (R320): whether the write to MRAM succeeds -/
  | meterSave (ok : Bool)
  /-- LINK_DOWN (R325): port, whether Pn_LOS rose -/
  | linkDown (port : Nat) (los : Bool)
  /-- LINK_UP (R487): port, speed of P3 as NET_STAT codes it -/
  | linkUp (port : Nat) (speed : Nat)
  /-- SUPERVISION_SEND (R325). -/
  | supervisionSend
  /-- SUPERVISION_FRAME (R325): the frame -/
  | supervisionFrame (e : EthRx)
  /-- NODE_FORGET (R325): node unheard for 60 s -/
  | nodeForget (mac : Nat)
  /-- ENTRY_FORGET (R325): duplicate entry older than ENTRY_FGT -/
  | entryForget (mac : Nat) (seq : Nat)
  /-- SV_PUBLISH (R329): stream; for each ASDU of the frame the bits captured up to its capture edges -/
  | svPublish (n : Nat) (smp : List (List Capture))
  /-- SV_FRAME (R333): the frame -/
  | svFrame (f : SvFrame)
  /-- SV_TIMEOUT (R333): subscription with nothing accepted for TMO -/
  | svTimeout (m : Nat)
  /-- SUB_LAT_READ (R348): path, subscription -/
  | subLatRead (p : Path) (m : Nat)
  /-- GOOSE_SCAN (R341). -/
  | gooseScan
  /-- GOOSE_REPEAT (R341): control block whose repeat interval has passed -/
  | gooseRepeat (n : Nat)
  /-- GOOSE_MESSAGE (R344): the message -/
  | gooseMessage (g : GooseMsg)
  /-- GOOSE_TAL_EXPIRY (R344): subscription whose timer expires -/
  | gooseTalExpiry (m : Nat)
  /-- PAIR_FRAME (R351): the frame -/
  | pairFrame (f : PairFrame)
  /-- PAIRING_CHECK (R351). -/
  | pairingCheck
  /-- PERIOD_FRAME (R353): the frame -/
  | periodFrame (f : PeriodFrame)
  /-- MOORING_DEADLINE (R363). -/
  | mooringDeadline
  /-- TIME_FRAME (R360): round trip and turn in 1/32 ns; partner's time minus own in ns -/
  | timeFrame (rtt : Nat) (turn : Nat) (ofs : Int)
  /-- SYNC_FRAME (R368): step and progress of R368, what the frame carries -/
  | syncFrame (phase : Nat) (prog : Nat) (items : List SyncItem)
  /-- RESYNC_COMPLETE (R368). -/
  | resyncComplete
  /-- HANDOVER_FRAME (R367): the period in which a planned hand-over starts -/
  | handoverFrame (h : Nat)
  /-- START_TIMEOUT (R362). -/
  | startTimeout
  /-- HANDOVER (R367): path of the write of MOR_CTRL.HANDOVER -/
  | handover (p : Path)
  /-- RESYNC (R368): path of the write of MOR_CTRL.RESYNC -/
  | resync (p : Path)
  /-- DIG_LO_READ (R371): path -/
  | digLoRead (p : Path)
  /-- POR (R387). -/
  | por
  /-- BACKUP_POR (R375). -/
  | backupPor
  /-- BROWN_OUT (R387). -/
  | brownOut
  /-- RESETN (R387). -/
  | resetn
  /-- WATCHDOG_WARN (R391). -/
  | watchdogWarn
  /-- WATCHDOG_RESET (R387). -/
  | watchdogReset
  /-- SWRST (R390): path, value written to CRG_SWRST -/
  | swrst (p : Path) (v : Word)
  /-- BLOCK_RESET (R392): path, value written to CRG_BRST -/
  | blockReset (p : Path) (v : Word)
  /-- CNTCLR (R396): path, value written to CRG_CNTCLR -/
  | cntclr (p : Path) (v : Word)
  /-- PLL_LOCK (R379): PLL (0 T, 1 H, 2 S, 3 L), band selected -/
  | pllLock (n : Nat) (band : Nat)
  /-- PLL_FAIL (R379): PLL -/
  | pllFail (n : Nat)
  /-- PLL_LOSS_OF_LOCK (R380): PLL -/
  | pllLossOfLock (n : Nat)
  /-- REFCLK_LOSS (R378). -/
  | refclkLoss
  /-- QUIESCENT_REQUEST (R393): path -/
  | quiescentRequest (p : Path)
  /-- RUN_REQUEST (R393): path -/
  | runRequest (p : Path)
  /-- MAIN_POWER_LOSS (R393). -/
  | mainPowerLoss
  /-- BRTC_TRIM (R377). -/
  | brtcTrim
  /-- BRTC_LO_READ (R398): path -/
  | brtcLoRead (p : Path)
  /-- START_SEQUENCE (R412): what the start meets -/
  | startSequence (e : StartEnv)
  /-- START_RETRY (R416): what the start meets -/
  | startRetry (e : StartEnv)
  /-- FAILS_CLEAR (R417): 10 min of backup-counter time have passed since the start completed -/
  | failsClear
  /-- RELAUNCH (R420): path, value written to BOT_CTRL -/
  | relaunch (p : Path) (v : Word)
  /-- PIN (R428): path, value written to BOT_CTRL -/
  | pin (p : Path) (v : Word)
  /-- SVNBURN (R403): path, value written to BOT_SVNBURN -/
  | svnburn (p : Path) (v : Word)
  /-- KEY_READ (R422): path of the write of BOT_KCMD -/
  | keyRead (p : Path)
  /-- KEY_PROGRAM (R422): path of the write of BOT_KCMD -/
  | keyProgram (p : Path)
  /-- ERASE_4K (R422): path of the write of BOT_KCMD -/
  | erase4k (p : Path)
  /-- ERASE_64K (R422): path of the write of BOT_KCMD -/
  | erase64k (p : Path)
  /-- KCMD_DONE (R422): the key did not finish in time -/
  | kcmdDone (timeout : Bool)
  /-- SEQ_LO_READ (R428): path -/
  | seqLoRead (p : Path)
  /-- ARM_SET (R424): path, value written to BOT_ARM_SET -/
  | armSet (p : Path) (v : Word)
  /-- ARM_CLR (R424): path, value written to BOT_ARM_CLR -/
  | armClr (p : Path) (v : Word)
  /-- RECORD_STORE (R435). -/
  | recordStore
  /-- OLDEST (R438): path, cursor -/
  | oldest (p : Path) (c : Nat)
  /-- NEWEST (R438): path, cursor -/
  | newest (p : Path) (c : Nat)
  /-- NEXT (R438): path, cursor -/
  | next (p : Path) (c : Nat)
  /-- PREV (R438): path, cursor -/
  | prev (p : Path) (c : Nat)
  /-- SEEK (R438): path, cursor -/
  | seek (p : Path) (c : Nat)
  /-- CURSOR_COPY_DONE (R438): cursor -/
  | cursorCopyDone (c : Nat)
  /-- FREEZE (R439): path -/
  | freeze (p : Path)
  /-- UNFREEZE (R439): path -/
  | unfreeze (p : Path)
  /-- FREEZE_TIMEOUT (R439). -/
  | freezeTimeout
  /-- LOG_CLR (R440): path, value written to LOG_CLR -/
  | logClr (p : Path) (v : Word)
  /-- CLEAR_EXECUTE (R440). -/
  | clearExecute
  /-- NEXT_LO_READ (R451): path -/
  | nextLoRead (p : Path)
  /-- OLD_LO_READ (R451): path -/
  | oldLoRead (p : Path)
  /-- SCRUB (R441): what the scrubber read -/
  | scrub (f : ScrubWord)
  /-- MANIFEST_LATCH (R443): latch time minus T_m of every block in ns -/
  | manifestLatch (late : List Nat)
  /-- MANIN (R442). -/
  | manin
  /-- MFT_TRIG (R442): path -/
  | mftTrig (p : Path)
  /-- MFT_REARM (R444): path -/
  | mftRearm (p : Path)
  /-- ARCHIVE_WRITE_DONE (R445): whether the write succeeds -/
  | archiveWriteDone (ok : Bool)
  /-- ASEL_WRITE (R445): path, value written to MFT_ASEL -/
  | aselWrite (p : Path) (v : Word)
  /-- ASEL_COPY_DONE (R445). -/
  | aselCopyDone
  /-- TM_LO_READ (R452): path -/
  | tmLoRead (p : Path)
  /-- TLO_READ (R278): path, group -/
  | tloRead (p : Path) (g : Nat)
  /-- CAPT_LO_READ (R260): path -/
  | captLoRead (p : Path)
  /-- THERMAL_MEASUREMENT (R447): readings of TS0 to TS8 in 0.125 °C -/
  | thermalMeasurement (ts : List Int)
  /-- RESUME (R447): path -/
  | resume (p : Path)
  /-- THM_MAX_READ (R453): path -/
  | thmMaxRead (p : Path)
  /-- MSPI_READ (R461): ADDR and RCRC received -/
  | mspiRead (a : Nat) (rcrc : Nat)
  /-- MSPI_WRITE (R461): ADDR, DATA and RCRC received -/
  | mspiWrite (a : Nat) (v : Word) (rcrc : Nat)
  /-- MSPI_CSN_RISE (R462). -/
  | mspiCsnRise
  /-- LANDING_HELLO (R466): message, KID, class requested, NOTE byte, CNONCE -/
  | landingHello (m : LandMsg) (kid : Nat) (cls : Nat) (note : Nat) (cnonce : List Nat)
  /-- LANDING_REQUEST (R467): message, operations as OPC, ADDR, VALUE -/
  | landingRequest (m : LandMsg) (ops : List (Nat × Nat × Nat))
  /-- LANDING_READ (R468): slot whose next operation is a READ -/
  | landingRead (n : Nat)
  /-- LANDING_WRITE (R468): slot whose next operation is a WRITE -/
  | landingWrite (n : Nat)
  /-- LANDING_CLOSE (R469): message, REASON -/
  | landingClose (m : LandMsg) (reason : Nat)
  /-- LANDING_KEEPALIVE (R469): message -/
  | landingKeepalive (m : LandMsg)
  /-- WELCOME_TIMEOUT (R466): slot -/
  | welcomeTimeout (n : Nat)
  /-- IDLE_TIMEOUT (R469): slot -/
  | idleTimeout (n : Nat)
  /-- NOTIFY (R470): slot -/
  | notify (n : Nat)
  /-- SEAL_INTACT (R292). -/
  | sealIntact
  /-- CROSS_COMPARISON_FAULT (R291). -/
  | crossComparisonFault
  /-- FILTERED_FRAME (R327): port; 0 longer than 1,522 bytes, 1 multicast of no subscription, 2 broadcast above STORM -/
  | filteredFrame (port : Nat) (kind : Nat)
  /-- ARP_REQUEST (R471): port: 1 the P1/P2 pair, 3 P3; address asked for -/
  | arpRequest (port : Nat) (ip : Nat)
  /-- ICMP_ECHO (R471): port: 1 the P1/P2 pair, 3 P3; source, destination, data -/
  | icmpEcho (port : Nat) (ip : Nat) (dst : Nat) (data : List Nat)
  /-- MSG_BAD (R464): port it came by: 1 the P1/P2 pair, 3 P3 -/
  | msgBad (port : Nat)
  /-- MSPI_RESERVED_OP (R462): the OP received -/
  | mspiReservedOp (op : Nat)
  deriving DecidableEq, Repr

end Sys2Proof
end

