-- ==== Sys2Proof/Config.lean ====
section
/-! DEFINITION. What one device's manufacture fixes, and the free values: what the spec lets the device produce without saying which value it is. Each is an opaque
constant with no body, applied to a counter of the state (`Dev.freeCtr`), so nothing can be proved about its value. -/

namespace Sys2Proof.Config

/-- The n-th value the spec leaves open; each use takes it modulo the width of the item (log entry 3). -/
opaque freeNat : Nat → Nat

/-- The device serial number in OTP (R403). -/
opaque serialNo : Nat

/-- JAL_KH: the SHA-384 of Jalior's firmware public key, fused at manufacture (R403). -/
opaque jalKh : List Nat

end Sys2Proof.Config
end

