-- ==== Sys2Proof/Machine/Crc.lean ====
section
/-! DEFINITION. The cyclic redundancy checks the spec names: CRC-32C of R113, CRC-64 of R358 and CRC-8 of R461,
bit by bit over lists of byte values (each below 256). -/

namespace Sys2Proof.Machine

/-- One bit of a reflected CRC register with reversed polynomial `poly`. -/
def crcBitR (poly r : Nat) : Nat := if r % 2 = 1 then Nat.xor (r / 2) poly else r / 2

/-- One byte into a reflected CRC register. -/
def crcByteR (poly r b : Nat) : Nat :=
  crcBitR poly (crcBitR poly (crcBitR poly (crcBitR poly
    (crcBitR poly (crcBitR poly (crcBitR poly (crcBitR poly (Nat.xor r (b % 256)))))))))

/-- CRC-32C (R113): polynomial 0x1EDC_6F41 reflected (0x82F6_3B78), initial value and final exclusive-OR all ones. -/
def crc32c (bs : List Nat) : Nat :=
  Nat.xor (bs.foldl (crcByteR 0x82F63B78) 0xFFFFFFFF) 0xFFFFFFFF

/-- CRC-64 (R358): polynomial 0x42F0_E1EB_A9EA_3693 reflected (0xC96C_5795_D787_0F42), initial value and final
exclusive-OR all ones. -/
def crc64 (bs : List Nat) : Nat :=
  Nat.xor (bs.foldl (crcByteR 0xC96C5795D7870F42) 0xFFFFFFFFFFFFFFFF) 0xFFFFFFFFFFFFFFFF

/-- One bit of the unreflected CRC-8 register. -/
def crcBit8 (r : Nat) : Nat := if 128 ≤ r then Nat.xor (r * 2 % 256) 0x07 else r * 2 % 256

/-- One byte into the CRC-8 register. -/
def crcByte8 (r b : Nat) : Nat :=
  crcBit8 (crcBit8 (crcBit8 (crcBit8 (crcBit8 (crcBit8 (crcBit8 (crcBit8 (Nat.xor r (b % 256)))))))))

/-- CRC-8 (R461): polynomial 0x07, initial value 0, no reflection, no final exclusive-OR. -/
def crc8 (bs : List Nat) : Nat := bs.foldl crcByte8 0

/-- The `n` little-endian bytes of `v`. -/
def leBytes (n v : Nat) : List Nat :=
  match n with
  | 0 => []
  | n + 1 => v % 256 :: leBytes n (v / 256)

/-- The number whose little-endian bytes are `bs`. -/
def leNat (bs : List Nat) : Nat :=
  match bs with
  | [] => 0
  | b :: t => b + 256 * leNat t

/-- The number whose big-endian bytes are `bs`. -/
def beNat (bs : List Nat) : Nat := bs.foldl (fun a b => a * 256 + b) 0

/-- The `n` big-endian bytes of `v`. -/
def beBytes (n v : Nat) : List Nat := (leBytes n v).reverse

end Sys2Proof.Machine
end

