-- ==== Sys2Proof/Machine/RegMap.lean ====
section
/-! DEFINITION. The register map, row by row from the register tables of spec/02 to spec/17 (R67, R68, R98, R99, R150, R151,
R181, R219, R220, R233, R260, R261, R262, R278, R297, R323, R347, R348, R349, R371, R398, R428, R451, R452, R453, R473) and the
common offsets of R455. One row is one register or one regular array of registers; `addr_X` is the byte address of register X
and `X_F` its field F (`X` alone where the register is one field). Field classes: 1 Observer, 2 Operator, 3 Maintainer (R456). -/

namespace Sys2Proof.Machine

/-- Access types of R6; `ct` is an RO counter of a counter table (R395, R396). -/
inductive RTy | ro | rw | w1c | wo | rc | lk | ct
  deriving DecidableEq, Repr

/-- Clock domains that stop while the device runs (R383); every other register is `run`. -/
inductive RDom | run | hec | lnc | mdc | aoc
  deriving DecidableEq, Repr

/-- One field of a register table: lowest bit, width, type, reset value, class a write needs. -/
structure RField where
  lo : Nat
  width : Nat
  ty : RTy
  rst : Nat
  cls : Nat
  deriving DecidableEq, Repr

/-- One row: registers at `base + s1 * i + s2 * j` for `i < n1`, `j < n2`. -/
structure RegRow where
  base : Nat
  n1 : Nat
  s1 : Nat
  n2 : Nat
  s2 : Nat
  dom : RDom
  fields : List RField
  deriving DecidableEq, Repr

/-- A named field at an address. -/
structure Fld where
  addr : Nat
  lo : Nat
  width : Nat
  deriving DecidableEq, Repr

/-- Registers of block 0, MGT. -/
def regsMGT : List RegRow :=
  [
   ⟨0, 1, 0, 1, 0, .run, [⟨0, 32, .ro, 0xb10100, 2⟩]⟩,
   ⟨4, 1, 0, 1, 0, .run, [⟨1, 1, .lk, 0, 2⟩, ⟨0, 1, .rw, 1, 2⟩]⟩,
   ⟨8, 1, 0, 1, 0, .run, [⟨8, 4, .ro, 0, 2⟩, ⟨4, 2, .ro, 3, 2⟩, ⟨3, 1, .ro, 0, 2⟩, ⟨0, 2, .ro, 0, 2⟩]⟩,
   ⟨0x10, 1, 0, 1, 0, .run, [⟨5, 1, .w1c, 0, 2⟩, ⟨4, 1, .w1c, 0, 2⟩, ⟨3, 1, .w1c, 0, 2⟩, ⟨2, 1, .w1c, 0, 2⟩, ⟨1, 1, .w1c, 0, 2⟩, ⟨0, 1, .w1c, 0, 2⟩]⟩,
   ⟨0x14, 1, 0, 1, 0, .run, [⟨5, 1, .rw, 0, 2⟩, ⟨4, 1, .rw, 0, 2⟩, ⟨3, 1, .rw, 0, 2⟩, ⟨2, 1, .rw, 0, 2⟩, ⟨1, 1, .rw, 0, 2⟩, ⟨0, 1, .rw, 0, 2⟩]⟩,
   ⟨0x20, 1, 0, 1, 0, .run, [⟨0, 24, .ro, 0, 2⟩]⟩,
   ⟨0x24, 1, 0, 1, 0, .run, [⟨28, 4, .ro, 0, 2⟩, ⟨24, 4, .ro, 0, 2⟩, ⟨0, 24, .ro, 0, 2⟩]⟩,
   ⟨0x100, 8, 0x10, 1, 0, .run, [⟨30, 2, .ro, 0, 2⟩, ⟨28, 2, .ro, 0, 2⟩, ⟨27, 1, .ro, 0, 2⟩, ⟨24, 3, .ro, 0, 2⟩, ⟨0, 16, .ro, 0, 2⟩]⟩,
   ⟨0x104, 8, 0x10, 1, 0, .run, [⟨0, 32, .ro, 0, 2⟩]⟩,
   ⟨0x108, 8, 0x10, 1, 0, .run, [⟨0, 16, .ro, 0, 2⟩]⟩,
   ⟨0x10c, 8, 0x10, 1, 0, .run, [⟨0, 32, .ro, 0, 2⟩]⟩,
   ⟨0xe00, 64, 4, 1, 0, .run, [⟨0, 32, .ro, 0, 2⟩]⟩,
   ⟨0xf00, 1, 0, 1, 0, .run, [⟨0, 32, .ct, 0, 2⟩]⟩,
   ⟨0xf04, 1, 0, 1, 0, .run, [⟨0, 32, .ct, 0, 2⟩]⟩,
   ⟨0xf08, 1, 0, 1, 0, .run, [⟨0, 32, .ct, 0, 2⟩]⟩,
   ⟨0xf0c, 1, 0, 1, 0, .run, [⟨0, 32, .ct, 0, 2⟩]⟩,
   ⟨0xf10, 1, 0, 1, 0, .run, [⟨0, 32, .ct, 0, 2⟩]⟩,
   ⟨0xf14, 1, 0, 1, 0, .run, [⟨0, 32, .ct, 0, 2⟩]⟩,
   ⟨0xf18, 1, 0, 1, 0, .run, [⟨0, 32, .ct, 0, 2⟩]⟩,
   ⟨0xf1c, 1, 0, 1, 0, .run, [⟨0, 32, .ct, 0, 2⟩]⟩]

/-- Registers of block 1, CRG. -/
def regsCRG : List RegRow :=
  [
   ⟨0x10000, 1, 0, 1, 0, .run, [⟨0, 32, .ro, 0x1000100, 2⟩]⟩,
   ⟨0x10004, 1, 0, 1, 0, .run, [⟨0, 7, .lk, 0xa, 2⟩]⟩,
   ⟨0x10008, 1, 0, 1, 0, .run, [⟨7, 1, .ro, 0, 2⟩, ⟨6, 1, .ro, 0, 2⟩, ⟨5, 1, .ro, 0, 2⟩, ⟨4, 1, .ro, 0, 2⟩, ⟨0, 3, .ro, 0, 2⟩]⟩,
   ⟨0x10010, 1, 0, 1, 0, .run, [⟨6, 1, .w1c, 0, 2⟩, ⟨5, 1, .w1c, 0, 2⟩, ⟨4, 1, .w1c, 0, 2⟩, ⟨3, 1, .w1c, 0, 2⟩, ⟨2, 1, .w1c, 0, 2⟩, ⟨1, 1, .w1c, 0, 2⟩]⟩,
   ⟨0x10014, 1, 0, 1, 0, .run, [⟨6, 1, .rw, 0, 2⟩, ⟨5, 1, .rw, 0, 2⟩, ⟨4, 1, .rw, 0, 2⟩, ⟨3, 1, .rw, 0, 2⟩, ⟨2, 1, .rw, 0, 2⟩, ⟨1, 1, .rw, 0, 2⟩]⟩,
   ⟨0x10020, 1, 0, 1, 0, .run, [⟨7, 1, .w1c, 0, 2⟩, ⟨6, 1, .w1c, 0, 2⟩, ⟨5, 1, .w1c, 0, 2⟩, ⟨4, 1, .w1c, 0, 2⟩, ⟨3, 1, .w1c, 0, 2⟩, ⟨2, 1, .w1c, 0, 2⟩, ⟨1, 1, .w1c, 0, 2⟩, ⟨0, 1, .w1c, 1, 2⟩]⟩,
   ⟨0x10024, 1, 0, 1, 0, .run, [⟨0, 6, .ro, 0, 2⟩]⟩,
   ⟨0x10028, 1, 0, 1, 0, .run, [⟨0, 2, .rw, 0, 2⟩]⟩,
   ⟨0x1002c, 1, 0, 1, 0, .run, [⟨0, 16, .wo, 0, 3⟩]⟩,
   ⟨0x10030, 1, 0, 1, 0, .run, [⟨4, 1, .lk, 0, 2⟩, ⟨0, 4, .lk, 0, 2⟩]⟩,
   ⟨0x10040, 4, 4, 1, 0, .run, [⟨31, 1, .ro, 0, 2⟩, ⟨26, 2, .ro, 0, 2⟩, ⟨16, 6, .ro, 0, 2⟩, ⟨0, 16, .ct, 0, 2⟩]⟩,
   ⟨0x10060, 1, 0, 1, 0, .run, [⟨0, 32, .wo, 0, 3⟩]⟩,
   ⟨0x10064, 1, 0, 1, 0, .run, [⟨24, 8, .ro, 0, 2⟩, ⟨0, 24, .ro, 0, 2⟩]⟩,
   ⟨0x10068, 1, 0, 1, 0, .run, [⟨0, 32, .wo, 0, 2⟩]⟩,
   ⟨0x1006c, 1, 0, 1, 0, .run, [⟨0, 32, .w1c, 0, 2⟩]⟩,
   ⟨0x10070, 1, 0, 1, 0, .aoc, [⟨0, 32, .ro, 0, 2⟩]⟩,
   ⟨0x10074, 1, 0, 1, 0, .aoc, [⟨0, 8, .ro, 0, 2⟩]⟩,
   ⟨0x10078, 1, 0, 1, 0, .aoc, [⟨0, 15, .ro, 0, 2⟩]⟩,
   ⟨0x1007c, 1, 0, 1, 0, .aoc, [⟨0, 8, .lk, 0, 2⟩]⟩,
   ⟨0x10e00, 64, 4, 1, 0, .run, [⟨0, 32, .ro, 0, 2⟩]⟩,
   ⟨0x10f00, 1, 0, 1, 0, .run, [⟨0, 32, .ct, 0, 2⟩]⟩,
   ⟨0x10f04, 4, 4, 1, 0, .run, [⟨0, 32, .ct, 0, 2⟩]⟩,
   ⟨0x10f14, 1, 0, 1, 0, .run, [⟨0, 32, .ct, 0, 2⟩]⟩,
   ⟨0x10f18, 1, 0, 1, 0, .run, [⟨0, 32, .ct, 0, 2⟩]⟩,
   ⟨0x10f1c, 1, 0, 1, 0, .run, [⟨0, 32, .ct, 0, 2⟩]⟩,
   ⟨0x10f20, 1, 0, 1, 0, .run, [⟨0, 32, .ct, 0, 2⟩]⟩,
   ⟨0x10f24, 1, 0, 1, 0, .run, [⟨0, 32, .ct, 0, 2⟩]⟩]

/-- Registers of block 2, BOT. -/
def regsBOT : List RegRow :=
  [
   ⟨0x20000, 1, 0, 1, 0, .run, [⟨0, 32, .ro, 0x2000100, 2⟩]⟩,
   ⟨0x20004, 1, 0, 1, 0, .run, [⟨16, 16, .wo, 0, 3⟩, ⟨4, 2, .wo, 0, 3⟩, ⟨1, 1, .wo, 0, 3⟩, ⟨0, 1, .wo, 0, 3⟩]⟩,
   ⟨0x20008, 1, 0, 1, 0, .run, [⟨6, 2, .ro, 0, 2⟩, ⟨5, 1, .ro, 0, 2⟩, ⟨4, 1, .ro, 0, 2⟩, ⟨3, 1, .ro, 0, 2⟩, ⟨2, 1, .ro, 0, 2⟩, ⟨0, 2, .ro, 0, 2⟩]⟩,
   ⟨0x20010, 1, 0, 1, 0, .run, [⟨3, 1, .w1c, 0, 2⟩, ⟨2, 1, .w1c, 0, 2⟩, ⟨1, 1, .w1c, 0, 2⟩, ⟨0, 1, .w1c, 0, 2⟩]⟩,
   ⟨0x20014, 1, 0, 1, 0, .run, [⟨3, 1, .rw, 0, 2⟩, ⟨2, 1, .rw, 0, 2⟩, ⟨1, 1, .rw, 0, 2⟩, ⟨0, 1, .rw, 0, 2⟩]⟩,
   ⟨0x20020, 1, 0, 1, 0, .aoc, [⟨0, 4, .ro, 0, 2⟩]⟩,
   ⟨0x20024, 1, 0, 1, 0, .run, [⟨24, 8, .ro, 0, 2⟩, ⟨0, 24, .ro, 0, 2⟩]⟩,
   ⟨0x20028, 1, 0, 1, 0, .run, [⟨0, 8, .ro, 0, 2⟩]⟩,
   ⟨0x20030, 1, 0, 1, 0, .run, [⟨0, 32, .ro, 0, 2⟩]⟩,
   ⟨0x20034, 1, 0, 1, 0, .run, [⟨0, 32, .ro, 0, 2⟩]⟩,
   ⟨0x20038, 1, 0, 1, 0, .run, [⟨24, 6, .ro, 0, 2⟩, ⟨0, 6, .ro, 0, 2⟩]⟩,
   ⟨0x20040, 1, 0, 1, 0, .run, [⟨0, 32, .ro, 0, 2⟩]⟩,
   ⟨0x20044, 1, 0, 1, 0, .run, [⟨0, 32, .ro, 0, 2⟩]⟩,
   ⟨0x20048, 1, 0, 1, 0, .run, [⟨0, 32, .ro, 0, 2⟩]⟩,
   ⟨0x2004c, 1, 0, 1, 0, .run, [⟨0, 32, .ro, 0, 2⟩]⟩,
   ⟨0x20050, 1, 0, 1, 0, .run, [⟨0, 32, .ro, 0, 2⟩]⟩,
   ⟨0x20054, 1, 0, 1, 0, .run, [⟨0, 32, .ro, 0, 2⟩]⟩,
   ⟨0x20058, 1, 0, 1, 0, .run, [⟨0, 32, .ro, 0, 2⟩]⟩,
   ⟨0x20060, 1, 0, 1, 0, .run, [⟨16, 16, .wo, 0, 3⟩]⟩,
   ⟨0x20080, 1, 0, 1, 0, .run, [⟨0, 8, .wo, 0, 2⟩]⟩,
   ⟨0x20084, 1, 0, 1, 0, .run, [⟨0, 8, .wo, 0, 2⟩]⟩,
   ⟨0x20088, 1, 0, 1, 0, .run, [⟨8, 8, .ro, 0, 2⟩, ⟨0, 8, .ro, 0, 2⟩]⟩,
   ⟨0x2008c, 1, 0, 1, 0, .run, [⟨31, 1, .ro, 0, 2⟩, ⟨24, 4, .ro, 0, 2⟩]⟩,
   ⟨0x20100, 1, 0, 1, 0, .run, [⟨0, 3, .wo, 0, 3⟩]⟩,
   ⟨0x20104, 1, 0, 1, 0, .run, [⟨0, 25, .rw, 0, 3⟩]⟩,
   ⟨0x20108, 1, 0, 1, 0, .run, [⟨31, 1, .ro, 0, 2⟩, ⟨24, 3, .ro, 0, 2⟩]⟩,
   ⟨0x2010c, 1, 0, 1, 0, .run, [⟨0, 16, .ro, 0, 2⟩]⟩,
   ⟨0x20400, 64, 4, 1, 0, .run, [⟨0, 32, .rw, 0, 3⟩]⟩,
   ⟨0x20e00, 64, 4, 1, 0, .run, [⟨0, 32, .ro, 0, 2⟩]⟩,
   ⟨0x20f00, 1, 0, 1, 0, .run, [⟨0, 32, .ct, 0, 2⟩]⟩,
   ⟨0x20f04, 1, 0, 1, 0, .run, [⟨0, 32, .ct, 0, 2⟩]⟩,
   ⟨0x20f08, 1, 0, 1, 0, .run, [⟨0, 32, .ct, 0, 2⟩]⟩]

/-- Registers of block 3, THM. -/
def regsTHM : List RegRow :=
  [
   ⟨0x30000, 1, 0, 1, 0, .run, [⟨0, 32, .ro, 0x3000100, 2⟩]⟩,
   ⟨0x30004, 1, 0, 1, 0, .run, [⟨1, 1, .wo, 0, 2⟩, ⟨0, 1, .lk, 0, 2⟩]⟩,
   ⟨0x30008, 1, 0, 1, 0, .run, [⟨20, 12, .ro, 0, 2⟩, ⟨10, 9, .ro, 0, 2⟩, ⟨6, 4, .ro, 0, 2⟩, ⟨5, 1, .ro, 0, 2⟩, ⟨4, 1, .ro, 0, 2⟩, ⟨0, 3, .ro, 0, 2⟩]⟩,
   ⟨0x30010, 1, 0, 1, 0, .run, [⟨6, 1, .w1c, 0, 2⟩, ⟨5, 1, .w1c, 0, 2⟩, ⟨4, 1, .w1c, 0, 2⟩, ⟨3, 1, .w1c, 0, 2⟩, ⟨2, 1, .w1c, 0, 2⟩, ⟨1, 1, .w1c, 0, 2⟩, ⟨0, 1, .w1c, 0, 2⟩]⟩,
   ⟨0x30014, 1, 0, 1, 0, .run, [⟨6, 1, .rw, 0, 2⟩, ⟨5, 1, .rw, 0, 2⟩, ⟨4, 1, .rw, 0, 2⟩, ⟨3, 1, .rw, 0, 2⟩, ⟨2, 1, .rw, 0, 2⟩, ⟨1, 1, .rw, 0, 2⟩, ⟨0, 1, .rw, 0, 2⟩]⟩,
   ⟨0x30020, 9, 4, 1, 0, .run, [⟨31, 1, .ro, 0, 2⟩, ⟨0, 12, .ro, 0, 2⟩]⟩,
   ⟨0x30050, 1, 0, 1, 0, .run, [⟨0, 12, .rc, 0, 2⟩]⟩,
   ⟨0x30e00, 64, 4, 1, 0, .run, [⟨0, 32, .ro, 0, 2⟩]⟩,
   ⟨0x30f00, 1, 0, 1, 0, .run, [⟨0, 32, .ct, 0, 2⟩]⟩,
   ⟨0x30f04, 1, 0, 1, 0, .run, [⟨0, 32, .ct, 0, 2⟩]⟩,
   ⟨0x30f08, 1, 0, 1, 0, .run, [⟨0, 32, .ct, 0, 2⟩]⟩,
   ⟨0x30f0c, 1, 0, 1, 0, .run, [⟨0, 32, .ct, 0, 2⟩]⟩]

/-- Registers of block 4, TBS. -/
def regsTBS : List RegRow :=
  [
   ⟨0x40000, 1, 0, 1, 0, .run, [⟨0, 32, .ro, 0x4000100, 2⟩]⟩,
   ⟨0x40004, 1, 0, 1, 0, .run, [⟨8, 8, .rw, 0x64, 2⟩, ⟨7, 1, .rw, 0, 2⟩, ⟨6, 1, .rw, 0, 2⟩, ⟨5, 1, .rw, 1, 2⟩, ⟨4, 1, .rw, 0, 2⟩, ⟨0, 1, .lk, 0, 2⟩]⟩,
   ⟨0x40008, 1, 0, 1, 0, .run, [⟨9, 1, .ro, 0, 2⟩, ⟨8, 1, .ro, 0, 2⟩, ⟨4, 2, .ro, 0, 2⟩, ⟨0, 3, .ro, 0, 2⟩]⟩,
   ⟨0x40010, 1, 0, 1, 0, .run, [⟨8, 1, .w1c, 0, 2⟩, ⟨7, 1, .w1c, 0, 2⟩, ⟨6, 1, .w1c, 0, 2⟩, ⟨5, 1, .w1c, 0, 2⟩, ⟨4, 1, .w1c, 0, 2⟩, ⟨3, 1, .w1c, 0, 2⟩, ⟨2, 1, .w1c, 0, 2⟩, ⟨1, 1, .w1c, 0, 2⟩, ⟨0, 1, .w1c, 0, 2⟩]⟩,
   ⟨0x40014, 1, 0, 1, 0, .run, [⟨8, 1, .rw, 0, 2⟩, ⟨7, 1, .rw, 0, 2⟩, ⟨6, 1, .rw, 0, 2⟩, ⟨5, 1, .rw, 0, 2⟩, ⟨4, 1, .rw, 0, 2⟩, ⟨3, 1, .rw, 0, 2⟩, ⟨2, 1, .rw, 0, 2⟩, ⟨1, 1, .rw, 0, 2⟩, ⟨0, 1, .rw, 0, 2⟩]⟩,
   ⟨0x40020, 1, 0, 1, 0, .run, [⟨0, 32, .ro, 0, 2⟩]⟩,
   ⟨0x40024, 1, 0, 1, 0, .run, [⟨0, 32, .ro, 0, 2⟩]⟩,
   ⟨0x40028, 1, 0, 1, 0, .run, [⟨0, 32, .ro, 0, 2⟩]⟩,
   ⟨0x40030, 1, 0, 1, 0, .run, [⟨0, 32, .rw, 0x40000000, 2⟩]⟩,
   ⟨0x40034, 1, 0, 1, 0, .run, [⟨0, 4, .rw, 1, 2⟩]⟩,
   ⟨0x40038, 1, 0, 1, 0, .run, [⟨0, 10, .lk, 0xc8, 2⟩]⟩,
   ⟨0x4003c, 1, 0, 1, 0, .run, [⟨0, 16, .lk, 0x258, 2⟩]⟩,
   ⟨0x40040, 1, 0, 1, 0, .run, [⟨1, 1, .wo, 0, 3⟩, ⟨0, 1, .wo, 0, 2⟩]⟩,
   ⟨0x40044, 1, 0, 1, 0, .run, [⟨0, 32, .rw, 0, 2⟩]⟩,
   ⟨0x40048, 1, 0, 1, 0, .run, [⟨0, 32, .rw, 0, 2⟩]⟩,
   ⟨0x4004c, 1, 0, 1, 0, .run, [⟨0, 32, .rw, 0, 2⟩]⟩,
   ⟨0x40050, 1, 0, 1, 0, .run, [⟨0, 32, .ro, 0, 2⟩]⟩,
   ⟨0x40054, 1, 0, 1, 0, .run, [⟨0, 6, .ro, 0, 2⟩]⟩,
   ⟨0x40060, 1, 0, 1, 0, .run, [⟨0, 32, .ro, 0, 2⟩]⟩,
   ⟨0x40064, 1, 0, 1, 0, .run, [⟨0, 32, .ro, 0, 2⟩]⟩,
   ⟨0x40068, 1, 0, 1, 0, .run, [⟨0, 32, .ro, 0, 2⟩]⟩,
   ⟨0x4006c, 1, 0, 1, 0, .run, [⟨0, 32, .ro, 0, 2⟩]⟩,
   ⟨0x40070, 1, 0, 1, 0, .run, [⟨0, 20, .rw, 0x3e80, 2⟩]⟩,
   ⟨0x40074, 1, 0, 1, 0, .run, [⟨0, 20, .lk, 0xa00, 2⟩]⟩,
   ⟨0x40078, 1, 0, 1, 0, .run, [⟨0, 20, .lk, 0x460, 2⟩]⟩,
   ⟨0x4007c, 1, 0, 1, 0, .run, [⟨0, 20, .lk, 0x1f40, 2⟩]⟩,
   ⟨0x40080, 1, 0, 1, 0, .run, [⟨0, 20, .lk, 0xc3500, 2⟩]⟩,
   ⟨0x40084, 1, 0, 1, 0, .run, [⟨0, 20, .ro, 0, 2⟩]⟩,
   ⟨0x40088, 1, 0, 1, 0, .run, [⟨31, 1, .ro, 0, 2⟩, ⟨0, 20, .ro, 0, 2⟩]⟩,
   ⟨0x40e00, 64, 4, 1, 0, .run, [⟨0, 32, .ro, 0, 2⟩]⟩,
   ⟨0x40f00, 1, 0, 1, 0, .run, [⟨0, 32, .ct, 0, 2⟩]⟩,
   ⟨0x40f04, 1, 0, 1, 0, .run, [⟨0, 32, .ct, 0, 2⟩]⟩,
   ⟨0x40f08, 1, 0, 1, 0, .run, [⟨0, 32, .ct, 0, 2⟩]⟩,
   ⟨0x40f0c, 1, 0, 1, 0, .run, [⟨0, 32, .ct, 0, 2⟩]⟩,
   ⟨0x40f10, 1, 0, 1, 0, .run, [⟨0, 32, .ct, 0, 2⟩]⟩,
   ⟨0x40f14, 1, 0, 1, 0, .run, [⟨0, 32, .ct, 0, 2⟩]⟩]

/-- Registers of block 5, PTP. -/
def regsPTP : List RegRow :=
  [
   ⟨0x50000, 1, 0, 1, 0, .run, [⟨0, 32, .ro, 0x5000100, 2⟩]⟩,
   ⟨0x50004, 1, 0, 1, 0, .run, [⟨16, 4, .lk, 4, 2⟩, ⟨8, 8, .lk, 0, 2⟩, ⟨5, 1, .lk, 1, 2⟩, ⟨4, 1, .lk, 1, 2⟩, ⟨2, 1, .lk, 0, 2⟩, ⟨0, 2, .lk, 0, 2⟩]⟩,
   ⟨0x50008, 1, 0, 1, 0, .run, [⟨13, 1, .ro, 0, 2⟩, ⟨12, 1, .ro, 0, 2⟩, ⟨8, 3, .ro, 0, 2⟩, ⟨4, 3, .ro, 0, 2⟩, ⟨0, 2, .ro, 0, 2⟩]⟩,
   ⟨0x50010, 1, 0, 1, 0, .run, [⟨10, 1, .w1c, 0, 2⟩, ⟨9, 1, .w1c, 0, 2⟩, ⟨8, 1, .w1c, 0, 2⟩, ⟨7, 1, .w1c, 0, 2⟩, ⟨6, 1, .w1c, 0, 2⟩, ⟨5, 1, .w1c, 0, 2⟩, ⟨4, 1, .w1c, 0, 2⟩, ⟨3, 1, .w1c, 0, 2⟩, ⟨2, 1, .w1c, 0, 2⟩, ⟨1, 1, .w1c, 0, 2⟩, ⟨0, 1, .w1c, 0, 2⟩]⟩,
   ⟨0x50014, 1, 0, 1, 0, .run, [⟨10, 1, .rw, 0, 2⟩, ⟨9, 1, .rw, 0, 2⟩, ⟨8, 1, .rw, 0, 2⟩, ⟨7, 1, .rw, 0, 2⟩, ⟨6, 1, .rw, 0, 2⟩, ⟨5, 1, .rw, 0, 2⟩, ⟨4, 1, .rw, 0, 2⟩, ⟨3, 1, .rw, 0, 2⟩, ⟨2, 1, .rw, 0, 2⟩, ⟨1, 1, .rw, 0, 2⟩, ⟨0, 1, .rw, 0, 2⟩]⟩,
   ⟨0x50020, 1, 0, 1, 0, .run, [⟨0, 20, .lk, 0x3e8, 2⟩]⟩,
   ⟨0x50030, 1, 0, 1, 0, .run, [⟨0, 32, .ro, 0, 2⟩]⟩,
   ⟨0x50034, 1, 0, 1, 0, .run, [⟨0, 32, .ro, 0, 2⟩]⟩,
   ⟨0x50038, 1, 0, 1, 0, .run, [⟨0, 32, .ro, 0, 2⟩]⟩,
   ⟨0x50040, 1, 0, 1, 0, .run, [⟨0, 32, .ro, 0, 2⟩]⟩,
   ⟨0x50044, 1, 0, 1, 0, .run, [⟨0, 32, .ro, 0, 2⟩]⟩,
   ⟨0x50048, 1, 0, 1, 0, .run, [⟨0, 32, .ro, 0, 2⟩]⟩,
   ⟨0x5004c, 1, 0, 1, 0, .run, [⟨0, 32, .ro, 0, 2⟩]⟩,
   ⟨0x50050, 1, 0, 1, 0, .run, [⟨0, 32, .ro, 0, 2⟩]⟩,
   ⟨0x50060, 1, 0, 1, 0, .run, [⟨0, 32, .lk, 0, 2⟩]⟩,
   ⟨0x50064, 1, 0, 1, 0, .run, [⟨0, 32, .lk, 0, 2⟩]⟩,
   ⟨0x50100, 2, 0x80, 1, 0, .run, [⟨31, 1, .ro, 0, 2⟩, ⟨24, 6, .ro, 0, 2⟩, ⟨16, 4, .ro, 0, 2⟩, ⟨0, 16, .ro, 0, 2⟩]⟩,
   ⟨0x50104, 2, 0x80, 3, 4, .run, [⟨0, 32, .ro, 0, 2⟩]⟩,
   ⟨0x50110, 2, 0x80, 1, 0, .run, [⟨0, 1, .wo, 0, 2⟩]⟩,
   ⟨0x50120, 2, 0x80, 1, 0, .run, [⟨31, 1, .ro, 0, 2⟩, ⟨24, 6, .ro, 0, 2⟩, ⟨16, 4, .ro, 0, 2⟩, ⟨0, 16, .ro, 0, 2⟩]⟩,
   ⟨0x50124, 2, 0x80, 3, 4, .run, [⟨0, 32, .ro, 0, 2⟩]⟩,
   ⟨0x50130, 2, 0x80, 3, 4, .run, [⟨0, 32, .ro, 0, 2⟩]⟩,
   ⟨0x5013c, 2, 0x80, 1, 0, .run, [⟨0, 1, .wo, 0, 2⟩]⟩,
   ⟨0x50e00, 64, 4, 1, 0, .run, [⟨0, 32, .ro, 0, 2⟩]⟩,
   ⟨0x50f00, 2, 4, 1, 0, .run, [⟨0, 32, .ct, 0, 2⟩]⟩,
   ⟨0x50f08, 2, 4, 1, 0, .run, [⟨0, 32, .ct, 0, 2⟩]⟩,
   ⟨0x50f10, 1, 0, 1, 0, .run, [⟨0, 32, .ct, 0, 2⟩]⟩,
   ⟨0x50f14, 1, 0, 1, 0, .run, [⟨0, 32, .ct, 0, 2⟩]⟩,
   ⟨0x50f18, 1, 0, 1, 0, .run, [⟨0, 32, .ct, 0, 2⟩]⟩,
   ⟨0x50f1c, 1, 0, 1, 0, .run, [⟨0, 32, .ct, 0, 2⟩]⟩,
   ⟨0x50f20, 1, 0, 1, 0, .run, [⟨0, 32, .ct, 0, 2⟩]⟩]

/-- Registers of block 6, NET. -/
def regsNET : List RegRow :=
  [
   ⟨0x60000, 1, 0, 1, 0, .run, [⟨0, 32, .ro, 0x6000100, 2⟩]⟩,
   ⟨0x60004, 1, 0, 1, 0, .run, [⟨16, 8, .lk, 2, 2⟩, ⟨0, 16, .lk, 0x190, 2⟩]⟩,
   ⟨0x60008, 1, 0, 1, 0, .run, [⟨9, 2, .ro, 0, 2⟩, ⟨0, 9, .ro, 0, 2⟩]⟩,
   ⟨0x6000c, 1, 0, 1, 0, .run, [⟨0, 3, .ro, 0, 2⟩]⟩,
   ⟨0x60010, 1, 0, 1, 0, .run, [⟨4, 1, .w1c, 0, 2⟩, ⟨3, 1, .w1c, 0, 2⟩, ⟨2, 1, .w1c, 0, 2⟩, ⟨1, 1, .w1c, 0, 2⟩, ⟨0, 1, .w1c, 0, 2⟩]⟩,
   ⟨0x60014, 1, 0, 1, 0, .run, [⟨4, 1, .rw, 0, 2⟩, ⟨3, 1, .rw, 0, 2⟩, ⟨2, 1, .rw, 0, 2⟩, ⟨1, 1, .rw, 0, 2⟩, ⟨0, 1, .rw, 0, 2⟩]⟩,
   ⟨0x60020, 3, 4, 1, 0, .run, [⟨31, 1, .lk, 0, 2⟩, ⟨26, 2, .lk, 0, 2⟩, ⟨0, 16, .lk, 0, 2⟩]⟩,
   ⟨0x60040, 3, 8, 1, 0, .run, [⟨0, 32, .lk, 0, 2⟩]⟩,
   ⟨0x60044, 3, 8, 1, 0, .run, [⟨0, 16, .lk, 0, 2⟩]⟩,
   ⟨0x60e00, 64, 4, 1, 0, .run, [⟨0, 32, .ro, 0, 2⟩]⟩,
   ⟨0x60f00, 3, 4, 1, 0, .run, [⟨0, 32, .ct, 0, 2⟩]⟩,
   ⟨0x60f0c, 3, 4, 1, 0, .run, [⟨0, 32, .ct, 0, 2⟩]⟩,
   ⟨0x60f18, 3, 4, 1, 0, .run, [⟨0, 32, .ct, 0, 2⟩]⟩,
   ⟨0x60f24, 3, 4, 1, 0, .run, [⟨0, 32, .ct, 0, 2⟩]⟩,
   ⟨0x60f30, 3, 4, 1, 0, .run, [⟨0, 32, .ct, 0, 2⟩]⟩,
   ⟨0x60f3c, 1, 0, 1, 0, .run, [⟨0, 32, .ct, 0, 2⟩]⟩,
   ⟨0x60f40, 1, 0, 1, 0, .run, [⟨0, 32, .ct, 0, 2⟩]⟩,
   ⟨0x60f44, 1, 0, 1, 0, .run, [⟨0, 32, .ct, 0, 2⟩]⟩,
   ⟨0x60f48, 1, 0, 1, 0, .run, [⟨0, 32, .ct, 0, 2⟩]⟩]

/-- Registers of block 7, SVX. -/
def regsSVX : List RegRow :=
  [
   ⟨0x70000, 1, 0, 1, 0, .run, [⟨0, 32, .ro, 0x7000100, 2⟩]⟩,
   ⟨0x70004, 1, 0, 1, 0, .run, [⟨0, 1, .lk, 0, 2⟩]⟩,
   ⟨0x70010, 1, 0, 1, 0, .run, [⟨4, 1, .w1c, 0, 2⟩, ⟨3, 1, .w1c, 0, 2⟩, ⟨2, 1, .w1c, 0, 2⟩, ⟨1, 1, .w1c, 0, 2⟩, ⟨0, 1, .w1c, 0, 2⟩]⟩,
   ⟨0x70014, 1, 0, 1, 0, .run, [⟨4, 1, .rw, 0, 2⟩, ⟨3, 1, .rw, 0, 2⟩, ⟨2, 1, .rw, 0, 2⟩, ⟨1, 1, .rw, 0, 2⟩, ⟨0, 1, .rw, 0, 2⟩]⟩,
   ⟨0x70020, 1, 0, 1, 0, .run, [⟨0, 32, .ro, 0, 2⟩]⟩,
   ⟨0x70024, 1, 0, 1, 0, .run, [⟨0, 32, .ro, 0, 2⟩]⟩,
   ⟨0x70100, 8, 0x40, 1, 0, .run, [⟨31, 1, .lk, 0, 2⟩, ⟨30, 1, .lk, 0, 2⟩, ⟨29, 1, .lk, 0, 2⟩, ⟨28, 1, .lk, 0, 2⟩, ⟨27, 1, .lk, 0, 2⟩, ⟨20, 4, .lk, 2, 2⟩, ⟨13, 3, .lk, 4, 2⟩, ⟨0, 12, .lk, 0, 2⟩]⟩,
   ⟨0x70104, 8, 0x40, 1, 0, .run, [⟨16, 16, .lk, 0x4000, 2⟩, ⟨0, 16, .lk, 0, 2⟩]⟩,
   ⟨0x70108, 8, 0x40, 1, 0, .run, [⟨0, 32, .lk, 0, 2⟩]⟩,
   ⟨0x7010c, 8, 0x40, 1, 0, .run, [⟨0, 32, .lk, 0, 2⟩]⟩,
   ⟨0x70110, 8, 0x40, 1, 0, .run, [⟨0, 32, .lk, 0, 2⟩]⟩,
   ⟨0x70114, 8, 0x40, 1, 0, .run, [⟨0, 32, .lk, 0, 2⟩]⟩,
   ⟨0x70118, 8, 0x40, 1, 0, .run, [⟨16, 2, .ro, 0, 2⟩, ⟨0, 16, .ro, 0, 2⟩]⟩,
   ⟨0x70e00, 64, 4, 1, 0, .run, [⟨0, 32, .ro, 0, 2⟩]⟩,
   ⟨0x70f00, 1, 0, 1, 0, .run, [⟨0, 32, .ct, 0, 2⟩]⟩,
   ⟨0x70f04, 1, 0, 1, 0, .run, [⟨0, 32, .ct, 0, 2⟩]⟩,
   ⟨0x70f08, 1, 0, 1, 0, .run, [⟨0, 32, .ct, 0, 2⟩]⟩,
   ⟨0x71000, 32, 0x40, 1, 0, .run, [⟨31, 1, .lk, 0, 2⟩, ⟨30, 1, .lk, 0, 2⟩, ⟨29, 1, .lk, 0, 2⟩, ⟨28, 1, .lk, 0, 2⟩, ⟨20, 4, .lk, 3, 2⟩, ⟨0, 12, .lk, 0, 2⟩]⟩,
   ⟨0x71004, 32, 0x40, 1, 0, .run, [⟨0, 32, .lk, 0x40000000, 2⟩]⟩,
   ⟨0x71008, 32, 0x40, 1, 0, .run, [⟨0, 32, .lk, 0, 2⟩]⟩,
   ⟨0x7100c, 32, 0x40, 1, 0, .run, [⟨0, 32, .lk, 0, 2⟩]⟩,
   ⟨0x71010, 32, 0x40, 1, 0, .run, [⟨0, 17, .lk, 0x3e8, 2⟩]⟩,
   ⟨0x71014, 32, 0x40, 1, 0, .run, [⟨16, 16, .ro, 0, 2⟩, ⟨4, 2, .ro, 0, 2⟩, ⟨0, 2, .ro, 0, 2⟩]⟩,
   ⟨0x71018, 32, 0x40, 1, 0, .run, [⟨0, 32, .ro, 0, 2⟩]⟩,
   ⟨0x7101c, 32, 0x40, 1, 0, .run, [⟨0, 16, .ro, 0, 2⟩]⟩,
   ⟨0x71020, 32, 0x40, 1, 0, .run, [⟨0, 32, .rc, 0, 2⟩]⟩,
   ⟨0x71024, 32, 0x40, 1, 0, .run, [⟨0, 32, .ct, 0, 2⟩]⟩,
   ⟨0x71028, 32, 0x40, 1, 0, .run, [⟨0, 32, .ct, 0, 2⟩]⟩,
   ⟨0x7102c, 32, 0x40, 1, 0, .run, [⟨0, 32, .ct, 0, 2⟩]⟩,
   ⟨0x71030, 32, 0x40, 1, 0, .run, [⟨0, 32, .ct, 0, 2⟩]⟩,
   ⟨0x71034, 32, 0x40, 1, 0, .run, [⟨0, 32, .ct, 0, 2⟩]⟩,
   ⟨0x71038, 32, 0x40, 1, 0, .run, [⟨0, 32, .ct, 0, 2⟩]⟩,
   ⟨0x7103c, 32, 0x40, 1, 0, .run, [⟨0, 32, .ct, 0, 2⟩]⟩,
   ⟨0x72000, 256, 0x10, 1, 0, .run, [⟨31, 1, .lk, 0, 2⟩, ⟨30, 1, .lk, 0, 2⟩, ⟨29, 1, .lk, 0, 2⟩, ⟨24, 2, .lk, 0, 2⟩, ⟨8, 5, .lk, 0, 2⟩, ⟨0, 4, .lk, 0, 2⟩]⟩,
   ⟨0x72004, 256, 0x10, 1, 0, .run, [⟨0, 32, .lk, 0x3f800000, 2⟩]⟩,
   ⟨0x72008, 256, 0x10, 1, 0, .hec, [⟨0, 32, .ro, 0, 2⟩]⟩,
   ⟨0x7200c, 256, 0x10, 1, 0, .hec, [⟨31, 1, .ro, 0, 2⟩, ⟨0, 14, .ro, 0, 2⟩]⟩]

/-- Registers of block 8, GSE. -/
def regsGSE : List RegRow :=
  [
   ⟨0x80000, 1, 0, 1, 0, .run, [⟨0, 32, .ro, 0x8000100, 2⟩]⟩,
   ⟨0x80004, 1, 0, 1, 0, .run, [⟨0, 1, .lk, 0, 2⟩]⟩,
   ⟨0x80010, 1, 0, 1, 0, .run, [⟨3, 1, .w1c, 0, 2⟩, ⟨2, 1, .w1c, 0, 2⟩, ⟨1, 1, .w1c, 0, 2⟩, ⟨0, 1, .w1c, 0, 2⟩]⟩,
   ⟨0x80014, 1, 0, 1, 0, .run, [⟨3, 1, .rw, 0, 2⟩, ⟨2, 1, .rw, 0, 2⟩, ⟨1, 1, .rw, 0, 2⟩, ⟨0, 1, .rw, 0, 2⟩]⟩,
   ⟨0x80020, 1, 0, 1, 0, .run, [⟨0, 32, .ro, 0, 2⟩]⟩,
   ⟨0x80024, 1, 0, 1, 0, .run, [⟨0, 32, .ro, 0, 2⟩]⟩,
   ⟨0x80030, 4, 4, 1, 0, .run, [⟨0, 32, .ro, 0, 2⟩]⟩,
   ⟨0x80050, 1, 0, 1, 0, .run, [⟨0, 32, .lk, 0, 2⟩]⟩,
   ⟨0x80054, 1, 0, 1, 0, .run, [⟨0, 32, .lk, 0, 2⟩]⟩,
   ⟨0x80058, 1, 0, 1, 0, .run, [⟨8, 8, .ro, 0, 2⟩, ⟨0, 8, .ro, 0, 2⟩]⟩,
   ⟨0x80080, 8, 8, 2, 4, .run, [⟨0, 32, .lk, 0, 2⟩]⟩,
   ⟨0x80100, 64, 4, 1, 0, .run, [⟨31, 1, .lk, 0, 2⟩, ⟨30, 1, .lk, 0, 2⟩, ⟨16, 7, .lk, 0, 2⟩, ⟨0, 6, .lk, 0, 2⟩]⟩,
   ⟨0x80400, 16, 0x40, 1, 0, .run, [⟨31, 1, .lk, 0, 2⟩, ⟨30, 1, .lk, 0, 2⟩, ⟨29, 1, .lk, 0, 2⟩, ⟨16, 6, .lk, 1, 2⟩, ⟨13, 3, .lk, 4, 2⟩, ⟨0, 12, .lk, 0, 2⟩]⟩,
   ⟨0x80404, 16, 0x40, 1, 0, .run, [⟨16, 16, .lk, 0, 2⟩, ⟨0, 16, .lk, 0, 2⟩]⟩,
   ⟨0x80408, 16, 0x40, 1, 0, .run, [⟨0, 32, .lk, 0, 2⟩]⟩,
   ⟨0x8040c, 16, 0x40, 1, 0, .run, [⟨0, 32, .lk, 0, 2⟩]⟩,
   ⟨0x80410, 16, 0x40, 1, 0, .run, [⟨16, 16, .lk, 0x3e8, 2⟩, ⟨0, 16, .lk, 0x7d0, 2⟩]⟩,
   ⟨0x80414, 16, 0x40, 1, 0, .run, [⟨0, 32, .ro, 0, 2⟩]⟩,
   ⟨0x80418, 16, 0x40, 1, 0, .run, [⟨0, 32, .ro, 0, 2⟩]⟩,
   ⟨0x80e00, 64, 4, 1, 0, .run, [⟨0, 32, .ro, 0, 2⟩]⟩,
   ⟨0x80f00, 1, 0, 1, 0, .run, [⟨0, 32, .ct, 0, 2⟩]⟩,
   ⟨0x80f04, 1, 0, 1, 0, .run, [⟨0, 32, .ct, 0, 2⟩]⟩,
   ⟨0x80f08, 1, 0, 1, 0, .run, [⟨0, 32, .ct, 0, 2⟩]⟩,
   ⟨0x80f0c, 1, 0, 1, 0, .run, [⟨0, 32, .ct, 0, 2⟩]⟩,
   ⟨0x80f10, 1, 0, 1, 0, .run, [⟨0, 32, .ct, 0, 2⟩]⟩,
   ⟨0x80f14, 1, 0, 1, 0, .run, [⟨0, 32, .ct, 0, 2⟩]⟩,
   ⟨0x80f18, 1, 0, 1, 0, .run, [⟨0, 32, .ct, 0, 2⟩]⟩,
   ⟨0x81000, 128, 0x20, 1, 0, .run, [⟨31, 1, .lk, 0, 2⟩, ⟨30, 1, .lk, 0, 2⟩, ⟨29, 1, .lk, 0, 2⟩, ⟨0, 12, .lk, 0, 2⟩]⟩,
   ⟨0x81004, 128, 0x20, 1, 0, .run, [⟨0, 32, .lk, 0, 2⟩]⟩,
   ⟨0x81008, 128, 0x20, 1, 0, .run, [⟨0, 32, .lk, 0, 2⟩]⟩,
   ⟨0x8100c, 128, 0x20, 1, 0, .run, [⟨0, 32, .lk, 0, 2⟩]⟩,
   ⟨0x81010, 128, 0x20, 1, 0, .run, [⟨0, 2, .ro, 0, 2⟩]⟩,
   ⟨0x81014, 128, 0x20, 1, 0, .run, [⟨0, 32, .ro, 0, 2⟩]⟩,
   ⟨0x81018, 128, 0x20, 1, 0, .run, [⟨0, 32, .ro, 0, 2⟩]⟩,
   ⟨0x8101c, 128, 0x20, 1, 0, .run, [⟨0, 32, .ro, 0, 2⟩]⟩,
   ⟨0x82000, 16, 0x80, 32, 4, .run, [⟨0, 12, .lk, 0, 2⟩]⟩]

/-- Registers of block 9, LNK. -/
def regsLNK : List RegRow :=
  [
   ⟨0x100004, 72, 0x400, 1, 0, .run, [⟨10, 2, .rw, 0, 3⟩, ⟨8, 2, .rw, 0, 3⟩, ⟨7, 1, .rw, 1, 3⟩, ⟨4, 2, .rw, 0, 2⟩, ⟨2, 2, .rw, 0, 2⟩, ⟨0, 1, .lk, 0, 2⟩]⟩,
   ⟨0x100008, 72, 0x400, 1, 0, .lnc, [⟨31, 1, .ro, 0, 2⟩, ⟨24, 7, .ro, 0x7f, 2⟩, ⟨17, 7, .ro, 0, 2⟩, ⟨13, 1, .ro, 0, 2⟩, ⟨12, 1, .ro, 0, 2⟩, ⟨8, 2, .ro, 0, 2⟩, ⟨4, 2, .ro, 0, 2⟩, ⟨2, 2, .ro, 0, 2⟩]⟩,
   ⟨0x100010, 72, 0x400, 1, 0, .run, [⟨5, 1, .w1c, 0, 2⟩, ⟨4, 1, .w1c, 0, 2⟩, ⟨3, 1, .w1c, 0, 2⟩, ⟨2, 1, .w1c, 0, 2⟩, ⟨1, 1, .w1c, 0, 2⟩]⟩,
   ⟨0x100014, 72, 0x400, 1, 0, .run, [⟨5, 1, .rw, 0, 2⟩, ⟨4, 1, .rw, 0, 2⟩, ⟨3, 1, .rw, 0, 2⟩, ⟨2, 1, .rw, 0, 2⟩, ⟨1, 1, .rw, 0, 2⟩]⟩,
   ⟨0x100020, 72, 0x400, 1, 0, .run, [⟨24, 8, .ro, 0, 2⟩, ⟨16, 8, .ro, 0, 2⟩, ⟨0, 10, .ro, 0, 2⟩]⟩,
   ⟨0x100024, 72, 0x400, 1, 0, .run, [⟨8, 8, .rw, 0x60, 2⟩, ⟨0, 8, .rw, 0x30, 2⟩]⟩,
   ⟨0x100028, 72, 0x400, 1, 0, .lnc, [⟨8, 5, .rw, 0x10, 3⟩, ⟨0, 4, .rw, 8, 3⟩]⟩,
   ⟨0x10002c, 72, 0x400, 1, 0, .lnc, [⟨26, 6, .rw, 0, 3⟩, ⟨21, 5, .rw, 0, 3⟩, ⟨16, 5, .rw, 0, 3⟩, ⟨11, 5, .rw, 0, 3⟩, ⟨6, 5, .rw, 0, 3⟩]⟩,
   ⟨0x100030, 72, 0x400, 1, 0, .lnc, [⟨31, 1, .wo, 0, 3⟩, ⟨0, 7, .ro, 0, 3⟩]⟩,
   ⟨0x100040, 72, 0x400, 1, 0, .run, [⟨31, 1, .rw, 0, 3⟩, ⟨10, 2, .rw, 0, 3⟩, ⟨8, 2, .rw, 0, 3⟩, ⟨6, 2, .rw, 0, 3⟩, ⟨0, 5, .rw, 0, 3⟩]⟩,
   ⟨0x100044, 72, 0x400, 1, 0, .run, [⟨16, 16, .rw, 0, 3⟩, ⟨0, 16, .rw, 1, 3⟩]⟩,
   ⟨0x100048, 72, 0x400, 1, 0, .run, [⟨0, 32, .rw, 1, 3⟩]⟩,
   ⟨0x100100, 72, 0x400, 1, 0, .lnc, [⟨0, 32, .ct, 0, 2⟩]⟩,
   ⟨0x100104, 72, 0x400, 1, 0, .lnc, [⟨0, 32, .ct, 0, 2⟩]⟩,
   ⟨0x100108, 72, 0x400, 1, 0, .lnc, [⟨0, 32, .ct, 0, 2⟩]⟩,
   ⟨0x10010c, 72, 0x400, 1, 0, .lnc, [⟨0, 32, .ct, 0, 2⟩]⟩,
   ⟨0x100110, 72, 0x400, 1, 0, .lnc, [⟨0, 32, .ct, 0, 2⟩]⟩,
   ⟨0x100114, 72, 0x400, 1, 0, .lnc, [⟨0, 32, .ct, 0, 2⟩]⟩,
   ⟨0x100118, 72, 0x400, 1, 0, .lnc, [⟨0, 32, .ct, 0, 2⟩]⟩,
   ⟨0x112000, 1, 0, 1, 0, .run, [⟨0, 32, .ro, 0x9000100, 2⟩]⟩,
   ⟨0x112004, 1, 0, 1, 0, .run, [⟨16, 11, .lk, 0x10, 2⟩, ⟨8, 8, .lk, 0x40, 2⟩]⟩,
   ⟨0x112008, 1, 0, 1, 0, .lnc, [⟨0, 2, .ro, 0, 2⟩]⟩,
   ⟨0x112010, 1, 0, 1, 0, .run, [⟨6, 1, .w1c, 0, 2⟩, ⟨5, 1, .w1c, 0, 2⟩, ⟨4, 1, .w1c, 0, 2⟩, ⟨3, 1, .w1c, 0, 2⟩, ⟨2, 1, .w1c, 0, 2⟩, ⟨1, 1, .w1c, 0, 2⟩, ⟨0, 1, .w1c, 0, 2⟩]⟩,
   ⟨0x112014, 1, 0, 1, 0, .run, [⟨6, 1, .rw, 0, 2⟩, ⟨5, 1, .rw, 0, 2⟩, ⟨4, 1, .rw, 0, 2⟩, ⟨3, 1, .rw, 0, 2⟩, ⟨2, 1, .rw, 0, 2⟩, ⟨1, 1, .rw, 0, 2⟩, ⟨0, 1, .rw, 0, 2⟩]⟩,
   ⟨0x112020, 1, 0, 1, 0, .run, [⟨0, 32, .ro, 0, 2⟩]⟩,
   ⟨0x112024, 1, 0, 1, 0, .run, [⟨0, 32, .ro, 0, 2⟩]⟩,
   ⟨0x112028, 1, 0, 1, 0, .run, [⟨0, 8, .ro, 0, 2⟩]⟩,
   ⟨0x112040, 4, 4, 1, 0, .run, [⟨31, 1, .rw, 0, 3⟩, ⟨0, 7, .rw, 0, 3⟩]⟩,
   ⟨0x112050, 1, 0, 1, 0, .run, [⟨0, 32, .ro, 0, 2⟩]⟩,
   ⟨0x112e00, 64, 4, 1, 0, .run, [⟨0, 32, .ro, 0, 2⟩]⟩,
   ⟨0x112f00, 1, 0, 1, 0, .run, [⟨0, 32, .ct, 0, 2⟩]⟩,
   ⟨0x112f04, 1, 0, 1, 0, .run, [⟨0, 32, .ct, 0, 2⟩]⟩,
   ⟨0x112f08, 1, 0, 1, 0, .run, [⟨0, 32, .ct, 0, 2⟩]⟩,
   ⟨0x112f0c, 1, 0, 1, 0, .run, [⟨0, 32, .ct, 0, 2⟩]⟩,
   ⟨0x112f10, 1, 0, 1, 0, .run, [⟨0, 32, .ct, 0, 2⟩]⟩]

/-- Registers of block 10, TWL. -/
def regsTWL : List RegRow :=
  [
   ⟨0x120000, 1, 0, 1, 0, .run, [⟨0, 32, .ro, 0xa000100, 2⟩]⟩,
   ⟨0x120004, 1, 0, 1, 0, .run, [⟨16, 16, .lk, 0x64, 2⟩, ⟨8, 8, .lk, 0xa, 2⟩, ⟨0, 8, .lk, 0x20, 2⟩]⟩,
   ⟨0x120008, 1, 0, 1, 0, .run, [⟨16, 10, .ro, 0, 2⟩, ⟨0, 9, .ro, 0, 2⟩]⟩,
   ⟨0x12000c, 1, 0, 1, 0, .run, [⟨8, 5, .lk, 3, 2⟩, ⟨0, 6, .lk, 6, 2⟩]⟩,
   ⟨0x120010, 1, 0, 1, 0, .run, [⟨10, 1, .w1c, 0, 2⟩, ⟨9, 1, .w1c, 0, 2⟩, ⟨8, 1, .w1c, 0, 2⟩, ⟨7, 1, .w1c, 0, 2⟩, ⟨6, 1, .w1c, 0, 2⟩, ⟨5, 1, .w1c, 0, 2⟩, ⟨4, 1, .w1c, 0, 2⟩, ⟨3, 1, .w1c, 0, 2⟩, ⟨2, 1, .w1c, 0, 2⟩, ⟨1, 1, .w1c, 0, 2⟩, ⟨0, 1, .w1c, 0, 2⟩]⟩,
   ⟨0x120014, 1, 0, 1, 0, .run, [⟨10, 1, .rw, 0, 2⟩, ⟨9, 1, .rw, 0, 2⟩, ⟨8, 1, .rw, 0, 2⟩, ⟨7, 1, .rw, 0, 2⟩, ⟨6, 1, .rw, 0, 2⟩, ⟨5, 1, .rw, 0, 2⟩, ⟨4, 1, .rw, 0, 2⟩, ⟨3, 1, .rw, 0, 2⟩, ⟨2, 1, .rw, 0, 2⟩, ⟨1, 1, .rw, 0, 2⟩, ⟨0, 1, .rw, 0, 2⟩]⟩,
   ⟨0x120020, 1, 0, 1, 0, .run, [⟨16, 16, .ro, 0, 2⟩, ⟨0, 8, .ro, 0, 2⟩]⟩,
   ⟨0x120040, 1, 0, 1, 0, .run, [⟨29, 3, .rw, 0, 2⟩, ⟨16, 8, .rw, 0, 2⟩, ⟨0, 16, .rw, 0, 2⟩]⟩,
   ⟨0x120044, 1, 0, 1, 0, .run, [⟨0, 32, .rw, 0, 2⟩]⟩,
   ⟨0x120048, 1, 0, 1, 0, .run, [⟨0, 1, .wo, 0, 2⟩]⟩,
   ⟨0x12004c, 1, 0, 1, 0, .run, [⟨31, 1, .ro, 0, 2⟩, ⟨24, 4, .ro, 0, 2⟩, ⟨0, 9, .ro, 0, 2⟩]⟩,
   ⟨0x120050, 1, 0, 1, 0, .run, [⟨31, 1, .ro, 0, 2⟩, ⟨28, 3, .ro, 0, 2⟩, ⟨18, 10, .ro, 0, 2⟩, ⟨0, 9, .ro, 0, 2⟩]⟩,
   ⟨0x120054, 1, 0, 1, 0, .run, [⟨29, 3, .ro, 0, 2⟩, ⟨16, 8, .ro, 0, 2⟩, ⟨0, 16, .ro, 0, 2⟩]⟩,
   ⟨0x120058, 1, 0, 1, 0, .run, [⟨0, 32, .ro, 0, 2⟩]⟩,
   ⟨0x12005c, 1, 0, 1, 0, .run, [⟨0, 1, .wo, 0, 2⟩]⟩,
   ⟨0x120080, 8, 4, 1, 0, .hec, [⟨0, 32, .ro, 0, 2⟩]⟩,
   ⟨0x120100, 64, 4, 1, 0, .run, [⟨0, 16, .lk, 0x7d00, 2⟩]⟩,
   ⟨0x120e00, 64, 4, 1, 0, .run, [⟨0, 32, .ro, 0, 2⟩]⟩,
   ⟨0x120f00, 1, 0, 1, 0, .run, [⟨0, 32, .ct, 0, 2⟩]⟩,
   ⟨0x120f04, 1, 0, 1, 0, .run, [⟨0, 32, .ct, 0, 2⟩]⟩,
   ⟨0x120f08, 1, 0, 1, 0, .run, [⟨0, 32, .ct, 0, 2⟩]⟩,
   ⟨0x120f0c, 1, 0, 1, 0, .run, [⟨0, 32, .ct, 0, 2⟩]⟩,
   ⟨0x120f10, 1, 0, 1, 0, .run, [⟨0, 32, .ct, 0, 2⟩]⟩,
   ⟨0x120f14, 1, 0, 1, 0, .run, [⟨0, 32, .ct, 0, 2⟩]⟩,
   ⟨0x120f18, 1, 0, 1, 0, .run, [⟨0, 32, .ct, 0, 2⟩]⟩,
   ⟨0x120f1c, 1, 0, 1, 0, .run, [⟨0, 32, .ct, 0, 2⟩]⟩,
   ⟨0x120f20, 1, 0, 1, 0, .run, [⟨0, 32, .ct, 0, 2⟩]⟩,
   ⟨0x120f24, 1, 0, 1, 0, .run, [⟨0, 32, .ct, 0, 2⟩]⟩,
   ⟨0x120f28, 1, 0, 1, 0, .run, [⟨0, 32, .ct, 0, 2⟩]⟩,
   ⟨0x120f2c, 1, 0, 1, 0, .run, [⟨0, 32, .ct, 0, 2⟩]⟩,
   ⟨0x121000, 256, 0x20, 1, 0, .run, [⟨31, 1, .ro, 0, 2⟩, ⟨16, 8, .ro, 0, 2⟩, ⟨10, 2, .ro, 0, 2⟩, ⟨8, 2, .ro, 0, 2⟩, ⟨2, 6, .ro, 0, 2⟩, ⟨0, 2, .ro, 0, 2⟩]⟩,
   ⟨0x121004, 256, 0x20, 1, 0, .run, [⟨0, 24, .ro, 0, 2⟩]⟩,
   ⟨0x121008, 256, 0x20, 1, 0, .run, [⟨0, 32, .ro, 0, 2⟩]⟩,
   ⟨0x12100c, 256, 0x20, 1, 0, .run, [⟨0, 32, .ro, 0, 2⟩]⟩,
   ⟨0x121010, 256, 0x20, 1, 0, .run, [⟨0, 32, .ro, 0, 2⟩]⟩,
   ⟨0x121014, 256, 0x20, 1, 0, .run, [⟨0, 16, .ro, 0, 2⟩]⟩,
   ⟨0x121018, 256, 0x20, 1, 0, .run, [⟨25, 7, .ro, 0, 2⟩, ⟨18, 7, .ro, 0, 2⟩, ⟨16, 2, .ro, 0, 2⟩, ⟨8, 8, .ro, 0, 2⟩, ⟨2, 6, .ro, 0, 2⟩]⟩,
   ⟨0x12101c, 256, 0x20, 1, 0, .run, [⟨0, 32, .ro, 0, 2⟩]⟩,
   ⟨0x123000, 256, 4, 1, 0, .run, [⟨16, 16, .ct, 0, 2⟩, ⟨0, 16, .ct, 0, 2⟩]⟩,
   ⟨0x124000, 256, 0x10, 1, 0, .run, [⟨0, 20, .lk, 0x3200, 2⟩]⟩,
   ⟨0x124004, 256, 0x10, 1, 0, .run, [⟨24, 8, .lk, 0x88, 2⟩, ⟨16, 8, .lk, 0x88, 2⟩, ⟨8, 8, .lk, 0x88, 2⟩, ⟨0, 8, .lk, 0x88, 2⟩]⟩,
   ⟨0x124008, 256, 0x10, 1, 0, .run, [⟨24, 4, .lk, 3, 2⟩, ⟨16, 8, .lk, 0xa, 2⟩, ⟨8, 8, .lk, 0x88, 2⟩, ⟨0, 8, .lk, 0x88, 2⟩]⟩]

/-- Registers of block 11, CBK. -/
def regsCBK : List RegRow :=
  [
   ⟨0x140000, 1, 0, 1, 0, .run, [⟨0, 32, .ro, 0xb000100, 2⟩]⟩,
   ⟨0x140004, 1, 0, 1, 0, .run, [⟨6, 2, .lk, 0, 2⟩]⟩,
   ⟨0x140008, 1, 0, 1, 0, .run, [⟨24, 7, .ro, 0, 2⟩, ⟨0, 24, .ro, 0, 2⟩]⟩,
   ⟨0x140010, 1, 0, 1, 0, .run, [⟨13, 1, .w1c, 0, 2⟩, ⟨12, 1, .w1c, 0, 2⟩, ⟨11, 1, .w1c, 0, 2⟩, ⟨10, 1, .w1c, 0, 2⟩, ⟨9, 1, .w1c, 0, 2⟩, ⟨8, 1, .w1c, 0, 2⟩, ⟨7, 1, .w1c, 0, 2⟩, ⟨6, 1, .w1c, 0, 2⟩, ⟨5, 1, .w1c, 0, 2⟩, ⟨4, 1, .w1c, 0, 2⟩, ⟨3, 1, .w1c, 0, 2⟩, ⟨2, 1, .w1c, 0, 2⟩, ⟨1, 1, .w1c, 0, 2⟩, ⟨0, 1, .w1c, 0, 2⟩]⟩,
   ⟨0x140014, 1, 0, 1, 0, .run, [⟨13, 1, .rw, 0, 2⟩, ⟨12, 1, .rw, 0, 2⟩, ⟨11, 1, .rw, 0, 2⟩, ⟨10, 1, .rw, 0, 2⟩, ⟨9, 1, .rw, 0, 2⟩, ⟨8, 1, .rw, 0, 2⟩, ⟨7, 1, .rw, 0, 2⟩, ⟨6, 1, .rw, 0, 2⟩, ⟨5, 1, .rw, 0, 2⟩, ⟨4, 1, .rw, 0, 2⟩, ⟨3, 1, .rw, 0, 2⟩, ⟨2, 1, .rw, 0, 2⟩, ⟨1, 1, .rw, 0, 2⟩, ⟨0, 1, .rw, 0, 2⟩]⟩,
   ⟨0x140020, 1, 0, 1, 0, .run, [⟨0, 32, .ro, 0, 2⟩]⟩,
   ⟨0x140024, 1, 0, 1, 0, .run, [⟨0, 32, .ro, 0, 2⟩]⟩,
   ⟨0x140800, 8, 4, 1, 0, .hec, [⟨16, 8, .ro, 0, 2⟩, ⟨0, 9, .ro, 0, 2⟩]⟩,
   ⟨0x140e00, 64, 4, 1, 0, .run, [⟨0, 32, .ro, 0, 2⟩]⟩,
   ⟨0x140f00, 1, 0, 1, 0, .run, [⟨0, 32, .ct, 0, 2⟩]⟩,
   ⟨0x140f04, 1, 0, 1, 0, .run, [⟨0, 32, .ct, 0, 2⟩]⟩,
   ⟨0x140f08, 1, 0, 1, 0, .run, [⟨0, 32, .ct, 0, 2⟩]⟩,
   ⟨0x140f0c, 1, 0, 1, 0, .run, [⟨0, 32, .ct, 0, 2⟩]⟩,
   ⟨0x140f10, 1, 0, 1, 0, .run, [⟨0, 32, .ct, 0, 2⟩]⟩,
   ⟨0x140f14, 1, 0, 1, 0, .run, [⟨0, 32, .ct, 0, 2⟩]⟩,
   ⟨0x140f18, 1, 0, 1, 0, .run, [⟨0, 32, .ct, 0, 2⟩]⟩,
   ⟨0x140f1c, 1, 0, 1, 0, .run, [⟨0, 32, .ct, 0, 2⟩]⟩,
   ⟨0x140f20, 1, 0, 1, 0, .run, [⟨0, 32, .ct, 0, 2⟩]⟩,
   ⟨0x140f24, 1, 0, 1, 0, .run, [⟨0, 32, .ct, 0, 2⟩]⟩,
   ⟨0x140f28, 1, 0, 1, 0, .run, [⟨0, 32, .ct, 0, 2⟩]⟩,
   ⟨0x140f2c, 1, 0, 1, 0, .run, [⟨0, 32, .ct, 0, 2⟩]⟩,
   ⟨0x140f30, 1, 0, 1, 0, .run, [⟨0, 32, .ct, 0, 2⟩]⟩,
   ⟨0x141000, 24, 0x40, 1, 0, .run, [⟨19, 1, .lk, 0, 2⟩, ⟨17, 2, .lk, 0, 2⟩, ⟨16, 1, .lk, 0, 2⟩, ⟨15, 1, .lk, 0, 2⟩, ⟨10, 2, .lk, 0, 2⟩, ⟨0, 3, .lk, 0, 2⟩]⟩,
   ⟨0x141004, 24, 0x40, 1, 0, .run, [⟨2, 1, .wo, 0, 3⟩, ⟨1, 1, .rw, 0, 3⟩, ⟨0, 1, .rw, 0, 2⟩]⟩,
   ⟨0x141008, 24, 0x40, 1, 0, .run, [⟨16, 8, .ro, 0, 2⟩, ⟨3, 1, .ro, 0, 2⟩, ⟨2, 1, .ro, 0, 2⟩, ⟨1, 1, .ro, 0, 2⟩, ⟨0, 1, .ro, 0, 2⟩]⟩,
   ⟨0x14100c, 24, 0x40, 1, 0, .run, [⟨0, 26, .lk, 0xf42400, 2⟩]⟩,
   ⟨0x141010, 24, 0x40, 1, 0, .run, [⟨0, 26, .lk, 0x7d00, 2⟩]⟩,
   ⟨0x141014, 24, 0x40, 1, 0, .run, [⟨0, 26, .lk, 0x3d09000, 2⟩]⟩,
   ⟨0x141018, 24, 0x40, 1, 0, .run, [⟨16, 16, .lk, 0xa0, 2⟩, ⟨0, 16, .lk, 0xa0, 2⟩]⟩,
   ⟨0x14101c, 24, 0x40, 1, 0, .run, [⟨16, 16, .lk, 0x3e8, 2⟩, ⟨0, 16, .lk, 0x320, 2⟩]⟩,
   ⟨0x141020, 24, 0x40, 1, 0, .run, [⟨0, 26, .rw, 0xf42400, 3⟩]⟩,
   ⟨0x141024, 24, 0x40, 6, 4, .run, [⟨0, 24, .rw, 0, 3⟩]⟩,
   ⟨0x14103c, 24, 0x40, 1, 0, .run, [⟨0, 26, .ro, 0, 2⟩]⟩,
   ⟨0x144000, 256, 0x20, 1, 0, .hec, [⟨0, 24, .ro, 0, 2⟩]⟩,
   ⟨0x144004, 256, 0x20, 1, 0, .hec, [⟨0, 24, .ro, 0, 2⟩]⟩,
   ⟨0x144008, 256, 0x20, 1, 0, .hec, [⟨0, 24, .ro, 0, 2⟩]⟩,
   ⟨0x14400c, 256, 0x20, 1, 0, .hec, [⟨0, 24, .ro, 0, 2⟩]⟩,
   ⟨0x144010, 256, 0x20, 1, 0, .hec, [⟨0, 24, .ro, 0, 2⟩]⟩,
   ⟨0x144014, 256, 0x20, 1, 0, .hec, [⟨0, 24, .ro, 0, 2⟩]⟩,
   ⟨0x144018, 256, 0x20, 1, 0, .hec, [⟨30, 2, .ro, 0, 2⟩, ⟨24, 6, .ro, 0, 2⟩, ⟨16, 7, .ro, 0, 2⟩]⟩,
   ⟨0x146000, 16, 0x10, 1, 0, .run, [⟨16, 12, .lk, 0x10, 2⟩, ⟨10, 3, .lk, 0, 2⟩, ⟨9, 1, .lk, 0, 2⟩, ⟨8, 1, .lk, 0, 2⟩, ⟨0, 3, .lk, 0, 2⟩]⟩,
   ⟨0x146004, 16, 0x10, 1, 0, .run, [⟨2, 1, .rw, 0, 3⟩, ⟨1, 1, .rw, 0, 3⟩, ⟨0, 1, .rw, 0, 3⟩]⟩,
   ⟨0x146008, 16, 0x10, 1, 0, .run, [⟨24, 8, .ro, 0, 2⟩, ⟨3, 1, .ro, 0, 2⟩, ⟨2, 1, .ro, 0, 2⟩, ⟨1, 1, .ro, 0, 2⟩, ⟨0, 1, .ro, 0, 2⟩]⟩]

/-- Registers of block 12, HLM. -/
def regsHLM : List RegRow :=
  [
   ⟨0x180000, 1, 0, 1, 0, .run, [⟨0, 32, .ro, 0xc000100, 2⟩]⟩,
   ⟨0x180004, 1, 0, 1, 0, .run, [⟨16, 8, .lk, 0, 2⟩, ⟨8, 8, .lk, 0, 2⟩]⟩,
   ⟨0x180008, 1, 0, 1, 0, .hec, [⟨20, 1, .ro, 0, 2⟩, ⟨16, 4, .ro, 0, 2⟩, ⟨8, 8, .ro, 0, 2⟩, ⟨1, 1, .ro, 0, 2⟩, ⟨0, 1, .ro, 0, 2⟩]⟩,
   ⟨0x18000c, 1, 0, 1, 0, .run, [⟨0, 20, .lk, 0x3e80, 2⟩]⟩,
   ⟨0x180010, 1, 0, 1, 0, .run, [⟨9, 1, .w1c, 0, 2⟩, ⟨8, 1, .w1c, 0, 2⟩, ⟨7, 1, .w1c, 0, 2⟩, ⟨6, 1, .w1c, 0, 2⟩, ⟨5, 1, .w1c, 0, 2⟩, ⟨4, 1, .w1c, 0, 2⟩, ⟨3, 1, .w1c, 0, 2⟩, ⟨2, 1, .w1c, 0, 2⟩, ⟨1, 1, .w1c, 0, 2⟩, ⟨0, 1, .w1c, 0, 2⟩]⟩,
   ⟨0x180014, 1, 0, 1, 0, .run, [⟨9, 1, .rw, 0, 2⟩, ⟨8, 1, .rw, 0, 2⟩, ⟨7, 1, .rw, 0, 2⟩, ⟨6, 1, .rw, 0, 2⟩, ⟨5, 1, .rw, 0, 2⟩, ⟨4, 1, .rw, 0, 2⟩, ⟨3, 1, .rw, 0, 2⟩, ⟨2, 1, .rw, 0, 2⟩, ⟨1, 1, .rw, 0, 2⟩, ⟨0, 1, .rw, 0, 2⟩]⟩,
   ⟨0x180020, 1, 0, 1, 0, .hec, [⟨0, 16, .ro, 0, 2⟩]⟩,
   ⟨0x180024, 1, 0, 1, 0, .hec, [⟨0, 16, .rc, 0, 2⟩]⟩,
   ⟨0x180028, 1, 0, 1, 0, .run, [⟨0, 13, .lk, 0, 2⟩]⟩,
   ⟨0x180030, 1, 0, 1, 0, .run, [⟨0, 16, .rw, 0, 3⟩]⟩,
   ⟨0x180034, 1, 0, 1, 0, .run, [⟨16, 16, .ro, 0, 2⟩, ⟨0, 16, .ro, 0, 2⟩]⟩,
   ⟨0x180038, 1, 0, 1, 0, .run, [⟨0, 16, .wo, 0, 3⟩]⟩,
   ⟨0x18003c, 1, 0, 1, 0, .run, [⟨0, 16, .ro, 0, 2⟩]⟩,
   ⟨0x180040, 1, 0, 1, 0, .run, [⟨0, 19, .ro, 0, 2⟩]⟩,
   ⟨0x180080, 16, 8, 1, 0, .run, [⟨0, 17, .lk, 0x1ffff, 2⟩]⟩,
   ⟨0x180084, 16, 8, 1, 0, .run, [⟨0, 17, .lk, 0, 2⟩]⟩,
   ⟨0x180100, 16, 4, 1, 0, .run, [⟨31, 1, .lk, 0, 2⟩, ⟨16, 6, .lk, 1, 2⟩, ⟨0, 16, .lk, 0, 2⟩]⟩,
   ⟨0x180140, 1, 0, 1, 0, .run, [⟨0, 32, .ro, 0, 2⟩]⟩,
   ⟨0x180144, 1, 0, 1, 0, .run, [⟨0, 32, .ro, 0, 2⟩]⟩,
   ⟨0x180e00, 64, 4, 1, 0, .run, [⟨0, 32, .ro, 0, 2⟩]⟩,
   ⟨0x180f00, 1, 0, 1, 0, .run, [⟨0, 32, .ct, 0, 2⟩]⟩,
   ⟨0x180f04, 1, 0, 1, 0, .run, [⟨0, 32, .ct, 0, 2⟩]⟩,
   ⟨0x180f08, 1, 0, 1, 0, .run, [⟨0, 32, .ct, 0, 2⟩]⟩,
   ⟨0x180f0c, 1, 0, 1, 0, .run, [⟨0, 32, .ct, 0, 2⟩]⟩,
   ⟨0x180f10, 1, 0, 1, 0, .run, [⟨0, 32, .ct, 0, 2⟩]⟩,
   ⟨0x180f14, 1, 0, 1, 0, .run, [⟨0, 32, .ct, 0, 2⟩]⟩,
   ⟨0x180f18, 1, 0, 1, 0, .run, [⟨0, 32, .ct, 0, 2⟩]⟩,
   ⟨0x180f1c, 1, 0, 1, 0, .run, [⟨0, 32, .ct, 0, 2⟩]⟩,
   ⟨0x180f20, 1, 0, 1, 0, .run, [⟨0, 32, .ct, 0, 2⟩]⟩,
   ⟨0x180f24, 1, 0, 1, 0, .run, [⟨0, 32, .ct, 0, 2⟩]⟩]

/-- Registers of block 13, GWY. -/
def regsGWY : List RegRow :=
  [
   ⟨0x1a0000, 1, 0, 1, 0, .run, [⟨0, 32, .ro, 0xd000100, 2⟩]⟩,
   ⟨0x1a0010, 1, 0, 1, 0, .run, [⟨3, 1, .w1c, 0, 2⟩, ⟨2, 1, .w1c, 0, 2⟩, ⟨1, 1, .w1c, 0, 2⟩, ⟨0, 1, .w1c, 0, 2⟩]⟩,
   ⟨0x1a0014, 1, 0, 1, 0, .run, [⟨3, 1, .rw, 0, 2⟩, ⟨2, 1, .rw, 0, 2⟩, ⟨1, 1, .rw, 0, 2⟩, ⟨0, 1, .rw, 0, 2⟩]⟩,
   ⟨0x1a0020, 1, 0, 1, 0, .run, [⟨0, 32, .rw, 0, 2⟩]⟩,
   ⟨0x1a0024, 1, 0, 1, 0, .run, [⟨0, 32, .ro, 0, 2⟩]⟩,
   ⟨0x1a0100, 32, 0x40, 1, 0, .run, [⟨31, 1, .lk, 0, 2⟩, ⟨30, 1, .lk, 0, 2⟩, ⟨0, 19, .lk, 0, 2⟩]⟩,
   ⟨0x1a0104, 32, 0x40, 1, 0, .run, [⟨0, 16, .lk, 0, 2⟩]⟩,
   ⟨0x1a0108, 32, 0x40, 1, 0, .run, [⟨0, 32, .rw, 0, 2⟩]⟩,
   ⟨0x1a010c, 32, 0x40, 1, 0, .run, [⟨0, 32, .lk, 0x3f800000, 2⟩]⟩,
   ⟨0x1a0110, 32, 0x40, 1, 0, .run, [⟨0, 32, .lk, 0x3f800000, 2⟩]⟩,
   ⟨0x1a0114, 32, 0x40, 1, 0, .run, [⟨0, 32, .lk, 0x3f800000, 2⟩]⟩,
   ⟨0x1a0118, 32, 0x40, 1, 0, .run, [⟨0, 32, .lk, 0, 2⟩]⟩,
   ⟨0x1a011c, 32, 0x40, 1, 0, .run, [⟨0, 32, .lk, 0, 2⟩]⟩,
   ⟨0x1a0120, 32, 0x40, 1, 0, .run, [⟨0, 32, .lk, 0, 2⟩]⟩,
   ⟨0x1a0124, 32, 0x40, 1, 0, .run, [⟨0, 32, .wo, 0, 2⟩]⟩,
   ⟨0x1a0128, 32, 0x40, 1, 0, .run, [⟨0, 32, .ro, 0, 2⟩]⟩,
   ⟨0x1a012c, 32, 0x40, 1, 0, .run, [⟨0, 32, .ro, 0, 2⟩]⟩,
   ⟨0x1a0130, 32, 0x40, 1, 0, .run, [⟨0, 32, .ro, 0, 2⟩]⟩,
   ⟨0x1a0134, 32, 0x40, 1, 0, .run, [⟨3, 1, .ro, 0, 2⟩, ⟨2, 1, .ro, 0, 2⟩, ⟨1, 1, .ro, 0, 2⟩, ⟨0, 1, .ro, 0, 2⟩]⟩,
   ⟨0x1a0e00, 64, 4, 1, 0, .run, [⟨0, 32, .ro, 0, 2⟩]⟩,
   ⟨0x1a0f00, 32, 4, 1, 0, .run, [⟨0, 32, .ct, 0, 2⟩]⟩,
   ⟨0x1a0f80, 1, 0, 1, 0, .run, [⟨0, 32, .ct, 0, 2⟩]⟩,
   ⟨0x1a0f84, 1, 0, 1, 0, .run, [⟨0, 32, .ct, 0, 2⟩]⟩,
   ⟨0x1a0f88, 1, 0, 1, 0, .run, [⟨0, 32, .ct, 0, 2⟩]⟩]

/-- Registers of block 14, BLS. -/
def regsBLS : List RegRow :=
  [
   ⟨0x1b0000, 1, 0, 1, 0, .run, [⟨0, 32, .ro, 0xe000100, 2⟩]⟩,
   ⟨0x1b0004, 1, 0, 1, 0, .run, [⟨0, 1, .rw, 0, 2⟩]⟩,
   ⟨0x1b0008, 1, 0, 1, 0, .hec, [⟨8, 8, .ro, 0, 2⟩, ⟨0, 8, .ro, 0, 2⟩]⟩,
   ⟨0x1b0010, 1, 0, 1, 0, .run, [⟨8, 1, .w1c, 0, 2⟩, ⟨7, 1, .w1c, 0, 2⟩, ⟨6, 1, .w1c, 0, 2⟩, ⟨5, 1, .w1c, 0, 2⟩, ⟨4, 1, .w1c, 0, 2⟩, ⟨3, 1, .w1c, 0, 2⟩, ⟨2, 1, .w1c, 0, 2⟩, ⟨1, 1, .w1c, 0, 2⟩, ⟨0, 1, .w1c, 0, 2⟩]⟩,
   ⟨0x1b0014, 1, 0, 1, 0, .run, [⟨8, 1, .rw, 0, 2⟩, ⟨7, 1, .rw, 0, 2⟩, ⟨6, 1, .rw, 0, 2⟩, ⟨5, 1, .rw, 0, 2⟩, ⟨4, 1, .rw, 0, 2⟩, ⟨3, 1, .rw, 0, 2⟩, ⟨2, 1, .rw, 0, 2⟩, ⟨1, 1, .rw, 0, 2⟩, ⟨0, 1, .rw, 0, 2⟩]⟩,
   ⟨0x1b0020, 1, 0, 1, 0, .run, [⟨28, 4, .wo, 0, 2⟩, ⟨0, 8, .wo, 0, 2⟩]⟩,
   ⟨0x1b0024, 1, 0, 1, 0, .run, [⟨31, 1, .ro, 0, 2⟩, ⟨24, 4, .ro, 0, 2⟩, ⟨0, 8, .ro, 0, 2⟩]⟩,
   ⟨0x1b0100, 8, 0x40, 1, 0, .run, [⟨31, 1, .lk, 0, 2⟩, ⟨30, 1, .lk, 0, 2⟩, ⟨29, 1, .lk, 0, 2⟩, ⟨16, 8, .lk, 0, 2⟩, ⟨8, 8, .lk, 0, 2⟩, ⟨0, 8, .lk, 0, 2⟩]⟩,
   ⟨0x1b0104, 8, 0x40, 1, 0, .run, [⟨0, 19, .lk, 0x60900, 2⟩]⟩,
   ⟨0x1b0108, 8, 0x40, 1, 0, .run, [⟨0, 32, .lk, 0x3f800000, 2⟩]⟩,
   ⟨0x1b010c, 8, 0x40, 1, 0, .run, [⟨0, 32, .lk, 0, 2⟩]⟩,
   ⟨0x1b0110, 8, 0x40, 1, 0, .run, [⟨0, 32, .lk, 0, 2⟩]⟩,
   ⟨0x1b0114, 8, 0x40, 1, 0, .run, [⟨16, 16, .lk, 0, 2⟩, ⟨0, 16, .lk, 0, 2⟩]⟩,
   ⟨0x1b0118, 8, 0x40, 1, 0, .run, [⟨0, 32, .lk, 0, 2⟩]⟩,
   ⟨0x1b011c, 8, 0x40, 1, 0, .run, [⟨0, 32, .lk, 0, 2⟩]⟩,
   ⟨0x1b0120, 8, 0x40, 1, 0, .run, [⟨0, 32, .lk, 0, 2⟩]⟩,
   ⟨0x1b0124, 8, 0x40, 1, 0, .run, [⟨0, 32, .lk, 0, 2⟩]⟩,
   ⟨0x1b0128, 8, 0x40, 1, 0, .run, [⟨24, 8, .lk, 1, 2⟩, ⟨0, 16, .lk, 0x3e8, 2⟩]⟩,
   ⟨0x1b012c, 8, 0x40, 1, 0, .run, [⟨0, 32, .lk, 0, 2⟩]⟩,
   ⟨0x1b0130, 8, 0x40, 1, 0, .hec, [⟨24, 8, .ro, 0, 2⟩, ⟨16, 8, .ro, 0, 2⟩, ⟨8, 8, .ro, 0, 2⟩, ⟨3, 1, .ro, 0, 2⟩, ⟨2, 1, .ro, 0, 2⟩, ⟨1, 1, .ro, 0, 2⟩, ⟨0, 1, .ro, 0, 2⟩]⟩,
   ⟨0x1b0134, 8, 0x40, 1, 0, .hec, [⟨0, 32, .ro, 0, 2⟩]⟩,
   ⟨0x1b0138, 8, 0x40, 1, 0, .hec, [⟨0, 32, .ro, 0, 2⟩]⟩,
   ⟨0x1b013c, 8, 0x40, 1, 0, .hec, [⟨0, 32, .ro, 0, 2⟩]⟩,
   ⟨0x1b0800, 6, 0x100, 64, 4, .hec, [⟨31, 1, .ro, 0, 2⟩, ⟨16, 8, .ro, 0, 2⟩, ⟨15, 1, .ro, 0, 2⟩, ⟨0, 8, .ro, 0, 2⟩]⟩,
   ⟨0x1b0e00, 64, 4, 1, 0, .run, [⟨0, 32, .ro, 0, 2⟩]⟩,
   ⟨0x1b0f00, 1, 0, 1, 0, .run, [⟨0, 32, .ct, 0, 2⟩]⟩,
   ⟨0x1b0f04, 1, 0, 1, 0, .run, [⟨0, 32, .ct, 0, 2⟩]⟩,
   ⟨0x1b0f08, 1, 0, 1, 0, .run, [⟨0, 32, .ct, 0, 2⟩]⟩,
   ⟨0x1b0f0c, 1, 0, 1, 0, .run, [⟨0, 32, .ct, 0, 2⟩]⟩,
   ⟨0x1b0f10, 1, 0, 1, 0, .run, [⟨0, 32, .ct, 0, 2⟩]⟩,
   ⟨0x1b0f14, 1, 0, 1, 0, .run, [⟨0, 32, .ct, 0, 2⟩]⟩,
   ⟨0x1b0f18, 1, 0, 1, 0, .run, [⟨0, 32, .ct, 0, 2⟩]⟩,
   ⟨0x1b0f1c, 1, 0, 1, 0, .run, [⟨0, 32, .ct, 0, 2⟩]⟩,
   ⟨0x1b0f20, 1, 0, 1, 0, .run, [⟨0, 32, .ct, 0, 2⟩]⟩,
   ⟨0x1b0f24, 1, 0, 1, 0, .run, [⟨0, 32, .ct, 0, 2⟩]⟩,
   ⟨0x1b1000, 256, 0x10, 1, 0, .run, [⟨15, 1, .lk, 0, 2⟩, ⟨12, 3, .lk, 0, 2⟩, ⟨8, 2, .lk, 0, 2⟩, ⟨0, 1, .lk, 0, 2⟩]⟩,
   ⟨0x1b1004, 256, 0x10, 1, 0, .hec, [⟨24, 8, .ro, 0, 2⟩, ⟨16, 8, .ro, 0xff, 2⟩, ⟨5, 3, .ro, 0, 2⟩, ⟨4, 1, .ro, 0, 2⟩, ⟨0, 3, .ro, 0, 2⟩]⟩,
   ⟨0x1b1008, 256, 0x10, 1, 0, .hec, [⟨0, 24, .ro, 0, 2⟩]⟩,
   ⟨0x1b100c, 256, 0x10, 1, 0, .hec, [⟨0, 24, .ro, 0, 2⟩]⟩]

/-- Registers of block 15, MOD. -/
def regsMOD : List RegRow :=
  [
   ⟨0x1c0000, 1, 0, 1, 0, .run, [⟨0, 32, .ro, 0xf000100, 2⟩]⟩,
   ⟨0x1c0004, 1, 0, 1, 0, .run, [⟨16, 4, .lk, 0, 2⟩, ⟨8, 8, .lk, 0x28, 2⟩, ⟨1, 1, .lk, 0, 2⟩, ⟨0, 1, .lk, 0, 2⟩]⟩,
   ⟨0x1c0008, 1, 0, 1, 0, .run, [⟨1, 1, .ro, 0, 2⟩, ⟨0, 1, .ro, 0, 2⟩]⟩,
   ⟨0x1c0010, 1, 0, 1, 0, .run, [⟨4, 1, .w1c, 0, 2⟩, ⟨3, 1, .w1c, 0, 2⟩, ⟨2, 1, .w1c, 0, 2⟩, ⟨1, 1, .w1c, 0, 2⟩, ⟨0, 1, .w1c, 0, 2⟩]⟩,
   ⟨0x1c0014, 1, 0, 1, 0, .run, [⟨4, 1, .rw, 0, 2⟩, ⟨3, 1, .rw, 0, 2⟩, ⟨2, 1, .rw, 0, 2⟩, ⟨1, 1, .rw, 0, 2⟩, ⟨0, 1, .rw, 0, 2⟩]⟩,
   ⟨0x1c0020, 1, 0, 1, 0, .hec, [⟨0, 32, .ro, 0, 2⟩]⟩,
   ⟨0x1c0024, 1, 0, 1, 0, .hec, [⟨0, 16, .ro, 0, 2⟩]⟩,
   ⟨0x1c0028, 1, 0, 1, 0, .hec, [⟨0, 32, .ro, 0, 2⟩]⟩,
   ⟨0x1c002c, 1, 0, 1, 0, .run, [⟨0, 25, .ro, 0, 2⟩]⟩,
   ⟨0x1c0030, 1, 0, 1, 0, .run, [⟨0, 16, .lk, 0, 2⟩]⟩,
   ⟨0x1c0034, 1, 0, 1, 0, .run, [⟨8, 8, .lk, 4, 2⟩, ⟨0, 4, .lk, 0, 2⟩]⟩,
   ⟨0x1c0038, 1, 0, 1, 0, .run, [⟨0, 32, .lk, 0x6666666, 2⟩]⟩,
   ⟨0x1c0040, 1, 0, 1, 0, .mdc, [⟨0, 32, .ro, 0, 2⟩]⟩,
   ⟨0x1c0044, 1, 0, 1, 0, .mdc, [⟨0, 9, .ro, 0, 2⟩]⟩,
   ⟨0x1c0100, 32, 0x20, 1, 0, .run, [⟨31, 1, .lk, 0, 2⟩, ⟨30, 1, .lk, 0, 2⟩, ⟨16, 7, .lk, 0x10, 2⟩, ⟨0, 12, .lk, 0x400, 2⟩]⟩,
   ⟨0x1c0104, 32, 0x20, 1, 0, .run, [⟨0, 9, .lk, 0x80, 2⟩]⟩,
   ⟨0x1c0108, 32, 0x20, 1, 0, .run, [⟨0, 32, .lk, 0x3f800000, 2⟩]⟩,
   ⟨0x1c010c, 32, 0x20, 1, 0, .run, [⟨0, 32, .lk, 0, 2⟩]⟩,
   ⟨0x1c0110, 32, 0x20, 1, 0, .run, [⟨0, 32, .lk, 0x3f800000, 2⟩]⟩,
   ⟨0x1c0114, 32, 0x20, 1, 0, .hec, [⟨0, 32, .ro, 0, 2⟩]⟩,
   ⟨0x1c0118, 32, 0x20, 1, 0, .hec, [⟨16, 16, .ro, 0, 2⟩, ⟨1, 1, .ro, 0, 2⟩, ⟨0, 1, .ro, 0, 2⟩]⟩,
   ⟨0x1c0e00, 64, 4, 1, 0, .run, [⟨0, 32, .ro, 0, 2⟩]⟩,
   ⟨0x1c0f00, 1, 0, 1, 0, .run, [⟨0, 32, .ct, 0, 2⟩]⟩,
   ⟨0x1c0f04, 1, 0, 1, 0, .run, [⟨0, 32, .ct, 0, 2⟩]⟩,
   ⟨0x1c0f08, 1, 0, 1, 0, .run, [⟨0, 32, .ct, 0, 2⟩]⟩,
   ⟨0x1c0f0c, 1, 0, 1, 0, .run, [⟨0, 32, .ct, 0, 2⟩]⟩,
   ⟨0x1c0f10, 1, 0, 1, 0, .run, [⟨0, 32, .ct, 0, 2⟩]⟩]

/-- Registers of block 16, SAR. -/
def regsSAR : List RegRow :=
  [
   ⟨0x1d0000, 1, 0, 1, 0, .run, [⟨0, 32, .ro, 0x10000100, 2⟩]⟩,
   ⟨0x1d0004, 1, 0, 1, 0, .run, [⟨16, 10, .lk, 0x64, 2⟩, ⟨1, 1, .lk, 1, 2⟩, ⟨0, 1, .lk, 1, 2⟩]⟩,
   ⟨0x1d0008, 1, 0, 1, 0, .run, [⟨12, 3, .ro, 7, 2⟩, ⟨8, 3, .ro, 7, 2⟩, ⟨0, 5, .ro, 0, 2⟩]⟩,
   ⟨0x1d0010, 1, 0, 1, 0, .run, [⟨3, 1, .w1c, 0, 2⟩, ⟨2, 1, .w1c, 0, 2⟩, ⟨1, 1, .w1c, 0, 2⟩, ⟨0, 1, .w1c, 0, 2⟩]⟩,
   ⟨0x1d0014, 1, 0, 1, 0, .run, [⟨3, 1, .rw, 0, 2⟩, ⟨2, 1, .rw, 0, 2⟩, ⟨1, 1, .rw, 0, 2⟩, ⟨0, 1, .rw, 0, 2⟩]⟩,
   ⟨0x1d0020, 1, 0, 1, 0, .run, [⟨0, 6, .wo, 0, 2⟩]⟩,
   ⟨0x1d0024, 1, 0, 1, 0, .run, [⟨31, 1, .ro, 0, 2⟩, ⟨24, 4, .ro, 0, 2⟩, ⟨0, 6, .ro, 0, 2⟩]⟩,
   ⟨0x1d0100, 5, 0x40, 1, 0, .run, [⟨0, 32, .lk, 0, 2⟩]⟩,
   ⟨0x1d0104, 5, 0x40, 1, 0, .run, [⟨0, 32, .lk, 0, 2⟩]⟩,
   ⟨0x1d0108, 5, 0x40, 1, 0, .run, [⟨0, 32, .lk, 0, 2⟩]⟩,
   ⟨0x1d010c, 5, 0x40, 1, 0, .run, [⟨0, 32, .lk, 0, 2⟩]⟩,
   ⟨0x1d0110, 5, 0x40, 1, 0, .run, [⟨8, 5, .lk, 0, 2⟩, ⟨0, 5, .lk, 0, 2⟩]⟩,
   ⟨0x1d0114, 5, 0x40, 1, 0, .run, [⟨0, 32, .ro, 0, 2⟩]⟩,
   ⟨0x1d0118, 5, 0x40, 1, 0, .run, [⟨0, 32, .ro, 0x3f800000, 2⟩]⟩,
   ⟨0x1d011c, 5, 0x40, 1, 0, .run, [⟨2, 1, .ro, 0, 2⟩, ⟨1, 1, .ro, 0, 2⟩, ⟨0, 1, .ro, 0, 2⟩]⟩,
   ⟨0x1d0800, 64, 0x10, 1, 0, .run, [⟨0, 32, .lk, 0x3f800000, 2⟩]⟩,
   ⟨0x1d0804, 64, 0x10, 1, 0, .run, [⟨0, 32, .lk, 0, 2⟩]⟩,
   ⟨0x1d0808, 64, 0x10, 1, 0, .run, [⟨22, 2, .ro, 0, 2⟩, ⟨21, 1, .ro, 0, 2⟩, ⟨16, 4, .ro, 0, 2⟩, ⟨0, 16, .ro, 0, 2⟩]⟩,
   ⟨0x1d080c, 64, 0x10, 1, 0, .run, [⟨0, 32, .ro, 0, 2⟩]⟩,
   ⟨0x1d0e00, 64, 4, 1, 0, .run, [⟨0, 32, .ro, 0, 2⟩]⟩,
   ⟨0x1d0f00, 1, 0, 1, 0, .run, [⟨0, 32, .ct, 0, 2⟩]⟩,
   ⟨0x1d0f04, 1, 0, 1, 0, .run, [⟨0, 32, .ct, 0, 2⟩]⟩,
   ⟨0x1d0f08, 1, 0, 1, 0, .run, [⟨0, 32, .ct, 0, 2⟩]⟩]

/-- Registers of block 17, WCM. -/
def regsWCM : List RegRow :=
  [
   ⟨0x1e0000, 1, 0, 1, 0, .run, [⟨0, 32, .ro, 0x11000100, 2⟩]⟩,
   ⟨0x1e0010, 1, 0, 1, 0, .run, [⟨1, 1, .w1c, 0, 2⟩, ⟨0, 1, .w1c, 0, 2⟩]⟩,
   ⟨0x1e0014, 1, 0, 1, 0, .run, [⟨1, 1, .rw, 0, 2⟩, ⟨0, 1, .rw, 0, 2⟩]⟩,
   ⟨0x1e0020, 1, 0, 1, 0, .run, [⟨0, 24, .ro, 0, 2⟩]⟩,
   ⟨0x1e0024, 1, 0, 1, 0, .run, [⟨0, 24, .w1c, 0, 2⟩]⟩,
   ⟨0x1e0028, 1, 0, 1, 0, .run, [⟨0, 24, .ro, 0, 2⟩]⟩,
   ⟨0x1e0100, 24, 0x10, 1, 0, .run, [⟨31, 1, .lk, 0, 2⟩, ⟨30, 1, .lk, 0, 2⟩, ⟨29, 1, .lk, 0, 2⟩, ⟨0, 2, .lk, 3, 2⟩]⟩,
   ⟨0x1e0104, 24, 0x10, 1, 0, .run, [⟨16, 10, .rw, 0x3ff, 3⟩, ⟨0, 10, .rw, 0, 3⟩]⟩,
   ⟨0x1e0108, 24, 0x10, 1, 0, .run, [⟨16, 10, .ro, 0x3ff, 2⟩, ⟨0, 10, .ro, 0, 2⟩]⟩,
   ⟨0x1e010c, 24, 0x10, 1, 0, .run, [⟨2, 1, .ro, 0, 2⟩, ⟨1, 1, .ro, 0, 2⟩, ⟨0, 1, .ro, 0, 2⟩]⟩,
   ⟨0x1e0e00, 64, 4, 1, 0, .run, [⟨0, 32, .ro, 0, 2⟩]⟩,
   ⟨0x1e0f00, 24, 4, 1, 0, .run, [⟨0, 32, .ct, 0, 2⟩]⟩,
   ⟨0x1e0f60, 1, 0, 1, 0, .run, [⟨0, 32, .ct, 0, 2⟩]⟩]

/-- Registers of block 18, TRP. -/
def regsTRP : List RegRow :=
  [
   ⟨0x1f0000, 1, 0, 1, 0, .run, [⟨0, 32, .ro, 0x12000100, 2⟩]⟩,
   ⟨0x1f0004, 1, 0, 1, 0, .run, [⟨0, 8, .lk, 0, 2⟩]⟩,
   ⟨0x1f0008, 1, 0, 1, 0, .run, [⟨16, 16, .ro, 0, 2⟩, ⟨0, 16, .ro, 0xffff, 2⟩]⟩,
   ⟨0x1f0010, 1, 0, 1, 0, .run, [⟨5, 1, .w1c, 0, 2⟩, ⟨4, 1, .w1c, 0, 2⟩, ⟨3, 1, .w1c, 0, 2⟩, ⟨2, 1, .w1c, 0, 2⟩, ⟨1, 1, .w1c, 0, 2⟩, ⟨0, 1, .w1c, 0, 2⟩]⟩,
   ⟨0x1f0014, 1, 0, 1, 0, .run, [⟨5, 1, .rw, 0, 2⟩, ⟨4, 1, .rw, 0, 2⟩, ⟨3, 1, .rw, 0, 2⟩, ⟨2, 1, .rw, 0, 2⟩, ⟨1, 1, .rw, 0, 2⟩, ⟨0, 1, .rw, 0, 2⟩]⟩,
   ⟨0x1f0020, 1, 0, 1, 0, .run, [⟨0, 32, .ro, 0, 2⟩]⟩,
   ⟨0x1f0024, 1, 0, 1, 0, .run, [⟨0, 32, .ro, 0, 2⟩]⟩,
   ⟨0x1f0028, 1, 0, 1, 0, .run, [⟨0, 32, .w1c, 0, 2⟩]⟩,
   ⟨0x1f002c, 1, 0, 1, 0, .run, [⟨0, 32, .w1c, 0, 2⟩]⟩,
   ⟨0x1f0030, 1, 0, 1, 0, .run, [⟨0, 32, .lk, 0, 2⟩]⟩,
   ⟨0x1f0034, 1, 0, 1, 0, .run, [⟨0, 32, .lk, 0x20000000, 2⟩]⟩,
   ⟨0x1f0040, 1, 0, 1, 0, .run, [⟨0, 16, .wo, 0, 2⟩]⟩,
   ⟨0x1f0044, 1, 0, 1, 0, .run, [⟨16, 16, .ro, 0, 2⟩, ⟨0, 16, .ro, 0, 2⟩]⟩,
   ⟨0x1f0080, 16, 4, 1, 0, .run, [⟨31, 1, .lk, 0, 2⟩, ⟨24, 2, .lk, 0, 2⟩, ⟨0, 10, .lk, 0x10, 2⟩]⟩,
   ⟨0x1f00c0, 8, 4, 1, 0, .run, [⟨24, 8, .ro, 0, 2⟩, ⟨0, 7, .lk, 0, 2⟩]⟩,
   ⟨0x1f0100, 61, 4, 1, 0, .run, [⟨0, 16, .lk, 0, 2⟩]⟩,
   ⟨0x1f01f4, 1, 0, 1, 0, .run, [⟨0, 16, .lk, 0xffff, 2⟩]⟩,
   ⟨0x1f01f8, 2, 4, 1, 0, .run, [⟨0, 16, .lk, 0, 2⟩]⟩,
   ⟨0x1f0200, 16, 0x10, 1, 0, .run, [⟨16, 7, .ro, 0x7f, 2⟩]⟩,
   ⟨0x1f0204, 16, 0x10, 1, 0, .run, [⟨0, 32, .ro, 0, 2⟩]⟩,
   ⟨0x1f0208, 16, 0x10, 1, 0, .run, [⟨0, 32, .ro, 0, 2⟩]⟩,
   ⟨0x1f020c, 16, 0x10, 1, 0, .run, [⟨31, 1, .lk, 0, 2⟩, ⟨24, 4, .lk, 1, 2⟩, ⟨20, 4, .ro, 0, 2⟩, ⟨19, 1, .ro, 0, 2⟩, ⟨18, 1, .ro, 0, 2⟩, ⟨0, 16, .lk, 0x3e8, 2⟩]⟩,
   ⟨0x1f0300, 16, 4, 1, 0, .run, [⟨0, 16, .lk, 0, 2⟩]⟩,
   ⟨0x1f0e00, 64, 4, 1, 0, .run, [⟨0, 32, .ro, 0, 2⟩]⟩,
   ⟨0x1f0f00, 16, 4, 1, 0, .run, [⟨0, 32, .ct, 0, 2⟩]⟩,
   ⟨0x1f0f40, 1, 0, 1, 0, .run, [⟨0, 32, .ct, 0, 2⟩]⟩,
   ⟨0x1f0f44, 1, 0, 1, 0, .run, [⟨0, 32, .ct, 0, 2⟩]⟩,
   ⟨0x1f0f48, 1, 0, 1, 0, .run, [⟨0, 32, .ct, 0, 2⟩]⟩,
   ⟨0x1f2000, 256, 0x20, 7, 4, .run, [⟨0, 16, .lk, 0, 2⟩]⟩]

/-- Registers of block 19, SAF. -/
def regsSAF : List RegRow :=
  [
   ⟨0x400000, 1, 0, 1, 0, .aoc, [⟨0, 32, .ro, 0x13000100, 2⟩]⟩,
   ⟨0x400004, 1, 0, 1, 0, .aoc, [⟨1, 1, .wo, 0, 3⟩, ⟨0, 1, .wo, 0, 2⟩]⟩,
   ⟨0x400008, 1, 0, 1, 0, .aoc, [⟨24, 8, .ro, 0, 2⟩, ⟨10, 1, .ro, 0, 2⟩, ⟨9, 1, .ro, 0, 2⟩, ⟨8, 1, .ro, 0, 2⟩, ⟨7, 1, .ro, 0, 2⟩, ⟨6, 1, .ro, 0, 2⟩, ⟨5, 1, .ro, 0, 2⟩, ⟨4, 1, .ro, 0, 2⟩, ⟨0, 2, .ro, 0, 2⟩]⟩,
   ⟨0x400010, 1, 0, 1, 0, .aoc, [⟨7, 1, .w1c, 0, 2⟩, ⟨6, 1, .w1c, 0, 2⟩, ⟨5, 1, .w1c, 0, 2⟩, ⟨4, 1, .w1c, 0, 2⟩, ⟨3, 1, .w1c, 0, 2⟩, ⟨2, 1, .w1c, 0, 2⟩, ⟨1, 1, .w1c, 0, 2⟩, ⟨0, 1, .w1c, 0, 2⟩]⟩,
   ⟨0x400014, 1, 0, 1, 0, .aoc, [⟨7, 1, .rw, 0, 2⟩, ⟨6, 1, .rw, 0, 2⟩, ⟨5, 1, .rw, 0, 2⟩, ⟨4, 1, .rw, 0, 2⟩, ⟨3, 1, .rw, 0, 2⟩, ⟨2, 1, .rw, 0, 2⟩, ⟨1, 1, .rw, 0, 2⟩, ⟨0, 1, .rw, 0, 2⟩]⟩,
   ⟨0x400020, 1, 0, 1, 0, .aoc, [⟨0, 24, .ro, 0xffffff, 2⟩]⟩,
   ⟨0x400024, 1, 0, 1, 0, .aoc, [⟨0, 16, .ro, 0, 2⟩]⟩,
   ⟨0x400028, 1, 0, 1, 0, .aoc, [⟨16, 16, .ro, 0, 2⟩, ⟨0, 16, .ro, 0, 2⟩]⟩,
   ⟨0x40002c, 1, 0, 1, 0, .aoc, [⟨31, 1, .ro, 0, 2⟩, ⟨24, 4, .ro, 0, 2⟩, ⟨0, 13, .ro, 0, 2⟩]⟩,
   ⟨0x400030, 1, 0, 1, 0, .aoc, [⟨0, 32, .ro, 0, 2⟩]⟩,
   ⟨0x400034, 1, 0, 1, 0, .aoc, [⟨8, 1, .ro, 0, 2⟩, ⟨0, 8, .ro, 0, 2⟩]⟩,
   ⟨0x400e00, 64, 4, 1, 0, .aoc, [⟨0, 32, .ro, 0, 2⟩]⟩,
   ⟨0x400f00, 1, 0, 1, 0, .aoc, [⟨0, 32, .ct, 0, 2⟩]⟩,
   ⟨0x400f04, 1, 0, 1, 0, .aoc, [⟨0, 32, .ct, 0, 2⟩]⟩,
   ⟨0x400f08, 1, 0, 1, 0, .aoc, [⟨0, 32, .ct, 0, 2⟩]⟩,
   ⟨0x400f0c, 1, 0, 1, 0, .aoc, [⟨0, 32, .ct, 0, 2⟩]⟩,
   ⟨0x400f10, 1, 0, 1, 0, .aoc, [⟨0, 32, .ct, 0, 2⟩]⟩]

/-- Registers of block 20, MTR. -/
def regsMTR : List RegRow :=
  [
   ⟨0x410000, 1, 0, 1, 0, .run, [⟨0, 32, .ro, 0x14000100, 2⟩]⟩,
   ⟨0x410004, 1, 0, 1, 0, .run, [⟨0, 1, .lk, 0, 2⟩]⟩,
   ⟨0x410008, 1, 0, 1, 0, .run, [⟨8, 2, .ro, 0, 2⟩, ⟨0, 2, .ro, 0, 2⟩]⟩,
   ⟨0x410010, 1, 0, 1, 0, .run, [⟨7, 1, .w1c, 0, 2⟩, ⟨6, 1, .w1c, 0, 2⟩, ⟨5, 1, .w1c, 0, 2⟩, ⟨4, 1, .w1c, 0, 2⟩, ⟨3, 1, .w1c, 0, 2⟩, ⟨2, 1, .w1c, 0, 2⟩, ⟨1, 1, .w1c, 0, 2⟩, ⟨0, 1, .w1c, 0, 2⟩]⟩,
   ⟨0x410014, 1, 0, 1, 0, .run, [⟨7, 1, .rw, 0, 2⟩, ⟨6, 1, .rw, 0, 2⟩, ⟨5, 1, .rw, 0, 2⟩, ⟨4, 1, .rw, 0, 2⟩, ⟨3, 1, .rw, 0, 2⟩, ⟨2, 1, .rw, 0, 2⟩, ⟨1, 1, .rw, 0, 2⟩, ⟨0, 1, .rw, 0, 2⟩]⟩,
   ⟨0x410020, 1, 0, 1, 0, .run, [⟨0, 32, .wo, 0, 3⟩]⟩,
   ⟨0x410100, 2, 0x100, 1, 0, .run, [⟨31, 1, .lk, 0, 2⟩, ⟨30, 1, .lk, 0, 2⟩, ⟨28, 2, .lk, 0, 2⟩, ⟨27, 1, .lk, 0, 2⟩, ⟨26, 1, .lk, 0, 2⟩, ⟨18, 6, .lk, 0xa, 2⟩, ⟨0, 16, .lk, 0x28, 2⟩]⟩,
   ⟨0x410104, 2, 0x100, 1, 0, .run, [⟨0, 32, .lk, 0, 2⟩]⟩,
   ⟨0x410108, 2, 0x100, 1, 0, .run, [⟨0, 32, .lk, 0, 2⟩]⟩,
   ⟨0x410110, 2, 0x100, 3, 4, .run, [⟨23, 9, .lk, 0, 2⟩, ⟨8, 8, .lk, 0, 2⟩, ⟨0, 8, .lk, 0, 2⟩]⟩,
   ⟨0x410120, 2, 0x100, 1, 0, .run, [⟨0, 16, .ro, 0, 2⟩]⟩,
   ⟨0x410124, 2, 0x100, 1, 0, .run, [⟨0, 32, .ro, 0, 2⟩]⟩,
   ⟨0x410128, 2, 0x100, 1, 0, .run, [⟨6, 1, .ro, 0, 2⟩, ⟨4, 2, .ro, 0, 2⟩, ⟨0, 3, .ro, 0, 2⟩]⟩,
   ⟨0x410140, 2, 0x100, 6, 4, .run, [⟨0, 32, .ro, 0, 2⟩]⟩,
   ⟨0x410160, 2, 0x100, 6, 4, .run, [⟨0, 32, .ro, 0, 2⟩]⟩,
   ⟨0x410180, 2, 0x100, 6, 4, .run, [⟨0, 32, .ro, 0, 2⟩]⟩,
   ⟨0x4101a0, 2, 0x100, 6, 4, .run, [⟨0, 32, .ro, 0, 2⟩]⟩,
   ⟨0x410300, 2, 0x40, 1, 0, .run, [⟨26, 6, .lk, 0xf, 2⟩, ⟨24, 2, .lk, 3, 2⟩, ⟨0, 12, .lk, 0, 2⟩]⟩,
   ⟨0x410304, 2, 0x40, 1, 0, .run, [⟨16, 16, .ro, 0, 2⟩, ⟨5, 1, .ro, 0, 2⟩, ⟨4, 1, .ro, 0, 2⟩, ⟨3, 1, .ro, 0, 2⟩, ⟨2, 1, .ro, 0, 2⟩, ⟨1, 1, .ro, 0, 2⟩, ⟨0, 1, .ro, 0, 2⟩]⟩,
   ⟨0x410308, 2, 0x40, 1, 0, .run, [⟨0, 32, .ro, 0, 2⟩]⟩,
   ⟨0x41030c, 2, 0x40, 1, 0, .run, [⟨0, 32, .ro, 0, 2⟩]⟩,
   ⟨0x410310, 2, 0x40, 1, 0, .run, [⟨0, 32, .ro, 0, 2⟩]⟩,
   ⟨0x410314, 2, 0x40, 1, 0, .run, [⟨0, 32, .ro, 0, 2⟩]⟩,
   ⟨0x410318, 2, 0x40, 1, 0, .run, [⟨0, 32, .ro, 0, 2⟩]⟩,
   ⟨0x41031c, 2, 0x40, 1, 0, .run, [⟨0, 16, .ro, 0, 2⟩]⟩,
   ⟨0x410380, 4, 4, 1, 0, .run, [⟨31, 1, .lk, 0, 2⟩, ⟨26, 5, .lk, 0, 2⟩, ⟨16, 8, .lk, 0x32, 2⟩, ⟨0, 16, .lk, 1, 2⟩]⟩,
   ⟨0x410390, 4, 4, 1, 0, .run, [⟨31, 1, .ro, 0, 2⟩, ⟨30, 1, .ro, 0, 2⟩, ⟨16, 8, .ro, 0, 2⟩, ⟨0, 16, .ro, 0, 2⟩]⟩,
   ⟨0x410400, 32, 0x10, 1, 0, .run, [⟨31, 1, .lk, 0, 2⟩, ⟨29, 2, .lk, 0, 2⟩, ⟨27, 2, .lk, 0, 2⟩, ⟨26, 1, .lk, 0, 2⟩, ⟨24, 2, .lk, 0, 2⟩, ⟨20, 4, .lk, 0, 2⟩]⟩,
   ⟨0x410404, 32, 0x10, 1, 0, .run, [⟨0, 32, .ro, 0, 2⟩]⟩,
   ⟨0x410408, 32, 0x10, 1, 0, .run, [⟨16, 16, .ro, 0, 2⟩, ⟨0, 8, .ro, 0, 2⟩]⟩,
   ⟨0x410e00, 64, 4, 1, 0, .run, [⟨0, 32, .ro, 0, 2⟩]⟩,
   ⟨0x410f00, 1, 0, 1, 0, .run, [⟨0, 32, .ct, 0, 2⟩]⟩,
   ⟨0x410f04, 1, 0, 1, 0, .run, [⟨0, 32, .ct, 0, 2⟩]⟩,
   ⟨0x410f08, 1, 0, 1, 0, .run, [⟨0, 32, .ct, 0, 2⟩]⟩,
   ⟨0x410f0c, 1, 0, 1, 0, .run, [⟨0, 32, .ct, 0, 2⟩]⟩,
   ⟨0x410f10, 1, 0, 1, 0, .run, [⟨0, 32, .ct, 0, 2⟩]⟩,
   ⟨0x410f14, 1, 0, 1, 0, .run, [⟨0, 32, .ct, 0, 2⟩]⟩]

/-- Registers of block 21, MOR. -/
def regsMOR : List RegRow :=
  [
   ⟨0x420000, 1, 0, 1, 0, .run, [⟨0, 32, .ro, 0x15000100, 2⟩]⟩,
   ⟨0x420004, 1, 0, 1, 0, .run, [⟨2, 1, .rw, 0, 3⟩, ⟨1, 1, .wo, 0, 2⟩, ⟨0, 1, .wo, 0, 2⟩]⟩,
   ⟨0x420008, 1, 0, 1, 0, .run, [⟨16, 16, .ro, 0, 2⟩, ⟨8, 8, .ro, 0, 2⟩, ⟨6, 2, .ro, 0, 2⟩, ⟨5, 1, .ro, 0, 2⟩, ⟨4, 1, .ro, 0, 2⟩, ⟨3, 1, .ro, 0, 2⟩, ⟨0, 3, .ro, 0, 2⟩]⟩,
   ⟨0x420010, 1, 0, 1, 0, .run, [⟨11, 1, .w1c, 0, 2⟩, ⟨10, 1, .w1c, 0, 2⟩, ⟨9, 1, .w1c, 0, 2⟩, ⟨8, 1, .w1c, 0, 2⟩, ⟨7, 1, .w1c, 0, 2⟩, ⟨6, 1, .w1c, 0, 2⟩, ⟨5, 1, .w1c, 0, 2⟩, ⟨4, 1, .w1c, 0, 2⟩, ⟨3, 1, .w1c, 0, 2⟩, ⟨2, 1, .w1c, 0, 2⟩, ⟨1, 1, .w1c, 0, 2⟩, ⟨0, 1, .w1c, 0, 2⟩]⟩,
   ⟨0x420014, 1, 0, 1, 0, .run, [⟨11, 1, .rw, 0, 2⟩, ⟨10, 1, .rw, 0, 2⟩, ⟨9, 1, .rw, 0, 2⟩, ⟨8, 1, .rw, 0, 2⟩, ⟨7, 1, .rw, 0, 2⟩, ⟨6, 1, .rw, 0, 2⟩, ⟨5, 1, .rw, 0, 2⟩, ⟨4, 1, .rw, 0, 2⟩, ⟨3, 1, .rw, 0, 2⟩, ⟨2, 1, .rw, 0, 2⟩, ⟨1, 1, .rw, 0, 2⟩, ⟨0, 1, .rw, 0, 2⟩]⟩,
   ⟨0x420020, 1, 0, 1, 0, .run, [⟨31, 1, .lk, 0, 2⟩, ⟨30, 1, .lk, 0, 2⟩, ⟨29, 1, .lk, 0, 2⟩, ⟨28, 1, .lk, 1, 2⟩, ⟨27, 1, .lk, 0, 2⟩, ⟨16, 8, .lk, 4, 2⟩, ⟨8, 8, .lk, 0x10, 2⟩, ⟨0, 8, .lk, 0x32, 2⟩]⟩,
   ⟨0x420024, 1, 0, 1, 0, .run, [⟨16, 16, .lk, 0x64, 2⟩, ⟨0, 16, .lk, 0x3e80, 2⟩]⟩,
   ⟨0x420028, 1, 0, 1, 0, .run, [⟨16, 16, .ro, 0, 2⟩, ⟨4, 1, .ro, 0, 2⟩, ⟨3, 1, .ro, 0, 2⟩, ⟨0, 3, .ro, 0, 2⟩]⟩,
   ⟨0x420030, 1, 0, 1, 0, .run, [⟨16, 9, .ro, 0, 2⟩, ⟨0, 9, .ro, 0, 2⟩]⟩,
   ⟨0x420034, 1, 0, 1, 0, .run, [⟨0, 24, .ro, 0, 2⟩]⟩,
   ⟨0x420038, 1, 0, 1, 0, .run, [⟨0, 32, .ro, 0, 2⟩]⟩,
   ⟨0x420040, 1, 0, 1, 0, .run, [⟨0, 32, .ro, 0, 2⟩]⟩,
   ⟨0x420044, 1, 0, 1, 0, .run, [⟨0, 32, .ro, 0, 2⟩]⟩,
   ⟨0x420048, 1, 0, 1, 0, .run, [⟨0, 32, .ro, 0, 2⟩]⟩,
   ⟨0x42004c, 1, 0, 1, 0, .run, [⟨0, 32, .ro, 0, 2⟩]⟩,
   ⟨0x420050, 1, 0, 1, 0, .run, [⟨0, 32, .ro, 0, 2⟩]⟩,
   ⟨0x420060, 1, 0, 1, 0, .run, [⟨8, 2, .ro, 0, 2⟩, ⟨0, 7, .ro, 0, 2⟩]⟩,
   ⟨0x420080, 8, 4, 1, 0, .run, [⟨0, 32, .ro, 0, 2⟩]⟩,
   ⟨0x420e00, 64, 4, 1, 0, .run, [⟨0, 32, .ro, 0, 2⟩]⟩,
   ⟨0x420f00, 1, 0, 1, 0, .run, [⟨0, 32, .ct, 0, 2⟩]⟩,
   ⟨0x420f04, 1, 0, 1, 0, .run, [⟨0, 32, .ct, 0, 2⟩]⟩,
   ⟨0x420f08, 1, 0, 1, 0, .run, [⟨0, 32, .ct, 0, 2⟩]⟩,
   ⟨0x420f0c, 1, 0, 1, 0, .run, [⟨0, 32, .ct, 0, 2⟩]⟩,
   ⟨0x420f10, 1, 0, 1, 0, .run, [⟨0, 32, .ct, 0, 2⟩]⟩,
   ⟨0x420f14, 1, 0, 1, 0, .run, [⟨0, 32, .ct, 0, 2⟩]⟩,
   ⟨0x420f18, 1, 0, 1, 0, .run, [⟨0, 32, .ct, 0, 2⟩]⟩,
   ⟨0x420f1c, 1, 0, 1, 0, .run, [⟨0, 32, .ct, 0, 2⟩]⟩,
   ⟨0x420f20, 1, 0, 1, 0, .run, [⟨0, 32, .ct, 0, 2⟩]⟩,
   ⟨0x420f24, 1, 0, 1, 0, .run, [⟨0, 32, .ct, 0, 2⟩]⟩,
   ⟨0x420f28, 1, 0, 1, 0, .run, [⟨0, 32, .ct, 0, 2⟩]⟩]

/-- Registers of block 22, LOG. -/
def regsLOG : List RegRow :=
  [
   ⟨0x430000, 1, 0, 1, 0, .run, [⟨0, 32, .ro, 0x16000100, 2⟩]⟩,
   ⟨0x430004, 1, 0, 1, 0, .run, [⟨16, 8, .lk, 0x1e, 2⟩, ⟨8, 3, .lk, 6, 2⟩, ⟨0, 1, .rw, 0, 2⟩]⟩,
   ⟨0x430008, 1, 0, 1, 0, .run, [⟨31, 1, .ro, 0, 2⟩, ⟨22, 9, .ro, 0, 2⟩, ⟨0, 17, .ro, 0, 2⟩]⟩,
   ⟨0x430010, 1, 0, 1, 0, .run, [⟨7, 1, .w1c, 0, 2⟩, ⟨6, 1, .w1c, 0, 2⟩, ⟨5, 1, .w1c, 0, 2⟩, ⟨4, 1, .w1c, 0, 2⟩, ⟨3, 1, .w1c, 0, 2⟩, ⟨2, 1, .w1c, 0, 2⟩, ⟨0, 1, .w1c, 0, 2⟩]⟩,
   ⟨0x430014, 1, 0, 1, 0, .run, [⟨7, 1, .rw, 0, 2⟩, ⟨6, 1, .rw, 0, 2⟩, ⟨5, 1, .rw, 0, 2⟩, ⟨4, 1, .rw, 0, 2⟩, ⟨3, 1, .rw, 0, 2⟩, ⟨2, 1, .rw, 0, 2⟩, ⟨0, 1, .rw, 0, 2⟩]⟩,
   ⟨0x430020, 1, 0, 1, 0, .run, [⟨0, 32, .ro, 0, 2⟩]⟩,
   ⟨0x430024, 1, 0, 1, 0, .run, [⟨0, 32, .ro, 0, 2⟩]⟩,
   ⟨0x430028, 1, 0, 1, 0, .run, [⟨0, 32, .ro, 0, 2⟩]⟩,
   ⟨0x43002c, 1, 0, 1, 0, .run, [⟨0, 32, .ro, 0, 2⟩]⟩,
   ⟨0x430030, 1, 0, 1, 0, .run, [⟨0, 16, .wo, 0, 3⟩]⟩,
   ⟨0x430040, 1, 0, 1, 0, .run, [⟨29, 3, .ro, 0, 2⟩, ⟨0, 29, .ro, 0, 2⟩]⟩,
   ⟨0x430080, 24, 4, 1, 0, .run, [⟨28, 3, .lk, 5, 2⟩, ⟨24, 3, .lk, 3, 2⟩, ⟨0, 16, .lk, 0, 2⟩]⟩,
   ⟨0x430200, 2, 0x80, 1, 0, .run, [⟨28, 4, .wo, 0, 1⟩]⟩,
   ⟨0x430204, 2, 0x80, 1, 0, .run, [⟨0, 32, .rw, 0, 1⟩]⟩,
   ⟨0x430208, 2, 0x80, 1, 0, .run, [⟨0, 32, .rw, 0, 1⟩]⟩,
   ⟨0x43020c, 2, 0x80, 1, 0, .run, [⟨31, 1, .ro, 0, 2⟩, ⟨30, 1, .ro, 0, 2⟩, ⟨29, 1, .ro, 0, 2⟩]⟩,
   ⟨0x430240, 2, 0x80, 16, 4, .run, [⟨0, 32, .ro, 0, 2⟩]⟩,
   ⟨0x430e00, 64, 4, 1, 0, .run, [⟨0, 32, .ro, 0, 2⟩]⟩,
   ⟨0x430f00, 1, 0, 1, 0, .run, [⟨0, 32, .ct, 0, 2⟩]⟩,
   ⟨0x430f04, 1, 0, 1, 0, .run, [⟨0, 32, .ct, 0, 2⟩]⟩,
   ⟨0x430f08, 1, 0, 1, 0, .run, [⟨0, 32, .ct, 0, 2⟩]⟩,
   ⟨0x430f0c, 1, 0, 1, 0, .run, [⟨0, 32, .ct, 0, 2⟩]⟩,
   ⟨0x430f10, 1, 0, 1, 0, .run, [⟨0, 32, .ct, 0, 2⟩]⟩,
   ⟨0x430f40, 7, 8, 1, 0, .run, [⟨0, 32, .ct, 0, 2⟩]⟩,
   ⟨0x430f44, 7, 8, 1, 0, .run, [⟨0, 32, .ct, 0, 2⟩]⟩]

/-- Registers of block 23, MFT. -/
def regsMFT : List RegRow :=
  [
   ⟨0x440000, 1, 0, 1, 0, .run, [⟨0, 32, .ro, 0x17000100, 2⟩]⟩,
   ⟨0x440004, 1, 0, 1, 0, .run, [⟨1, 1, .wo, 0, 2⟩, ⟨0, 1, .wo, 0, 2⟩]⟩,
   ⟨0x440008, 1, 0, 1, 0, .run, [⟨31, 1, .ro, 1, 2⟩, ⟨30, 1, .ro, 0, 2⟩, ⟨16, 7, .ro, 0, 2⟩, ⟨0, 6, .ro, 0, 2⟩]⟩,
   ⟨0x440010, 1, 0, 1, 0, .run, [⟨2, 1, .w1c, 0, 2⟩, ⟨1, 1, .w1c, 0, 2⟩, ⟨0, 1, .w1c, 0, 2⟩]⟩,
   ⟨0x440014, 1, 0, 1, 0, .run, [⟨2, 1, .rw, 0, 2⟩, ⟨1, 1, .rw, 0, 2⟩, ⟨0, 1, .rw, 0, 2⟩]⟩,
   ⟨0x440020, 1, 0, 1, 0, .run, [⟨31, 1, .lk, 0, 2⟩, ⟨16, 7, .lk, 1, 2⟩, ⟨0, 16, .lk, 0xc350, 2⟩]⟩,
   ⟨0x440024, 1, 0, 1, 0, .run, [⟨0, 32, .ro, 0, 2⟩]⟩,
   ⟨0x440028, 1, 0, 1, 0, .run, [⟨0, 32, .ro, 0, 2⟩]⟩,
   ⟨0x44002c, 1, 0, 1, 0, .run, [⟨0, 32, .ro, 0, 2⟩]⟩,
   ⟨0x440030, 1, 0, 1, 0, .run, [⟨0, 32, .ro, 0, 2⟩]⟩,
   ⟨0x440034, 1, 0, 1, 0, .run, [⟨0, 32, .ro, 0, 2⟩]⟩,
   ⟨0x440040, 1, 0, 1, 0, .run, [⟨8, 5, .rw, 0, 2⟩, ⟨0, 5, .rw, 0, 2⟩]⟩,
   ⟨0x440044, 1, 0, 1, 0, .run, [⟨31, 1, .ro, 0, 2⟩, ⟨30, 1, .ro, 0, 2⟩, ⟨29, 1, .ro, 0, 2⟩]⟩,
   ⟨0x440100, 24, 4, 1, 0, .run, [⟨31, 1, .ro, 0, 2⟩, ⟨0, 16, .ro, 0, 2⟩]⟩,
   ⟨0x440400, 64, 4, 1, 0, .run, [⟨0, 32, .ro, 0, 2⟩]⟩,
   ⟨0x440e00, 64, 4, 1, 0, .run, [⟨0, 32, .ro, 0, 2⟩]⟩,
   ⟨0x440f00, 1, 0, 1, 0, .run, [⟨0, 32, .ct, 0, 2⟩]⟩,
   ⟨0x440f04, 1, 0, 1, 0, .run, [⟨0, 32, .ct, 0, 2⟩]⟩,
   ⟨0x440f08, 1, 0, 1, 0, .run, [⟨0, 32, .ct, 0, 2⟩]⟩]

/-- The rows of each block, by block index (R454). -/
def blockRows : Nat → List RegRow
  | 0 => regsMGT
  | 1 => regsCRG
  | 2 => regsBOT
  | 3 => regsTHM
  | 4 => regsTBS
  | 5 => regsPTP
  | 6 => regsNET
  | 7 => regsSVX
  | 8 => regsGSE
  | 9 => regsLNK
  | 10 => regsTWL
  | 11 => regsCBK
  | 12 => regsHLM
  | 13 => regsGWY
  | 14 => regsBLS
  | 15 => regsMOD
  | 16 => regsSAR
  | 17 => regsWCM
  | 18 => regsTRP
  | 19 => regsSAF
  | 20 => regsMTR
  | 21 => regsMOR
  | 22 => regsLOG
  | 23 => regsMFT
  | _ => []

def addr_MGT_ID : Nat := 0
def addr_MGT_CTRL : Nat := 4
def MGT_CTRL_ALERT_POL : Fld := ⟨addr_MGT_CTRL, 1, 1⟩
def MGT_CTRL_ALERT_EN : Fld := ⟨addr_MGT_CTRL, 0, 1⟩
def addr_MGT_STAT : Nat := 8
def MGT_STAT_SESSIONS : Fld := ⟨addr_MGT_STAT, 8, 4⟩
def MGT_STAT_SPI_GRANT : Fld := ⟨addr_MGT_STAT, 4, 2⟩
def MGT_STAT_MAINT_OK : Fld := ⟨addr_MGT_STAT, 3, 1⟩
def MGT_STAT_ACC_SRC : Fld := ⟨addr_MGT_STAT, 0, 2⟩
def addr_MGT_EVT : Nat := 0x10
def MGT_EVT_KEY_END : Fld := ⟨addr_MGT_EVT, 5, 1⟩
def MGT_EVT_SPI_ERR : Fld := ⟨addr_MGT_EVT, 4, 1⟩
def MGT_EVT_REPLAY : Fld := ⟨addr_MGT_EVT, 3, 1⟩
def MGT_EVT_TAG_FAIL : Fld := ⟨addr_MGT_EVT, 2, 1⟩
def MGT_EVT_AUTH_FAIL : Fld := ⟨addr_MGT_EVT, 1, 1⟩
def MGT_EVT_REFUSED : Fld := ⟨addr_MGT_EVT, 0, 1⟩
def addr_MGT_ALERT_SUM : Nat := 0x20
def addr_MGT_LASTREF : Nat := 0x24
def MGT_LASTREF_PATH : Fld := ⟨addr_MGT_LASTREF, 28, 4⟩
def MGT_LASTREF_STATUS : Fld := ⟨addr_MGT_LASTREF, 24, 4⟩
def MGT_LASTREF_ADDR : Fld := ⟨addr_MGT_LASTREF, 0, 24⟩
def addr_MGT_SESS (i : Nat) : Nat := 0x100 + 0x10 * i
def MGT_SESS_STATE (i : Nat) : Fld := ⟨addr_MGT_SESS i, 30, 2⟩
def MGT_SESS_CLASS (i : Nat) : Fld := ⟨addr_MGT_SESS i, 28, 2⟩
def MGT_SESS_NOTE (i : Nat) : Fld := ⟨addr_MGT_SESS i, 27, 1⟩
def MGT_SESS_PORT (i : Nat) : Fld := ⟨addr_MGT_SESS i, 24, 3⟩
def MGT_SESS_KID (i : Nat) : Fld := ⟨addr_MGT_SESS i, 0, 16⟩
def addr_MGT_SESS_IP (i : Nat) : Nat := 0x104 + 0x10 * i
def MGT_SESS_IP (i : Nat) : Fld := ⟨addr_MGT_SESS_IP i, 0, 32⟩
def addr_MGT_SESS_UDP (i : Nat) : Nat := 0x108 + 0x10 * i
def MGT_SESS_UDP (i : Nat) : Fld := ⟨addr_MGT_SESS_UDP i, 0, 16⟩
def addr_MGT_SESS_SID (i : Nat) : Nat := 0x10c + 0x10 * i
def MGT_SESS_SID (i : Nat) : Fld := ⟨addr_MGT_SESS_SID i, 0, 32⟩
def addr_MGT_AUTH_FAIL : Nat := 0xf00
def MGT_AUTH_FAIL : Fld := ⟨addr_MGT_AUTH_FAIL, 0, 32⟩
def addr_MGT_TAG_FAIL : Nat := 0xf04
def MGT_TAG_FAIL : Fld := ⟨addr_MGT_TAG_FAIL, 0, 32⟩
def addr_MGT_REPLAY : Nat := 0xf08
def MGT_REPLAY : Fld := ⟨addr_MGT_REPLAY, 0, 32⟩
def addr_MGT_MSG_BAD : Nat := 0xf0c
def MGT_MSG_BAD : Fld := ⟨addr_MGT_MSG_BAD, 0, 32⟩
def addr_MGT_SESS_FULL : Nat := 0xf10
def MGT_SESS_FULL : Fld := ⟨addr_MGT_SESS_FULL, 0, 32⟩
def addr_MGT_SPI_ERR : Nat := 0xf14
def MGT_SPI_ERR : Fld := ⟨addr_MGT_SPI_ERR, 0, 32⟩
def addr_MGT_REFUSED : Nat := 0xf18
def MGT_REFUSED : Fld := ⟨addr_MGT_REFUSED, 0, 32⟩
def addr_MGT_QDROP : Nat := 0xf1c
def MGT_QDROP : Fld := ⟨addr_MGT_QDROP, 0, 32⟩
def addr_CRG_CTRL : Nat := 0x10004
def CRG_CTRL_WDT_TMO : Fld := ⟨addr_CRG_CTRL, 0, 7⟩
def addr_CRG_STAT : Nat := 0x10008
def CRG_STAT_BAK_OK : Fld := ⟨addr_CRG_STAT, 7, 1⟩
def CRG_STAT_AOC_OK : Fld := ⟨addr_CRG_STAT, 6, 1⟩
def CRG_STAT_REF_OK : Fld := ⟨addr_CRG_STAT, 5, 1⟩
def CRG_STAT_SYC_DIV : Fld := ⟨addr_CRG_STAT, 4, 1⟩
def CRG_STAT_PSTATE : Fld := ⟨addr_CRG_STAT, 0, 3⟩
def addr_CRG_EVT : Nat := 0x10010
def CRG_EVT_CNT_SAT : Fld := ⟨addr_CRG_EVT, 6, 1⟩
def CRG_EVT_XD_STOPPED : Fld := ⟨addr_CRG_EVT, 5, 1⟩
def CRG_EVT_PWR_REFUSED : Fld := ⟨addr_CRG_EVT, 4, 1⟩
def CRG_EVT_BRST_REFUSED : Fld := ⟨addr_CRG_EVT, 3, 1⟩
def CRG_EVT_SWRST_REFUSED : Fld := ⟨addr_CRG_EVT, 2, 1⟩
def CRG_EVT_WDOG_WARN : Fld := ⟨addr_CRG_EVT, 1, 1⟩
def addr_CRG_RSTCAUSE : Nat := 0x10020
def CRG_RSTCAUSE_SLIPWAY : Fld := ⟨addr_CRG_RSTCAUSE, 7, 1⟩
def CRG_RSTCAUSE_BAKPOR : Fld := ⟨addr_CRG_RSTCAUSE, 6, 1⟩
def CRG_RSTCAUSE_SW : Fld := ⟨addr_CRG_RSTCAUSE, 5, 1⟩
def CRG_RSTCAUSE_WDOG : Fld := ⟨addr_CRG_RSTCAUSE, 4, 1⟩
def CRG_RSTCAUSE_PIN : Fld := ⟨addr_CRG_RSTCAUSE, 3, 1⟩
def CRG_RSTCAUSE_CLK : Fld := ⟨addr_CRG_RSTCAUSE, 2, 1⟩
def CRG_RSTCAUSE_BOR : Fld := ⟨addr_CRG_RSTCAUSE, 1, 1⟩
def addr_CRG_RAIL : Nat := 0x10024
def CRG_RAIL_OK : Fld := ⟨addr_CRG_RAIL, 0, 6⟩
def addr_CRG_PWR : Nat := 0x10028
def CRG_PWR_REQ : Fld := ⟨addr_CRG_PWR, 0, 2⟩
def addr_CRG_SWRST : Nat := 0x1002c
def addr_CRG_SSC : Nat := 0x10030
def CRG_SSC_DEPTH : Fld := ⟨addr_CRG_SSC, 0, 4⟩
def addr_CRG_PLL (i : Nat) : Nat := 0x10040 + 4 * i
def CRG_PLL_LOCK (i : Nat) : Fld := ⟨addr_CRG_PLL i, 31, 1⟩
def CRG_PLL_STATE (i : Nat) : Fld := ⟨addr_CRG_PLL i, 26, 2⟩
def CRG_PLL_BAND (i : Nat) : Fld := ⟨addr_CRG_PLL i, 16, 6⟩
def CRG_PLL_PHSTEPS (i : Nat) : Fld := ⟨addr_CRG_PLL i, 0, 16⟩
def addr_CRG_BRST : Nat := 0x10060
def addr_CRG_BRST_STAT : Nat := 0x10064
def CRG_BRST_STAT_REASON : Fld := ⟨addr_CRG_BRST_STAT, 24, 8⟩
def addr_CRG_CNTCLR : Nat := 0x10068
def addr_CRG_SAT : Nat := 0x1006c
def addr_CRG_BRTC_LO : Nat := 0x10070
def addr_CRG_BRTC_HI : Nat := 0x10074
def addr_CRG_BRTC_SUB : Nat := 0x10078
def addr_CRG_BRTC_TRIM : Nat := 0x1007c
def CRG_BRTC_TRIM_STEP : Fld := ⟨addr_CRG_BRTC_TRIM, 0, 8⟩
def addr_CRG_BOR : Nat := 0x10f00
def CRG_BOR : Fld := ⟨addr_CRG_BOR, 0, 32⟩
def addr_CRG_PLL_LOSS (i : Nat) : Nat := 0x10f04 + 4 * i
def CRG_PLL_LOSS (i : Nat) : Fld := ⟨addr_CRG_PLL_LOSS i, 0, 32⟩
def addr_CRG_WDOG_RST : Nat := 0x10f14
def CRG_WDOG_RST : Fld := ⟨addr_CRG_WDOG_RST, 0, 32⟩
def addr_CRG_PIN_RST : Nat := 0x10f18
def CRG_PIN_RST : Fld := ⟨addr_CRG_PIN_RST, 0, 32⟩
def addr_CRG_SW_RST : Nat := 0x10f1c
def CRG_SW_RST : Fld := ⟨addr_CRG_SW_RST, 0, 32⟩
def addr_CRG_BRST_REFUSED : Nat := 0x10f20
def CRG_BRST_REFUSED : Fld := ⟨addr_CRG_BRST_REFUSED, 0, 32⟩
def addr_CRG_XD_STOPPED : Nat := 0x10f24
def CRG_XD_STOPPED : Fld := ⟨addr_CRG_XD_STOPPED, 0, 32⟩
def addr_BOT_CTRL : Nat := 0x20004
def addr_BOT_STAT : Nat := 0x20008
def BOT_STAT_PIN : Fld := ⟨addr_BOT_STAT, 6, 2⟩
def BOT_STAT_OWNKH : Fld := ⟨addr_BOT_STAT, 5, 1⟩
def BOT_STAT_FALLBACK : Fld := ⟨addr_BOT_STAT, 4, 1⟩
def BOT_STAT_SLOT : Fld := ⟨addr_BOT_STAT, 3, 1⟩
def BOT_STAT_SLIPWAY : Fld := ⟨addr_BOT_STAT, 2, 1⟩
def BOT_STAT_STAGE : Fld := ⟨addr_BOT_STAT, 0, 2⟩
def addr_BOT_EVT : Nat := 0x20010
def BOT_EVT_KCMD_DONE : Fld := ⟨addr_BOT_EVT, 3, 1⟩
def BOT_EVT_CTRL_REFUSED : Fld := ⟨addr_BOT_EVT, 2, 1⟩
def BOT_EVT_ARM_REFUSED : Fld := ⟨addr_BOT_EVT, 1, 1⟩
def BOT_EVT_FALLBACK : Fld := ⟨addr_BOT_EVT, 0, 1⟩
def addr_BOT_FAILS : Nat := 0x20020
def BOT_FAILS_COUNT : Fld := ⟨addr_BOT_FAILS, 0, 4⟩
def addr_BOT_FAILINFO : Nat := 0x20024
def BOT_FAILINFO_CODE : Fld := ⟨addr_BOT_FAILINFO, 24, 8⟩
def BOT_FAILINFO_DETAIL : Fld := ⟨addr_BOT_FAILINFO, 0, 24⟩
def addr_BOT_SLIPCODE : Nat := 0x20028
def BOT_SLIPCODE_CODE : Fld := ⟨addr_BOT_SLIPCODE, 0, 8⟩
def addr_BOT_SEQ_LO : Nat := 0x20030
def BOT_SEQ_LO : Fld := ⟨addr_BOT_SEQ_LO, 0, 32⟩
def addr_BOT_SEQ_HI : Nat := 0x20034
def BOT_SEQ_HI : Fld := ⟨addr_BOT_SEQ_HI, 0, 32⟩
def addr_BOT_SVN : Nat := 0x20038
def BOT_SVN_FLOOR : Fld := ⟨addr_BOT_SVN, 24, 6⟩
def BOT_SVN_IMAGE : Fld := ⟨addr_BOT_SVN, 0, 6⟩
def addr_BOT_KID_LO : Nat := 0x20040
def addr_BOT_KID_HI : Nat := 0x20044
def addr_BOT_KIDS_LO : Nat := 0x20048
def addr_BOT_KIDS_HI : Nat := 0x2004c
def addr_BOT_SER_LO : Nat := 0x20050
def addr_BOT_SER_HI : Nat := 0x20054
def addr_BOT_FWVER : Nat := 0x20058
def BOT_FWVER : Fld := ⟨addr_BOT_FWVER, 0, 32⟩
def addr_BOT_SVNBURN : Nat := 0x20060
def addr_BOT_ARM_SET : Nat := 0x20080
def addr_BOT_ARM_CLR : Nat := 0x20084
def addr_BOT_ARM : Nat := 0x20088
def BOT_ARM_PEND : Fld := ⟨addr_BOT_ARM, 8, 8⟩
def BOT_ARM_EN : Fld := ⟨addr_BOT_ARM, 0, 8⟩
def addr_BOT_ARM_STAT : Nat := 0x2008c
def BOT_ARM_STAT_ACCEPTED : Fld := ⟨addr_BOT_ARM_STAT, 31, 1⟩
def BOT_ARM_STAT_REASON : Fld := ⟨addr_BOT_ARM_STAT, 24, 4⟩
def addr_BOT_KCMD : Nat := 0x20100
def addr_BOT_KADDR : Nat := 0x20104
def BOT_KADDR_ADDR : Fld := ⟨addr_BOT_KADDR, 0, 25⟩
def addr_BOT_KSTAT : Nat := 0x20108
def BOT_KSTAT_BUSY : Fld := ⟨addr_BOT_KSTAT, 31, 1⟩
def BOT_KSTAT_RESULT : Fld := ⟨addr_BOT_KSTAT, 24, 3⟩
def addr_BOT_KINFO : Nat := 0x2010c
def BOT_KINFO_MBIT : Fld := ⟨addr_BOT_KINFO, 0, 16⟩
def addr_BOT_KBUF (i : Nat) : Nat := 0x20400 + 4 * i
def BOT_KBUF (i : Nat) : Fld := ⟨addr_BOT_KBUF i, 0, 32⟩
def addr_BOT_ARM_REFUSED : Nat := 0x20f00
def BOT_ARM_REFUSED : Fld := ⟨addr_BOT_ARM_REFUSED, 0, 32⟩
def addr_BOT_KCMD_REFUSED : Nat := 0x20f04
def BOT_KCMD_REFUSED : Fld := ⟨addr_BOT_KCMD_REFUSED, 0, 32⟩
def addr_BOT_FALLBACKS : Nat := 0x20f08
def BOT_FALLBACKS : Fld := ⟨addr_BOT_FALLBACKS, 0, 32⟩
def addr_THM_CTRL : Nat := 0x30004
def THM_CTRL_AUTO : Fld := ⟨addr_THM_CTRL, 0, 1⟩
def addr_THM_STAT : Nat := 0x30008
def THM_STAT_TJ : Fld := ⟨addr_THM_STAT, 20, 12⟩
def THM_STAT_VALID : Fld := ⟨addr_THM_STAT, 10, 9⟩
def THM_STAT_HOT : Fld := ⟨addr_THM_STAT, 6, 4⟩
def THM_STAT_RESUME_OK : Fld := ⟨addr_THM_STAT, 5, 1⟩
def THM_STAT_NODBL : Fld := ⟨addr_THM_STAT, 4, 1⟩
def THM_STAT_STATE : Fld := ⟨addr_THM_STAT, 0, 3⟩
def addr_THM_EVT : Nat := 0x30010
def THM_EVT_RELEASE : Fld := ⟨addr_THM_EVT, 6, 1⟩
def THM_EVT_SENSOR : Fld := ⟨addr_THM_EVT, 5, 1⟩
def THM_EVT_RESUME_OK : Fld := ⟨addr_THM_EVT, 4, 1⟩
def THM_EVT_HOLD : Fld := ⟨addr_THM_EVT, 3, 1⟩
def THM_EVT_STAGE2 : Fld := ⟨addr_THM_EVT, 2, 1⟩
def THM_EVT_THROTTLE : Fld := ⟨addr_THM_EVT, 1, 1⟩
def THM_EVT_WARN : Fld := ⟨addr_THM_EVT, 0, 1⟩
def addr_THM_TS (i : Nat) : Nat := 0x30020 + 4 * i
def THM_TS_VALID (i : Nat) : Fld := ⟨addr_THM_TS i, 31, 1⟩
def THM_TS_T (i : Nat) : Fld := ⟨addr_THM_TS i, 0, 12⟩
def addr_THM_MAX : Nat := 0x30050
def THM_MAX_T : Fld := ⟨addr_THM_MAX, 0, 12⟩
def addr_THM_WARNS : Nat := 0x30f00
def THM_WARNS : Fld := ⟨addr_THM_WARNS, 0, 32⟩
def addr_THM_THROTTLES : Nat := 0x30f04
def THM_THROTTLES : Fld := ⟨addr_THM_THROTTLES, 0, 32⟩
def addr_THM_HOLDS : Nat := 0x30f08
def THM_HOLDS : Fld := ⟨addr_THM_HOLDS, 0, 32⟩
def addr_THM_SENSOR_BAD : Nat := 0x30f0c
def THM_SENSOR_BAD : Fld := ⟨addr_THM_SENSOR_BAD, 0, 32⟩
def addr_TBS_CTRL : Nat := 0x40004
def TBS_CTRL_PPSI_EDGE : Fld := ⟨addr_TBS_CTRL, 7, 1⟩
def TBS_CTRL_PPSI_EN : Fld := ⟨addr_TBS_CTRL, 6, 1⟩
def TBS_CTRL_PPSO_QUAL : Fld := ⟨addr_TBS_CTRL, 5, 1⟩
def TBS_CTRL_PPSO_EN : Fld := ⟨addr_TBS_CTRL, 4, 1⟩
def TBS_CTRL_MODE : Fld := ⟨addr_TBS_CTRL, 0, 1⟩
def addr_TBS_STAT : Nat := 0x40008
def TBS_STAT_REFUSED : Fld := ⟨addr_TBS_STAT, 9, 1⟩
def TBS_STAT_STEPPED : Fld := ⟨addr_TBS_STAT, 8, 1⟩
def TBS_STAT_SYNC_Q : Fld := ⟨addr_TBS_STAT, 4, 2⟩
def TBS_STAT_STATE : Fld := ⟨addr_TBS_STAT, 0, 3⟩
def addr_TBS_EVT : Nat := 0x40010
def TBS_EVT_PER_REFUSED : Fld := ⟨addr_TBS_EVT, 8, 1⟩
def TBS_EVT_PPSI_MISS : Fld := ⟨addr_TBS_EVT, 7, 1⟩
def TBS_EVT_STEP_REFUSED : Fld := ⟨addr_TBS_EVT, 6, 1⟩
def TBS_EVT_HO_LIMIT : Fld := ⟨addr_TBS_EVT, 5, 1⟩
def TBS_EVT_INCR_CLAMP : Fld := ⟨addr_TBS_EVT, 4, 1⟩
def TBS_EVT_LOCKED : Fld := ⟨addr_TBS_EVT, 3, 1⟩
def TBS_EVT_HOLDOVER : Fld := ⟨addr_TBS_EVT, 2, 1⟩
def TBS_EVT_JUMP_REFUSED : Fld := ⟨addr_TBS_EVT, 1, 1⟩
def TBS_EVT_STEP_DONE : Fld := ⟨addr_TBS_EVT, 0, 1⟩
def addr_TBS_TIME_LO : Nat := 0x40020
def addr_TBS_TIME_HI : Nat := 0x40024
def addr_TBS_TIME_FR : Nat := 0x40028
def addr_TBS_INCR_FR : Nat := 0x40030
def addr_TBS_INCR_NS : Nat := 0x40034
def TBS_INCR_NS_NS : Fld := ⟨addr_TBS_INCR_NS, 0, 4⟩
def addr_TBS_INCR_LIM : Nat := 0x40038
def TBS_INCR_LIM_PPM : Fld := ⟨addr_TBS_INCR_LIM, 0, 10⟩
def addr_TBS_HO_LIM : Nat := 0x4003c
def TBS_HO_LIM_S : Fld := ⟨addr_TBS_HO_LIM, 0, 16⟩
def addr_TBS_STEP : Nat := 0x40040
def addr_TBS_STEP_OFS_LO : Nat := 0x40044
def TBS_STEP_OFS_LO_NS : Fld := ⟨addr_TBS_STEP_OFS_LO, 0, 32⟩
def addr_TBS_STEP_OFS_HI : Nat := 0x40048
def TBS_STEP_OFS_HI_NS : Fld := ⟨addr_TBS_STEP_OFS_HI, 0, 32⟩
def addr_TBS_STEP_OFS_FR : Nat := 0x4004c
def TBS_STEP_OFS_FR_FR : Fld := ⟨addr_TBS_STEP_OFS_FR, 0, 32⟩
def addr_TBS_HO_TIME : Nat := 0x40050
def addr_TBS_PHASE : Nat := 0x40054
def TBS_PHASE_N : Fld := ⟨addr_TBS_PHASE, 0, 6⟩
def addr_TBS_PPSI_LO : Nat := 0x40060
def addr_TBS_PPSI_HI : Nat := 0x40064
def addr_TBS_PPSI_FR : Nat := 0x40068
def addr_TBS_PPSI_ERR : Nat := 0x4006c
def addr_TBS_PER : Nat := 0x40070
def TBS_PER_PER : Fld := ⟨addr_TBS_PER, 0, 20⟩
def addr_TBS_PHI : Nat := 0x40074
def TBS_PHI_PHI : Fld := ⟨addr_TBS_PHI, 0, 20⟩
def addr_TBS_TLMDUE : Nat := 0x40078
def TBS_TLMDUE_TLM : Fld := ⟨addr_TBS_TLMDUE, 0, 20⟩
def addr_TBS_PERMIN : Nat := 0x4007c
def TBS_PERMIN_PER : Fld := ⟨addr_TBS_PERMIN, 0, 20⟩
def addr_TBS_PERMAX : Nat := 0x40080
def TBS_PERMAX_PER : Fld := ⟨addr_TBS_PERMAX, 0, 20⟩
def addr_TBS_PERNOW : Nat := 0x40084
def TBS_PERNOW_PER : Fld := ⟨addr_TBS_PERNOW, 0, 20⟩
def addr_TBS_PERNEXT : Nat := 0x40088
def TBS_PERNEXT_PEND : Fld := ⟨addr_TBS_PERNEXT, 31, 1⟩
def TBS_PERNEXT_PER : Fld := ⟨addr_TBS_PERNEXT, 0, 20⟩
def addr_TBS_STEPS : Nat := 0x40f00
def TBS_STEPS : Fld := ⟨addr_TBS_STEPS, 0, 32⟩
def addr_TBS_JUMPS_REFUSED : Nat := 0x40f04
def TBS_JUMPS_REFUSED : Fld := ⟨addr_TBS_JUMPS_REFUSED, 0, 32⟩
def addr_TBS_CLAMPS : Nat := 0x40f08
def TBS_CLAMPS : Fld := ⟨addr_TBS_CLAMPS, 0, 32⟩
def addr_TBS_PPSI_MISSES : Nat := 0x40f0c
def TBS_PPSI_MISSES : Fld := ⟨addr_TBS_PPSI_MISSES, 0, 32⟩
def addr_TBS_STEP_REFUSED : Nat := 0x40f10
def TBS_STEP_REFUSED : Fld := ⟨addr_TBS_STEP_REFUSED, 0, 32⟩
def addr_TBS_PER_REFUSED : Nat := 0x40f14
def TBS_PER_REFUSED : Fld := ⟨addr_TBS_PER_REFUSED, 0, 32⟩
def addr_PTP_CTRL : Nat := 0x50004
def PTP_CTRL_SERVO_TC : Fld := ⟨addr_PTP_CTRL, 16, 4⟩
def PTP_CTRL_DOMAIN : Fld := ⟨addr_PTP_CTRL, 8, 8⟩
def PTP_CTRL_P2_EN : Fld := ⟨addr_PTP_CTRL, 5, 1⟩
def PTP_CTRL_P1_EN : Fld := ⟨addr_PTP_CTRL, 4, 1⟩
def PTP_CTRL_SERVO : Fld := ⟨addr_PTP_CTRL, 2, 1⟩
def PTP_CTRL_PROFILE : Fld := ⟨addr_PTP_CTRL, 0, 2⟩
def addr_PTP_STAT : Nat := 0x50008
def PTP_STAT_C37_TLV : Fld := ⟨addr_PTP_STAT, 13, 1⟩
def PTP_STAT_GM_VALID : Fld := ⟨addr_PTP_STAT, 12, 1⟩
def PTP_STAT_P2_STATE : Fld := ⟨addr_PTP_STAT, 8, 3⟩
def PTP_STAT_P1_STATE : Fld := ⟨addr_PTP_STAT, 4, 3⟩
def PTP_STAT_SEL_PORT : Fld := ⟨addr_PTP_STAT, 0, 2⟩
def addr_PTP_EVT : Nat := 0x50010
def PTP_EVT_NO_PDELAY : Fld := ⟨addr_PTP_EVT, 10, 1⟩
def PTP_EVT_ARB_IGNORED : Fld := ⟨addr_PTP_EVT, 9, 1⟩
def PTP_EVT_OUTLIER : Fld := ⟨addr_PTP_EVT, 8, 1⟩
def PTP_EVT_P2_ANN_TMO : Fld := ⟨addr_PTP_EVT, 7, 1⟩
def PTP_EVT_P1_ANN_TMO : Fld := ⟨addr_PTP_EVT, 6, 1⟩
def PTP_EVT_GM_CHANGE : Fld := ⟨addr_PTP_EVT, 5, 1⟩
def PTP_EVT_PORT_SWITCH : Fld := ⟨addr_PTP_EVT, 4, 1⟩
def PTP_EVT_P2_RXQ_OVF : Fld := ⟨addr_PTP_EVT, 3, 1⟩
def PTP_EVT_P1_RXQ_OVF : Fld := ⟨addr_PTP_EVT, 2, 1⟩
def PTP_EVT_P2_TSQ_OVF : Fld := ⟨addr_PTP_EVT, 1, 1⟩
def PTP_EVT_P1_TSQ_OVF : Fld := ⟨addr_PTP_EVT, 0, 1⟩
def addr_PTP_JUMP_LIM : Nat := 0x50020
def PTP_JUMP_LIM_NS : Fld := ⟨addr_PTP_JUMP_LIM, 0, 20⟩
def addr_PTP_OFFSET : Nat := 0x50030
def addr_PTP_P1_PDELAY : Nat := 0x50034
def addr_PTP_P2_PDELAY : Nat := 0x50038
def addr_PTP_GM_ID_LO : Nat := 0x50040
def PTP_GM_ID_LO_ID : Fld := ⟨addr_PTP_GM_ID_LO, 0, 32⟩
def addr_PTP_GM_ID_HI : Nat := 0x50044
def PTP_GM_ID_HI_ID : Fld := ⟨addr_PTP_GM_ID_HI, 0, 32⟩
def addr_PTP_GM_INFO : Nat := 0x50048
def addr_PTP_UTC : Nat := 0x5004c
def addr_PTP_GM_TTI : Nat := 0x50050
def addr_PTP_P1_LAT : Nat := 0x50060
def addr_PTP_P2_LAT : Nat := 0x50064
def addr_PTP_TSQ_ID (i : Nat) : Nat := 0x50100 + 0x80 * i
def addr_PTP_TSQ_NS (i j : Nat) : Nat := 0x50104 + 0x80 * i + 4 * j
def addr_PTP_TSQ_POP (i : Nat) : Nat := 0x50110 + 0x80 * i
def addr_PTP_RXQ_ID (i : Nat) : Nat := 0x50120 + 0x80 * i
def addr_PTP_RXQ_IN (i j : Nat) : Nat := 0x50124 + 0x80 * i + 4 * j
def addr_PTP_RXQ_CAR (i j : Nat) : Nat := 0x50130 + 0x80 * i + 4 * j
def addr_PTP_RXQ_POP (i : Nat) : Nat := 0x5013c + 0x80 * i
def addr_PTP_TSQ_LOST (i : Nat) : Nat := 0x50f00 + 4 * i
def PTP_TSQ_LOST (i : Nat) : Fld := ⟨addr_PTP_TSQ_LOST i, 0, 32⟩
def addr_PTP_RXQ_LOST (i : Nat) : Nat := 0x50f08 + 4 * i
def PTP_RXQ_LOST (i : Nat) : Fld := ⟨addr_PTP_RXQ_LOST i, 0, 32⟩
def addr_PTP_OUTLIERS : Nat := 0x50f10
def PTP_OUTLIERS : Fld := ⟨addr_PTP_OUTLIERS, 0, 32⟩
def addr_PTP_ANN_TMO : Nat := 0x50f14
def PTP_ANN_TMO : Fld := ⟨addr_PTP_ANN_TMO, 0, 32⟩
def addr_PTP_PORT_SWITCHES : Nat := 0x50f18
def PTP_PORT_SWITCHES : Fld := ⟨addr_PTP_PORT_SWITCHES, 0, 32⟩
def addr_PTP_ARB_IGNORED : Nat := 0x50f1c
def PTP_ARB_IGNORED : Fld := ⟨addr_PTP_ARB_IGNORED, 0, 32⟩
def addr_PTP_NO_PDELAY_CNT : Nat := 0x50f20
def PTP_NO_PDELAY_CNT : Fld := ⟨addr_PTP_NO_PDELAY_CNT, 0, 32⟩
def addr_NET_CTRL : Nat := 0x60004
def NET_CTRL_SUP_INT : Fld := ⟨addr_NET_CTRL, 16, 8⟩
def NET_CTRL_ENTRY_FGT : Fld := ⟨addr_NET_CTRL, 0, 16⟩
def addr_NET_STAT : Nat := 0x60008
def NET_STAT_P3_SPEED : Fld := ⟨addr_NET_STAT, 9, 2⟩
def NET_STAT_NODES : Fld := ⟨addr_NET_STAT, 0, 9⟩
def addr_NET_STAT2 : Nat := 0x6000c
def NET_STAT2_LINK : Fld := ⟨addr_NET_STAT2, 0, 3⟩
def addr_NET_EVT : Nat := 0x60010
def NET_EVT_OVERSIZE : Fld := ⟨addr_NET_EVT, 4, 1⟩
def NET_EVT_STORM : Fld := ⟨addr_NET_EVT, 3, 1⟩
def NET_EVT_WRONG_LAN : Fld := ⟨addr_NET_EVT, 2, 1⟩
def NET_EVT_LINK_UP : Fld := ⟨addr_NET_EVT, 1, 1⟩
def NET_EVT_LINK_DOWN : Fld := ⟨addr_NET_EVT, 0, 1⟩
def addr_NET_PCFG (i : Nat) : Nat := 0x60020 + 4 * i
def NET_PCFG_EN (i : Nat) : Fld := ⟨addr_NET_PCFG i, 31, 1⟩
def NET_PCFG_MEDIA (i : Nat) : Fld := ⟨addr_NET_PCFG i, 26, 2⟩
def NET_PCFG_STORM (i : Nat) : Fld := ⟨addr_NET_PCFG i, 0, 16⟩
def addr_NET_MACLO (i : Nat) : Nat := 0x60040 + 8 * i
def addr_NET_MACHI (i : Nat) : Nat := 0x60044 + 8 * i
def addr_NET_RX (i : Nat) : Nat := 0x60f00 + 4 * i
def NET_RX (i : Nat) : Fld := ⟨addr_NET_RX i, 0, 32⟩
def addr_NET_TX (i : Nat) : Nat := 0x60f0c + 4 * i
def NET_TX (i : Nat) : Fld := ⟨addr_NET_TX i, 0, 32⟩
def addr_NET_FILTERED (i : Nat) : Nat := 0x60f24 + 4 * i
def NET_FILTERED (i : Nat) : Fld := ⟨addr_NET_FILTERED i, 0, 32⟩
def addr_NET_STORM_DROP (i : Nat) : Nat := 0x60f30 + 4 * i
def NET_STORM_DROP (i : Nat) : Fld := ⟨addr_NET_STORM_DROP i, 0, 32⟩
def addr_NET_DUPLICATES : Nat := 0x60f3c
def NET_DUPLICATES : Fld := ⟨addr_NET_DUPLICATES, 0, 32⟩
def addr_NET_WRONGLAN_A : Nat := 0x60f40
def NET_WRONGLAN_A : Fld := ⟨addr_NET_WRONGLAN_A, 0, 32⟩
def addr_NET_WRONGLAN_B : Nat := 0x60f44
def NET_WRONGLAN_B : Fld := ⟨addr_NET_WRONGLAN_B, 0, 32⟩
def addr_NET_OVERSIZE : Nat := 0x60f48
def NET_OVERSIZE : Fld := ⟨addr_NET_OVERSIZE, 0, 32⟩
def addr_SVX_CTRL : Nat := 0x70004
def SVX_CTRL_SIM_ACC : Fld := ⟨addr_SVX_CTRL, 0, 1⟩
def addr_SVX_EVT : Nat := 0x70010
def SVX_EVT_CONFREV : Fld := ⟨addr_SVX_EVT, 4, 1⟩
def SVX_EVT_GAP : Fld := ⟨addr_SVX_EVT, 3, 1⟩
def SVX_EVT_SRC_CHANGE : Fld := ⟨addr_SVX_EVT, 2, 1⟩
def SVX_EVT_VALID : Fld := ⟨addr_SVX_EVT, 1, 1⟩
def SVX_EVT_LOST : Fld := ⟨addr_SVX_EVT, 0, 1⟩
def addr_SVX_SUBVALID : Nat := 0x70020
def addr_SVX_SUBLOST : Nat := 0x70024
def addr_SVX_PUB_CFG (i : Nat) : Nat := 0x70100 + 0x40 * i
def SVX_PUB_CFG_EN (i : Nat) : Fld := ⟨addr_SVX_PUB_CFG i, 31, 1⟩
def SVX_PUB_CFG_RATE (i : Nat) : Fld := ⟨addr_SVX_PUB_CFG i, 30, 1⟩
def SVX_PUB_CFG_PAIRMODE (i : Nat) : Fld := ⟨addr_SVX_PUB_CFG i, 29, 1⟩
def SVX_PUB_CFG_TEST (i : Nat) : Fld := ⟨addr_SVX_PUB_CFG i, 28, 1⟩
def SVX_PUB_CFG_GMID (i : Nat) : Fld := ⟨addr_SVX_PUB_CFG i, 27, 1⟩
def SVX_PUB_CFG_NASDU (i : Nat) : Fld := ⟨addr_SVX_PUB_CFG i, 20, 4⟩
def addr_SVX_PUB_ID (i : Nat) : Nat := 0x70104 + 0x40 * i
def SVX_PUB_ID_APPID (i : Nat) : Fld := ⟨addr_SVX_PUB_ID i, 16, 16⟩
def SVX_PUB_ID_MAC (i : Nat) : Fld := ⟨addr_SVX_PUB_ID i, 0, 16⟩
def addr_SVX_PUB_HASH (i : Nat) : Nat := 0x7010c + 0x40 * i
def addr_SVX_PUB_SRC0 (i : Nat) : Nat := 0x70110 + 0x40 * i
def addr_SVX_PUB_SRC1 (i : Nat) : Nat := 0x70114 + 0x40 * i
def addr_SVX_PUB_ST (i : Nat) : Nat := 0x70118 + 0x40 * i
def SVX_PUB_ST_SMPSYNCH (i : Nat) : Fld := ⟨addr_SVX_PUB_ST i, 16, 2⟩
def SVX_PUB_ST_SMPCNT (i : Nat) : Fld := ⟨addr_SVX_PUB_ST i, 0, 16⟩
def addr_SVX_LOST : Nat := 0x70f00
def SVX_LOST : Fld := ⟨addr_SVX_LOST, 0, 32⟩
def addr_SVX_SRC_CHANGE : Nat := 0x70f04
def SVX_SRC_CHANGE : Fld := ⟨addr_SVX_SRC_CHANGE, 0, 32⟩
def addr_SVX_TEST_IGN : Nat := 0x70f08
def SVX_TEST_IGN : Fld := ⟨addr_SVX_TEST_IGN, 0, 32⟩
def addr_SVX_SUB_CFG (i : Nat) : Nat := 0x71000 + 0x40 * i
def SVX_SUB_CFG_EN (i : Nat) : Fld := ⟨addr_SVX_SUB_CFG i, 31, 1⟩
def SVX_SUB_CFG_RATE (i : Nat) : Fld := ⟨addr_SVX_SUB_CFG i, 30, 1⟩
def SVX_SUB_CFG_TEST_ACC (i : Nat) : Fld := ⟨addr_SVX_SUB_CFG i, 29, 1⟩
def SVX_SUB_CFG_VCHK (i : Nat) : Fld := ⟨addr_SVX_SUB_CFG i, 28, 1⟩
def SVX_SUB_CFG_LEARN_N (i : Nat) : Fld := ⟨addr_SVX_SUB_CFG i, 20, 4⟩
def SVX_SUB_CFG_VID (i : Nat) : Fld := ⟨addr_SVX_SUB_CFG i, 0, 12⟩
def addr_SVX_SUB_ID (i : Nat) : Nat := 0x71004 + 0x40 * i
def SVX_SUB_ID (i : Nat) : Fld := ⟨addr_SVX_SUB_ID i, 0, 32⟩
def addr_SVX_SUB_CONF (i : Nat) : Nat := 0x71008 + 0x40 * i
def SVX_SUB_CONF (i : Nat) : Fld := ⟨addr_SVX_SUB_CONF i, 0, 32⟩
def addr_SVX_SUB_HASH (i : Nat) : Nat := 0x7100c + 0x40 * i
def SVX_SUB_HASH (i : Nat) : Fld := ⟨addr_SVX_SUB_HASH i, 0, 32⟩
def addr_SVX_SUB_TMO (i : Nat) : Nat := 0x71010 + 0x40 * i
def SVX_SUB_TMO_US (i : Nat) : Fld := ⟨addr_SVX_SUB_TMO i, 0, 17⟩
def addr_SVX_SUB_ST (i : Nat) : Nat := 0x71014 + 0x40 * i
def SVX_SUB_ST_SMPCNT (i : Nat) : Fld := ⟨addr_SVX_SUB_ST i, 16, 16⟩
def SVX_SUB_ST_SMPSYNCH (i : Nat) : Fld := ⟨addr_SVX_SUB_ST i, 4, 2⟩
def SVX_SUB_ST_STATE (i : Nat) : Fld := ⟨addr_SVX_SUB_ST i, 0, 2⟩
def addr_SVX_SUB_SMAC_LO (i : Nat) : Nat := 0x71018 + 0x40 * i
def SVX_SUB_SMAC_LO (i : Nat) : Fld := ⟨addr_SVX_SUB_SMAC_LO i, 0, 32⟩
def addr_SVX_SUB_SMAC_HI (i : Nat) : Nat := 0x7101c + 0x40 * i
def SVX_SUB_SMAC_HI (i : Nat) : Fld := ⟨addr_SVX_SUB_SMAC_HI i, 0, 16⟩
def addr_SVX_SUB_LAT (i : Nat) : Nat := 0x71020 + 0x40 * i
def SVX_SUB_LAT (i : Nat) : Fld := ⟨addr_SVX_SUB_LAT i, 0, 32⟩
def addr_SVX_SUB_FRAMES (i : Nat) : Nat := 0x71024 + 0x40 * i
def SVX_SUB_FRAMES (i : Nat) : Fld := ⟨addr_SVX_SUB_FRAMES i, 0, 32⟩
def addr_SVX_SUB_GAP (i : Nat) : Nat := 0x71028 + 0x40 * i
def SVX_SUB_GAP (i : Nat) : Fld := ⟨addr_SVX_SUB_GAP i, 0, 32⟩
def addr_SVX_SUB_LATE (i : Nat) : Nat := 0x7102c + 0x40 * i
def SVX_SUB_LATE (i : Nat) : Fld := ⟨addr_SVX_SUB_LATE i, 0, 32⟩
def addr_SVX_SUB_LOSTN (i : Nat) : Nat := 0x71030 + 0x40 * i
def SVX_SUB_LOSTN (i : Nat) : Fld := ⟨addr_SVX_SUB_LOSTN i, 0, 32⟩
def addr_SVX_SUB_CONFLICT (i : Nat) : Nat := 0x71034 + 0x40 * i
def SVX_SUB_CONFLICT (i : Nat) : Fld := ⟨addr_SVX_SUB_CONFLICT i, 0, 32⟩
def addr_SVX_SUB_CONFREV (i : Nat) : Nat := 0x71038 + 0x40 * i
def SVX_SUB_CONFREV (i : Nat) : Fld := ⟨addr_SVX_SUB_CONFREV i, 0, 32⟩
def addr_SVX_SUB_FOREIGN (i : Nat) : Nat := 0x7103c + 0x40 * i
def SVX_SUB_FOREIGN (i : Nat) : Fld := ⟨addr_SVX_SUB_FOREIGN i, 0, 32⟩
def addr_SVX_SLOT_CFG (i : Nat) : Nat := 0x72000 + 0x10 * i
def SVX_SLOT_CFG_EN (i : Nat) : Fld := ⟨addr_SVX_SLOT_CFG i, 31, 1⟩
def SVX_SLOT_CFG_INV (i : Nat) : Fld := ⟨addr_SVX_SLOT_CFG i, 30, 1⟩
def SVX_SLOT_CFG_QACC (i : Nat) : Fld := ⟨addr_SVX_SLOT_CFG i, 29, 1⟩
def SVX_SLOT_CFG_SYNC_MIN (i : Nat) : Fld := ⟨addr_SVX_SLOT_CFG i, 24, 2⟩
def SVX_SLOT_CFG_STREAM (i : Nat) : Fld := ⟨addr_SVX_SLOT_CFG i, 8, 5⟩
def SVX_SLOT_CFG_CH (i : Nat) : Fld := ⟨addr_SVX_SLOT_CFG i, 0, 4⟩
def addr_SVX_SLOT_SCALE (i : Nat) : Nat := 0x72004 + 0x10 * i
def SVX_SLOT_SCALE (i : Nat) : Fld := ⟨addr_SVX_SLOT_SCALE i, 0, 32⟩
def addr_SVX_SLOT_VAL (i : Nat) : Nat := 0x72008 + 0x10 * i
def SVX_SLOT_VAL (i : Nat) : Fld := ⟨addr_SVX_SLOT_VAL i, 0, 32⟩
def addr_SVX_SLOT_ST (i : Nat) : Nat := 0x7200c + 0x10 * i
def SVX_SLOT_ST_VALID (i : Nat) : Fld := ⟨addr_SVX_SLOT_ST i, 31, 1⟩
def SVX_SLOT_ST_Q (i : Nat) : Fld := ⟨addr_SVX_SLOT_ST i, 0, 14⟩
def addr_GSE_CTRL : Nat := 0x80004
def GSE_CTRL_SIM_ACC : Fld := ⟨addr_GSE_CTRL, 0, 1⟩
def addr_GSE_EVT : Nat := 0x80010
def GSE_EVT_SEQ_ERR : Fld := ⟨addr_GSE_EVT, 3, 1⟩
def GSE_EVT_INCONS : Fld := ⟨addr_GSE_EVT, 2, 1⟩
def GSE_EVT_VALID : Fld := ⟨addr_GSE_EVT, 1, 1⟩
def GSE_EVT_LOST : Fld := ⟨addr_GSE_EVT, 0, 1⟩
def addr_GSE_GB0 : Nat := 0x80020
def addr_GSE_GB1 : Nat := 0x80024
def addr_GSE_SUBV (i : Nat) : Nat := 0x80030 + 4 * i
def addr_GSE_MFT0 : Nat := 0x80050
def addr_GSE_MFT1 : Nat := 0x80054
def addr_GSE_GT : Nat := 0x80058
def addr_GSE_GTMAP (i j : Nat) : Nat := 0x80080 + 8 * i + 4 * j
def addr_GSE_GB (i : Nat) : Nat := 0x80100 + 4 * i
def GSE_GB_EN (i : Nat) : Fld := ⟨addr_GSE_GB i, 31, 1⟩
def GSE_GB_INV (i : Nat) : Fld := ⟨addr_GSE_GB i, 30, 1⟩
def GSE_GB_SUB (i : Nat) : Fld := ⟨addr_GSE_GB i, 16, 7⟩
def GSE_GB_ELEM (i : Nat) : Fld := ⟨addr_GSE_GB i, 0, 6⟩
def addr_GSE_PUB_CFG (i : Nat) : Nat := 0x80400 + 0x40 * i
def GSE_PUB_CFG_EN (i : Nat) : Fld := ⟨addr_GSE_PUB_CFG i, 31, 1⟩
def GSE_PUB_CFG_PAIRMODE (i : Nat) : Fld := ⟨addr_GSE_PUB_CFG i, 30, 1⟩
def GSE_PUB_CFG_TEST (i : Nat) : Fld := ⟨addr_GSE_PUB_CFG i, 29, 1⟩
def GSE_PUB_CFG_NELEM (i : Nat) : Fld := ⟨addr_GSE_PUB_CFG i, 16, 6⟩
def addr_GSE_PUB_ID (i : Nat) : Nat := 0x80404 + 0x40 * i
def GSE_PUB_ID_APPID (i : Nat) : Fld := ⟨addr_GSE_PUB_ID i, 16, 16⟩
def addr_GSE_PUB_HASH (i : Nat) : Nat := 0x8040c + 0x40 * i
def addr_GSE_PUB_TIM (i : Nat) : Nat := 0x80410 + 0x40 * i
def GSE_PUB_TIM_T0 (i : Nat) : Fld := ⟨addr_GSE_PUB_TIM i, 16, 16⟩
def GSE_PUB_TIM_T1 (i : Nat) : Fld := ⟨addr_GSE_PUB_TIM i, 0, 16⟩
def addr_GSE_PUB_STNUM (i : Nat) : Nat := 0x80414 + 0x40 * i
def GSE_PUB_STNUM (i : Nat) : Fld := ⟨addr_GSE_PUB_STNUM i, 0, 32⟩
def addr_GSE_PUB_SQNUM (i : Nat) : Nat := 0x80418 + 0x40 * i
def GSE_PUB_SQNUM (i : Nat) : Fld := ⟨addr_GSE_PUB_SQNUM i, 0, 32⟩
def addr_GSE_LOST : Nat := 0x80f00
def GSE_LOST : Fld := ⟨addr_GSE_LOST, 0, 32⟩
def addr_GSE_INCONS : Nat := 0x80f04
def GSE_INCONS : Fld := ⟨addr_GSE_INCONS, 0, 32⟩
def addr_GSE_SEQ_ERR : Nat := 0x80f08
def GSE_SEQ_ERR : Fld := ⟨addr_GSE_SEQ_ERR, 0, 32⟩
def addr_GSE_TYPE_ERR : Nat := 0x80f0c
def GSE_TYPE_ERR : Fld := ⟨addr_GSE_TYPE_ERR, 0, 32⟩
def addr_GSE_CONFREV : Nat := 0x80f10
def GSE_CONFREV : Fld := ⟨addr_GSE_CONFREV, 0, 32⟩
def addr_GSE_NDSCOM : Nat := 0x80f14
def GSE_NDSCOM : Fld := ⟨addr_GSE_NDSCOM, 0, 32⟩
def addr_GSE_TEST_IGN : Nat := 0x80f18
def GSE_TEST_IGN : Fld := ⟨addr_GSE_TEST_IGN, 0, 32⟩
def addr_GSE_SUB_CFG (i : Nat) : Nat := 0x81000 + 0x20 * i
def GSE_SUB_CFG_EN (i : Nat) : Fld := ⟨addr_GSE_SUB_CFG i, 31, 1⟩
def GSE_SUB_CFG_TEST_ACC (i : Nat) : Fld := ⟨addr_GSE_SUB_CFG i, 30, 1⟩
def GSE_SUB_CFG_VCHK (i : Nat) : Fld := ⟨addr_GSE_SUB_CFG i, 29, 1⟩
def GSE_SUB_CFG_VID (i : Nat) : Fld := ⟨addr_GSE_SUB_CFG i, 0, 12⟩
def addr_GSE_SUB_ID (i : Nat) : Nat := 0x81004 + 0x20 * i
def GSE_SUB_ID (i : Nat) : Fld := ⟨addr_GSE_SUB_ID i, 0, 32⟩
def addr_GSE_SUB_CONF (i : Nat) : Nat := 0x81008 + 0x20 * i
def GSE_SUB_CONF (i : Nat) : Fld := ⟨addr_GSE_SUB_CONF i, 0, 32⟩
def addr_GSE_SUB_HASH (i : Nat) : Nat := 0x8100c + 0x20 * i
def GSE_SUB_HASH (i : Nat) : Fld := ⟨addr_GSE_SUB_HASH i, 0, 32⟩
def addr_GSE_SUB_ST (i : Nat) : Nat := 0x81010 + 0x20 * i
def GSE_SUB_ST_STATE (i : Nat) : Fld := ⟨addr_GSE_SUB_ST i, 0, 2⟩
def addr_GSE_SUB_STNUM (i : Nat) : Nat := 0x81014 + 0x20 * i
def GSE_SUB_STNUM (i : Nat) : Fld := ⟨addr_GSE_SUB_STNUM i, 0, 32⟩
def addr_GSE_SUB_SQNUM (i : Nat) : Nat := 0x81018 + 0x20 * i
def GSE_SUB_SQNUM (i : Nat) : Fld := ⟨addr_GSE_SUB_SQNUM i, 0, 32⟩
def addr_GSE_SUB_TAL (i : Nat) : Nat := 0x8101c + 0x20 * i
def addr_GSE_ELEM (i j : Nat) : Nat := 0x82000 + 0x80 * i + 4 * j
def GSE_ELEM_SRC (i j : Nat) : Fld := ⟨addr_GSE_ELEM i j, 0, 12⟩
def addr_LNK_LCTRL (i : Nat) : Nat := 0x100004 + 0x400 * i
def LNK_LCTRL_TEST (i : Nat) : Fld := ⟨addr_LNK_LCTRL i, 10, 2⟩
def LNK_LCTRL_ADAPT (i : Nat) : Fld := ⟨addr_LNK_LCTRL i, 8, 2⟩
def LNK_LCTRL_BLK_AUTO (i : Nat) : Fld := ⟨addr_LNK_LCTRL i, 7, 1⟩
def LNK_LCTRL_RX_REQ (i : Nat) : Fld := ⟨addr_LNK_LCTRL i, 4, 2⟩
def LNK_LCTRL_TX_REQ (i : Nat) : Fld := ⟨addr_LNK_LCTRL i, 2, 2⟩
def LNK_LCTRL_RATE (i : Nat) : Fld := ⟨addr_LNK_LCTRL i, 0, 1⟩
def addr_LNK_LSTAT (i : Nat) : Nat := 0x100008 + 0x400 * i
def LNK_LSTAT_SERVED (i : Nat) : Fld := ⟨addr_LNK_LSTAT i, 31, 1⟩
def LNK_LSTAT_PEER (i : Nat) : Fld := ⟨addr_LNK_LSTAT i, 24, 7⟩
def LNK_LSTAT_HDR_RUN (i : Nat) : Fld := ⟨addr_LNK_LSTAT i, 17, 7⟩
def LNK_LSTAT_LQF_ALARM (i : Nat) : Fld := ⟨addr_LNK_LSTAT i, 13, 1⟩
def LNK_LSTAT_LQF_WARN (i : Nat) : Fld := ⟨addr_LNK_LSTAT i, 12, 1⟩
def LNK_LSTAT_BLK_ST (i : Nat) : Fld := ⟨addr_LNK_LSTAT i, 8, 2⟩
def LNK_LSTAT_RX_PS (i : Nat) : Fld := ⟨addr_LNK_LSTAT i, 4, 2⟩
def LNK_LSTAT_TX_PS (i : Nat) : Fld := ⟨addr_LNK_LSTAT i, 2, 2⟩
def addr_LNK_LEVT (i : Nat) : Nat := 0x100010 + 0x400 * i
def addr_LNK_LEVT_EN (i : Nat) : Nat := 0x100014 + 0x400 * i
def addr_LNK_LQF (i : Nat) : Nat := 0x100020 + 0x400 * i
def LNK_LQF_LQF (i : Nat) : Fld := ⟨addr_LNK_LQF i, 24, 8⟩
def LNK_LQF_H (i : Nat) : Fld := ⟨addr_LNK_LQF i, 16, 8⟩
def LNK_LQF_V (i : Nat) : Fld := ⟨addr_LNK_LQF i, 0, 10⟩
def addr_LNK_LQF_THR (i : Nat) : Nat := 0x100024 + 0x400 * i
def LNK_LQF_THR_WARN (i : Nat) : Fld := ⟨addr_LNK_LQF_THR i, 8, 8⟩
def LNK_LQF_THR_ALARM (i : Nat) : Fld := ⟨addr_LNK_LQF_THR i, 0, 8⟩
def addr_LNK_EQ0 (i : Nat) : Nat := 0x100028 + 0x400 * i
def LNK_EQ0_PEAK (i : Nat) : Fld := ⟨addr_LNK_EQ0 i, 8, 5⟩
def LNK_EQ0_GAIN (i : Nat) : Fld := ⟨addr_LNK_EQ0 i, 0, 4⟩
def addr_LNK_EQ1 (i : Nat) : Nat := 0x10002c + 0x400 * i
def LNK_EQ1_DFE1 (i : Nat) : Fld := ⟨addr_LNK_EQ1 i, 26, 6⟩
def LNK_EQ1_DFE2 (i : Nat) : Fld := ⟨addr_LNK_EQ1 i, 21, 5⟩
def LNK_EQ1_DFE3 (i : Nat) : Fld := ⟨addr_LNK_EQ1 i, 16, 5⟩
def LNK_EQ1_DFE4 (i : Nat) : Fld := ⟨addr_LNK_EQ1 i, 11, 5⟩
def LNK_EQ1_DFE5 (i : Nat) : Fld := ⟨addr_LNK_EQ1 i, 6, 5⟩
def addr_LNK_SLIP (i : Nat) : Nat := 0x100030 + 0x400 * i
def LNK_SLIP_POS (i : Nat) : Fld := ⟨addr_LNK_SLIP i, 0, 7⟩
def addr_LNK_FI_CTRL (i : Nat) : Nat := 0x100040 + 0x400 * i
def LNK_FI_CTRL_EN (i : Nat) : Fld := ⟨addr_LNK_FI_CTRL i, 31, 1⟩
def LNK_FI_CTRL_DIR (i : Nat) : Fld := ⟨addr_LNK_FI_CTRL i, 10, 2⟩
def LNK_FI_CTRL_ACTION (i : Nat) : Fld := ⟨addr_LNK_FI_CTRL i, 8, 2⟩
def LNK_FI_CTRL_PATTERN (i : Nat) : Fld := ⟨addr_LNK_FI_CTRL i, 6, 2⟩
def LNK_FI_CTRL_TYPES (i : Nat) : Fld := ⟨addr_LNK_FI_CTRL i, 0, 5⟩
def addr_LNK_FI_PARAM (i : Nat) : Nat := 0x100044 + 0x400 * i
def LNK_FI_PARAM_COUNT (i : Nat) : Fld := ⟨addr_LNK_FI_PARAM i, 16, 16⟩
def LNK_FI_PARAM_N (i : Nat) : Fld := ⟨addr_LNK_FI_PARAM i, 0, 16⟩
def addr_LNK_FI_SEED (i : Nat) : Nat := 0x100048 + 0x400 * i
def addr_LNK_HDR_ERR (i : Nat) : Nat := 0x100100 + 0x400 * i
def LNK_HDR_ERR (i : Nat) : Fld := ⟨addr_LNK_HDR_ERR i, 0, 32⟩
def addr_LNK_BLK_LOSS (i : Nat) : Nat := 0x100104 + 0x400 * i
def LNK_BLK_LOSS (i : Nat) : Fld := ⟨addr_LNK_BLK_LOSS i, 0, 32⟩
def addr_LNK_WAKES (i : Nat) : Nat := 0x100108 + 0x400 * i
def LNK_WAKES (i : Nat) : Fld := ⟨addr_LNK_WAKES i, 0, 32⟩
def addr_LNK_FI_COUNT (i : Nat) : Nat := 0x10010c + 0x400 * i
def LNK_FI_COUNT (i : Nat) : Fld := ⟨addr_LNK_FI_COUNT i, 0, 32⟩
def addr_LNK_PRBS_ERR (i : Nat) : Nat := 0x100110 + 0x400 * i
def LNK_PRBS_ERR (i : Nat) : Fld := ⟨addr_LNK_PRBS_ERR i, 0, 32⟩
def addr_LNK_BUOY_MISS (i : Nat) : Nat := 0x100114 + 0x400 * i
def LNK_BUOY_MISS (i : Nat) : Fld := ⟨addr_LNK_BUOY_MISS i, 0, 32⟩
def addr_LNK_LQF_ALARMS (i : Nat) : Nat := 0x100118 + 0x400 * i
def LNK_LQF_ALARMS (i : Nat) : Fld := ⟨addr_LNK_LQF_ALARMS i, 0, 32⟩
def addr_LNK_CTRL : Nat := 0x112004
def LNK_CTRL_BUOY_INT : Fld := ⟨addr_LNK_CTRL, 16, 11⟩
def LNK_CTRL_WAKE_BLK : Fld := ⟨addr_LNK_CTRL, 8, 8⟩
def addr_LNK_STAT : Nat := 0x112008
def LNK_STAT_BOND_ST : Fld := ⟨addr_LNK_STAT, 0, 2⟩
def addr_LNK_EVT : Nat := 0x112010
def LNK_EVT_FI_REFUSED : Fld := ⟨addr_LNK_EVT, 6, 1⟩
def LNK_EVT_REMAP_REFUSED : Fld := ⟨addr_LNK_EVT, 5, 1⟩
def LNK_EVT_REMAP_DONE : Fld := ⟨addr_LNK_EVT, 4, 1⟩
def LNK_EVT_DESKEW_FAIL : Fld := ⟨addr_LNK_EVT, 3, 1⟩
def LNK_EVT_BOND_UP : Fld := ⟨addr_LNK_EVT, 2, 1⟩
def LNK_EVT_BOND_DOWN : Fld := ⟨addr_LNK_EVT, 1, 1⟩
def LNK_EVT_LANE : Fld := ⟨addr_LNK_EVT, 0, 1⟩
def addr_LNK_LEVT_SUM0 : Nat := 0x112020
def addr_LNK_LEVT_SUM1 : Nat := 0x112024
def addr_LNK_LEVT_SUM2 : Nat := 0x112028
def addr_LNK_REMAP (i : Nat) : Nat := 0x112040 + 4 * i
def LNK_REMAP_EN (i : Nat) : Fld := ⟨addr_LNK_REMAP i, 31, 1⟩
def LNK_REMAP_SRC (i : Nat) : Fld := ⟨addr_LNK_REMAP i, 0, 7⟩
def addr_LNK_BOND_SKEW : Nat := 0x112050
def addr_LNK_REMAPS : Nat := 0x112f00
def LNK_REMAPS : Fld := ⟨addr_LNK_REMAPS, 0, 32⟩
def addr_LNK_REMAP_REFUSED : Nat := 0x112f04
def LNK_REMAP_REFUSED : Fld := ⟨addr_LNK_REMAP_REFUSED, 0, 32⟩
def addr_LNK_FI_REFUSED : Nat := 0x112f08
def LNK_FI_REFUSED : Fld := ⟨addr_LNK_FI_REFUSED, 0, 32⟩
def addr_LNK_BOND_DOWN : Nat := 0x112f0c
def LNK_BOND_DOWN : Fld := ⟨addr_LNK_BOND_DOWN, 0, 32⟩
def addr_LNK_DESKEW_FAIL : Nat := 0x112f10
def LNK_DESKEW_FAIL : Fld := ⟨addr_LNK_DESKEW_FAIL, 0, 32⟩
def addr_TWL_CTRL : Nat := 0x120004
def TWL_CTRL_TXN_TMO : Fld := ⟨addr_TWL_CTRL, 16, 16⟩
def TWL_CTRL_XINT : Fld := ⟨addr_TWL_CTRL, 8, 8⟩
def TWL_CTRL_DEPART : Fld := ⟨addr_TWL_CTRL, 0, 8⟩
def addr_TWL_STAT : Nat := 0x120008
def TWL_STAT_INFLIGHT : Fld := ⟨addr_TWL_STAT, 16, 10⟩
def TWL_STAT_BOARDED : Fld := ⟨addr_TWL_STAT, 0, 9⟩
def addr_TWL_EPCFG : Nat := 0x12000c
def TWL_EPCFG_LEASE_PERIODS : Fld := ⟨addr_TWL_EPCFG, 8, 5⟩
def TWL_EPCFG_COAST : Fld := ⟨addr_TWL_EPCFG, 0, 6⟩
def addr_TWL_EVT : Nat := 0x120010
def TWL_EVT_HORN_SENT : Fld := ⟨addr_TWL_EVT, 10, 1⟩
def TWL_EVT_GD_LATCH : Fld := ⟨addr_TWL_EVT, 9, 1⟩
def TWL_EVT_NAN : Fld := ⟨addr_TWL_EVT, 8, 1⟩
def TWL_EVT_FOREIGN : Fld := ⟨addr_TWL_EVT, 7, 1⟩
def TWL_EVT_BAD_FRAME : Fld := ⟨addr_TWL_EVT, 6, 1⟩
def TWL_EVT_LATE_RSP : Fld := ⟨addr_TWL_EVT, 5, 1⟩
def TWL_EVT_TXN_FULL : Fld := ⟨addr_TWL_EVT, 4, 1⟩
def TWL_EVT_XALLOW : Fld := ⟨addr_TWL_EVT, 3, 1⟩
def TWL_EVT_REFUSED : Fld := ⟨addr_TWL_EVT, 2, 1⟩
def TWL_EVT_DEPARTED : Fld := ⟨addr_TWL_EVT, 1, 1⟩
def TWL_EVT_BOARDED : Fld := ⟨addr_TWL_EVT, 0, 1⟩
def addr_TWL_HORN : Nat := 0x120020
def TWL_HORN_MASK : Fld := ⟨addr_TWL_HORN, 16, 16⟩
def TWL_HORN_HSEQ : Fld := ⟨addr_TWL_HORN, 0, 8⟩
def addr_TWL_TXQ_CMD : Nat := 0x120040
def TWL_TXQ_CMD_OP : Fld := ⟨addr_TWL_TXQ_CMD, 29, 3⟩
def TWL_TXQ_CMD_CELL : Fld := ⟨addr_TWL_TXQ_CMD, 16, 8⟩
def TWL_TXQ_CMD_ADDR : Fld := ⟨addr_TWL_TXQ_CMD, 0, 16⟩
def addr_TWL_TXQ_DATA : Nat := 0x120044
def TWL_TXQ_DATA_DATA : Fld := ⟨addr_TWL_TXQ_DATA, 0, 32⟩
def addr_TWL_TXQ_GO : Nat := 0x120048
def addr_TWL_TXQ_STAT : Nat := 0x12004c
def TWL_TXQ_STAT_ACCEPTED : Fld := ⟨addr_TWL_TXQ_STAT, 31, 1⟩
def TWL_TXQ_STAT_REASON : Fld := ⟨addr_TWL_TXQ_STAT, 24, 4⟩
def TWL_TXQ_STAT_SLOT : Fld := ⟨addr_TWL_TXQ_STAT, 0, 9⟩
def addr_TWL_TXC_ID : Nat := 0x120050
def TWL_TXC_ID_VALID : Fld := ⟨addr_TWL_TXC_ID, 31, 1⟩
def TWL_TXC_ID_STATUS : Fld := ⟨addr_TWL_TXC_ID, 28, 3⟩
def TWL_TXC_ID_COUNT : Fld := ⟨addr_TWL_TXC_ID, 18, 10⟩
def TWL_TXC_ID_SLOT : Fld := ⟨addr_TWL_TXC_ID, 0, 9⟩
def addr_TWL_TXC_ADDR : Nat := 0x120054
def TWL_TXC_ADDR_OP : Fld := ⟨addr_TWL_TXC_ADDR, 29, 3⟩
def TWL_TXC_ADDR_CELL : Fld := ⟨addr_TWL_TXC_ADDR, 16, 8⟩
def TWL_TXC_ADDR_ADDR : Fld := ⟨addr_TWL_TXC_ADDR, 0, 16⟩
def addr_TWL_TXC_DATA : Nat := 0x120058
def addr_TWL_TXC_POP : Nat := 0x12005c
def addr_TWL_STALE (i : Nat) : Nat := 0x120080 + 4 * i
def addr_TWL_XALLOW (i : Nat) : Nat := 0x120100 + 4 * i
def TWL_XALLOW_ALLOW (i : Nat) : Fld := ⟨addr_TWL_XALLOW i, 0, 16⟩
def addr_TWL_BOARDS : Nat := 0x120f00
def TWL_BOARDS : Fld := ⟨addr_TWL_BOARDS, 0, 32⟩
def addr_TWL_DEPARTS : Nat := 0x120f04
def TWL_DEPARTS : Fld := ⟨addr_TWL_DEPARTS, 0, 32⟩
def addr_TWL_REFUSALS : Nat := 0x120f08
def TWL_REFUSALS : Fld := ⟨addr_TWL_REFUSALS, 0, 32⟩
def addr_TWL_XALLOW_CNT : Nat := 0x120f0c
def TWL_XALLOW_CNT : Fld := ⟨addr_TWL_XALLOW_CNT, 0, 32⟩
def addr_TWL_TXN_FULL : Nat := 0x120f10
def TWL_TXN_FULL : Fld := ⟨addr_TWL_TXN_FULL, 0, 32⟩
def addr_TWL_TXN_TMO : Nat := 0x120f14
def TWL_TXN_TMO : Fld := ⟨addr_TWL_TXN_TMO, 0, 32⟩
def addr_TWL_LATE_RSP : Nat := 0x120f18
def TWL_LATE_RSP : Fld := ⟨addr_TWL_LATE_RSP, 0, 32⟩
def addr_TWL_BAD_FRAME : Nat := 0x120f1c
def TWL_BAD_FRAME : Fld := ⟨addr_TWL_BAD_FRAME, 0, 32⟩
def addr_TWL_ABORTS : Nat := 0x120f20
def TWL_ABORTS : Fld := ⟨addr_TWL_ABORTS, 0, 32⟩
def addr_TWL_FOREIGN : Nat := 0x120f24
def TWL_FOREIGN : Fld := ⟨addr_TWL_FOREIGN, 0, 32⟩
def addr_TWL_NAN : Nat := 0x120f28
def TWL_NAN : Fld := ⟨addr_TWL_NAN, 0, 32⟩
def addr_TWL_HORNS : Nat := 0x120f2c
def TWL_HORNS : Fld := ⟨addr_TWL_HORNS, 0, 32⟩
def addr_TWL_CST (i : Nat) : Nat := 0x121000 + 0x20 * i
def TWL_CST_STALE (i : Nat) : Fld := ⟨addr_TWL_CST i, 31, 1⟩
def TWL_CST_REASON (i : Nat) : Fld := ⟨addr_TWL_CST i, 16, 8⟩
def TWL_CST_VER (i : Nat) : Fld := ⟨addr_TWL_CST i, 10, 2⟩
def TWL_CST_POS (i : Nat) : Fld := ⟨addr_TWL_CST i, 8, 2⟩
def TWL_CST_LANE (i : Nat) : Fld := ⟨addr_TWL_CST i, 2, 6⟩
def TWL_CST_STATE (i : Nat) : Fld := ⟨addr_TWL_CST i, 0, 2⟩
def addr_TWL_XT (i : Nat) : Nat := 0x121004 + 0x20 * i
def TWL_XT_XVAL (i : Nat) : Fld := ⟨addr_TWL_XT i, 0, 24⟩
def addr_TWL_CELL_EPID (i : Nat) : Nat := 0x121008 + 0x20 * i
def addr_TWL_CELL_SER_LO (i : Nat) : Nat := 0x12100c + 0x20 * i
def addr_TWL_CELL_SER_HI (i : Nat) : Nat := 0x121010 + 0x20 * i
def addr_TWL_CELL_BEP (i : Nat) : Nat := 0x121014 + 0x20 * i
def TWL_CELL_BEP_BEPOCH (i : Nat) : Fld := ⟨addr_TWL_CELL_BEP i, 0, 16⟩
def addr_TWL_CELL_TLMF (i : Nat) : Nat := 0x121018 + 0x20 * i
def TWL_CELL_TLMF_GD_LAT (i : Nat) : Fld := ⟨addr_TWL_CELL_TLMF i, 25, 7⟩
def TWL_CELL_TLMF_GD_ACT (i : Nat) : Fld := ⟨addr_TWL_CELL_TLMF i, 18, 7⟩
def TWL_CELL_TLMF_EXEC (i : Nat) : Fld := ⟨addr_TWL_CELL_TLMF i, 16, 2⟩
def TWL_CELL_TLMF_COASTN (i : Nat) : Fld := ⟨addr_TWL_CELL_TLMF i, 8, 8⟩
def TWL_CELL_TLMF_FLAGS (i : Nat) : Fld := ⟨addr_TWL_CELL_TLMF i, 2, 6⟩
def addr_TWL_CELL_AUX (i : Nat) : Nat := 0x12101c + 0x20 * i
def addr_TWL_CNT (i : Nat) : Nat := 0x123000 + 4 * i
def TWL_CNT_MISS (i : Nat) : Fld := ⟨addr_TWL_CNT i, 16, 16⟩
def TWL_CNT_LATE (i : Nat) : Fld := ⟨addr_TWL_CNT i, 0, 16⟩
def addr_TWL_EPDT (i : Nat) : Nat := 0x124000 + 0x10 * i
def TWL_EPDT_DEADT (i : Nat) : Fld := ⟨addr_TWL_EPDT i, 0, 20⟩
def addr_TWL_EPGDA (i : Nat) : Nat := 0x124004 + 0x10 * i
def TWL_EPGDA_GDRV3 (i : Nat) : Fld := ⟨addr_TWL_EPGDA i, 24, 8⟩
def TWL_EPGDA_GDRV2 (i : Nat) : Fld := ⟨addr_TWL_EPGDA i, 16, 8⟩
def TWL_EPGDA_GDRV1 (i : Nat) : Fld := ⟨addr_TWL_EPGDA i, 8, 8⟩
def TWL_EPGDA_GDRV0 (i : Nat) : Fld := ⟨addr_TWL_EPGDA i, 0, 8⟩
def addr_TWL_EPGDB (i : Nat) : Nat := 0x124008 + 0x10 * i
def TWL_EPGDB_TRIES (i : Nat) : Fld := ⟨addr_TWL_EPGDB i, 24, 4⟩
def TWL_EPGDB_WAIT (i : Nat) : Fld := ⟨addr_TWL_EPGDB i, 16, 8⟩
def TWL_EPGDB_GDRV5 (i : Nat) : Fld := ⟨addr_TWL_EPGDB i, 8, 8⟩
def TWL_EPGDB_GDRV4 (i : Nat) : Fld := ⟨addr_TWL_EPGDB i, 0, 8⟩
def addr_CBK_CTRL : Nat := 0x140004
def CBK_CTRL_IDLE_L6 : Fld := ⟨addr_CBK_CTRL, 6, 2⟩
def addr_CBK_STAT : Nat := 0x140008
def CBK_STAT_LATE_LANES : Fld := ⟨addr_CBK_STAT, 24, 7⟩
def CBK_STAT_PENDING : Fld := ⟨addr_CBK_STAT, 0, 24⟩
def addr_CBK_EVT : Nat := 0x140010
def CBK_EVT_COMMIT_DONE : Fld := ⟨addr_CBK_EVT, 13, 1⟩
def CBK_EVT_WRITE_REFUSED : Fld := ⟨addr_CBK_EVT, 12, 1⟩
def CBK_EVT_DLCAL : Fld := ⟨addr_CBK_EVT, 11, 1⟩
def CBK_EVT_OVR_REFUSED : Fld := ⟨addr_CBK_EVT, 10, 1⟩
def CBK_EVT_LB_INTLK : Fld := ⟨addr_CBK_EVT, 9, 1⟩
def CBK_EVT_NAN : Fld := ⟨addr_CBK_EVT, 8, 1⟩
def CBK_EVT_CLAMP : Fld := ⟨addr_CBK_EVT, 7, 1⟩
def CBK_EVT_PENDING_STALE : Fld := ⟨addr_CBK_EVT, 6, 1⟩
def CBK_EVT_EDGE_OVF : Fld := ⟨addr_CBK_EVT, 5, 1⟩
def CBK_EVT_BSR : Fld := ⟨addr_CBK_EVT, 4, 1⟩
def CBK_EVT_MIN_DEFER : Fld := ⟨addr_CBK_EVT, 3, 1⟩
def CBK_EVT_MING_MERGE : Fld := ⟨addr_CBK_EVT, 2, 1⟩
def CBK_EVT_MINP_DROP : Fld := ⟨addr_CBK_EVT, 1, 1⟩
def CBK_EVT_LATE_LANE : Fld := ⟨addr_CBK_EVT, 0, 1⟩
def addr_CBK_LATE0 : Nat := 0x140020
def addr_CBK_LATE1 : Nat := 0x140024
def addr_CBK_ARM (i : Nat) : Nat := 0x140800 + 4 * i
def CBK_ARM_NACT (i : Nat) : Fld := ⟨addr_CBK_ARM i, 16, 8⟩
def CBK_ARM_LEVEL (i : Nat) : Fld := ⟨addr_CBK_ARM i, 0, 9⟩
def addr_CBK_LATE_LANE : Nat := 0x140f00
def CBK_LATE_LANE : Fld := ⟨addr_CBK_LATE_LANE, 0, 32⟩
def addr_CBK_MINP_DROP : Nat := 0x140f04
def CBK_MINP_DROP : Fld := ⟨addr_CBK_MINP_DROP, 0, 32⟩
def addr_CBK_MING_MERGE : Nat := 0x140f08
def CBK_MING_MERGE : Fld := ⟨addr_CBK_MING_MERGE, 0, 32⟩
def addr_CBK_MIN_DEFER : Nat := 0x140f0c
def CBK_MIN_DEFER : Fld := ⟨addr_CBK_MIN_DEFER, 0, 32⟩
def addr_CBK_BSR_INS : Nat := 0x140f10
def CBK_BSR_INS : Fld := ⟨addr_CBK_BSR_INS, 0, 32⟩
def addr_CBK_EDGE_OVF : Nat := 0x140f14
def CBK_EDGE_OVF : Fld := ⟨addr_CBK_EDGE_OVF, 0, 32⟩
def addr_CBK_PENDING_STALE : Nat := 0x140f18
def CBK_PENDING_STALE : Fld := ⟨addr_CBK_PENDING_STALE, 0, 32⟩
def addr_CBK_CLAMP : Nat := 0x140f1c
def CBK_CLAMP : Fld := ⟨addr_CBK_CLAMP, 0, 32⟩
def addr_CBK_NAN : Nat := 0x140f20
def CBK_NAN : Fld := ⟨addr_CBK_NAN, 0, 32⟩
def addr_CBK_LB_INTLK : Nat := 0x140f24
def CBK_LB_INTLK : Fld := ⟨addr_CBK_LB_INTLK, 0, 32⟩
def addr_CBK_OVR_REFUSED : Nat := 0x140f28
def CBK_OVR_REFUSED : Fld := ⟨addr_CBK_OVR_REFUSED, 0, 32⟩
def addr_CBK_WRITE_REFUSED : Nat := 0x140f2c
def CBK_WRITE_REFUSED : Fld := ⟨addr_CBK_WRITE_REFUSED, 0, 32⟩
def addr_CBK_DLCAL_FAIL : Nat := 0x140f30
def CBK_DLCAL_FAIL : Fld := ⟨addr_CBK_DLCAL_FAIL, 0, 32⟩
def addr_CBK_CG_CFG (i : Nat) : Nat := 0x141000 + 0x40 * i
def CBK_CG_CFG_BSR_EN (i : Nat) : Fld := ⟨addr_CBK_CG_CFG i, 19, 1⟩
def CBK_CG_CFG_PSRC (i : Nat) : Fld := ⟨addr_CBK_CG_CFG i, 17, 2⟩
def CBK_CG_CFG_SPREAD (i : Nat) : Fld := ⟨addr_CBK_CG_CFG i, 16, 1⟩
def CBK_CG_CFG_L1SHIFT (i : Nat) : Fld := ⟨addr_CBK_CG_CFG i, 15, 1⟩
def CBK_CG_CFG_LATCH (i : Nat) : Fld := ⟨addr_CBK_CG_CFG i, 10, 2⟩
def CBK_CG_CFG_MODE (i : Nat) : Fld := ⟨addr_CBK_CG_CFG i, 0, 3⟩
def addr_CBK_CG_CTRL (i : Nat) : Nat := 0x141004 + 0x40 * i
def CBK_CG_CTRL_MAN (i : Nat) : Fld := ⟨addr_CBK_CG_CTRL i, 1, 1⟩
def CBK_CG_CTRL_DIS (i : Nat) : Fld := ⟨addr_CBK_CG_CTRL i, 0, 1⟩
def addr_CBK_CG_STAT (i : Nat) : Nat := 0x141008 + 0x40 * i
def CBK_CG_STAT_NACT (i : Nat) : Fld := ⟨addr_CBK_CG_STAT i, 16, 8⟩
def CBK_CG_STAT_PSTALE (i : Nat) : Fld := ⟨addr_CBK_CG_STAT i, 3, 1⟩
def CBK_CG_STAT_PEND (i : Nat) : Fld := ⟨addr_CBK_CG_STAT i, 2, 1⟩
def CBK_CG_STAT_MAN (i : Nat) : Fld := ⟨addr_CBK_CG_STAT i, 1, 1⟩
def CBK_CG_STAT_DIS (i : Nat) : Fld := ⟨addr_CBK_CG_STAT i, 0, 1⟩
def addr_CBK_CG_PER (i : Nat) : Nat := 0x14100c + 0x40 * i
def CBK_CG_PER_TC (i : Nat) : Fld := ⟨addr_CBK_CG_PER i, 0, 26⟩
def addr_CBK_CG_PMIN (i : Nat) : Nat := 0x141010 + 0x40 * i
def CBK_CG_PMIN_TC (i : Nat) : Fld := ⟨addr_CBK_CG_PMIN i, 0, 26⟩
def addr_CBK_CG_PMAX (i : Nat) : Nat := 0x141014 + 0x40 * i
def CBK_CG_PMAX_TC (i : Nat) : Fld := ⟨addr_CBK_CG_PMAX i, 0, 26⟩
def addr_CBK_CG_MIN (i : Nat) : Nat := 0x141018 + 0x40 * i
def CBK_CG_MIN_MING (i : Nat) : Fld := ⟨addr_CBK_CG_MIN i, 16, 16⟩
def CBK_CG_MIN_MINP (i : Nat) : Fld := ⟨addr_CBK_CG_MIN i, 0, 16⟩
def addr_CBK_CG_BSR (i : Nat) : Nat := 0x14101c + 0x40 * i
def CBK_CG_BSR_HOLD (i : Nat) : Fld := ⟨addr_CBK_CG_BSR i, 16, 16⟩
def CBK_CG_BSR_MIN (i : Nat) : Fld := ⟨addr_CBK_CG_BSR i, 0, 16⟩
def addr_CBK_CG_SH_PER (i : Nat) : Nat := 0x141020 + 0x40 * i
def CBK_CG_SH_PER_TC (i : Nat) : Fld := ⟨addr_CBK_CG_SH_PER i, 0, 26⟩
def addr_CBK_CG_SH_U (i j : Nat) : Nat := 0x141024 + 0x40 * i + 4 * j
def CBK_CG_SH_U (i j : Nat) : Fld := ⟨addr_CBK_CG_SH_U i j, 0, 24⟩
def addr_CBK_CG_APER (i : Nat) : Nat := 0x14103c + 0x40 * i
def CBK_CG_APER_TC (i : Nat) : Fld := ⟨addr_CBK_CG_APER i, 0, 26⟩
def addr_CBK_CELL_U0 (i : Nat) : Nat := 0x144000 + 0x20 * i
def addr_CBK_CELL_U1 (i : Nat) : Nat := 0x144004 + 0x20 * i
def addr_CBK_CELL_SH (i : Nat) : Nat := 0x144014 + 0x20 * i
def CBK_CELL_SH_PSI (i : Nat) : Fld := ⟨addr_CBK_CELL_SH i, 0, 24⟩
def addr_CBK_CELL_ST (i : Nat) : Nat := 0x144018 + 0x20 * i
def CBK_CELL_ST_KIND (i : Nat) : Fld := ⟨addr_CBK_CELL_ST i, 30, 2⟩
def CBK_CELL_ST_NEDGE (i : Nat) : Fld := ⟨addr_CBK_CELL_ST i, 24, 6⟩
def CBK_CELL_ST_FORCED (i : Nat) : Fld := ⟨addr_CBK_CELL_ST i, 16, 7⟩
def addr_CBK_LB_CFG (i : Nat) : Nat := 0x146000 + 0x10 * i
def CBK_LB_CFG_DT (i : Nat) : Fld := ⟨addr_CBK_LB_CFG i, 16, 12⟩
def CBK_LB_CFG_SLOT (i : Nat) : Fld := ⟨addr_CBK_LB_CFG i, 10, 3⟩
def CBK_LB_CFG_FORM (i : Nat) : Fld := ⟨addr_CBK_LB_CFG i, 9, 1⟩
def CBK_LB_CFG_EN (i : Nat) : Fld := ⟨addr_CBK_LB_CFG i, 8, 1⟩
def CBK_LB_CFG_GROUP (i : Nat) : Fld := ⟨addr_CBK_LB_CFG i, 0, 3⟩
def addr_CBK_LB_OVR (i : Nat) : Nat := 0x146004 + 0x10 * i
def addr_CBK_LB_STAT (i : Nat) : Nat := 0x146008 + 0x10 * i
def CBK_LB_STAT_TAPS (i : Nat) : Fld := ⟨addr_CBK_LB_STAT i, 24, 8⟩
def CBK_LB_STAT_DLCAL_FAIL (i : Nat) : Fld := ⟨addr_CBK_LB_STAT i, 3, 1⟩
def CBK_LB_STAT_INTLK_ACT (i : Nat) : Fld := ⟨addr_CBK_LB_STAT i, 2, 1⟩
def CBK_LB_STAT_PIN_B (i : Nat) : Fld := ⟨addr_CBK_LB_STAT i, 1, 1⟩
def CBK_LB_STAT_PIN_A (i : Nat) : Fld := ⟨addr_CBK_LB_STAT i, 0, 1⟩
def addr_HLM_CTRL : Nat := 0x180004
def HLM_CTRL_DL_TRIP : Fld := ⟨addr_HLM_CTRL, 16, 8⟩
def HLM_CTRL_STALE_LIM : Fld := ⟨addr_HLM_CTRL, 8, 8⟩
def addr_HLM_STAT : Nat := 0x180008
def HLM_STAT_HDL : Fld := ⟨addr_HLM_STAT, 20, 1⟩
def HLM_STAT_HT : Fld := ⟨addr_HLM_STAT, 16, 4⟩
def HLM_STAT_DL_CONSEC : Fld := ⟨addr_HLM_STAT, 8, 8⟩
def HLM_STAT_LAST_MISS : Fld := ⟨addr_HLM_STAT, 1, 1⟩
def HLM_STAT_RUNNING : Fld := ⟨addr_HLM_STAT, 0, 1⟩
def addr_HLM_TNOM : Nat := 0x18000c
def HLM_TNOM_PER : Fld := ⟨addr_HLM_TNOM, 0, 20⟩
def addr_HLM_EVT : Nat := 0x180010
def HLM_EVT_HDL : Fld := ⟨addr_HLM_EVT, 9, 1⟩
def HLM_EVT_ANG_NAN : Fld := ⟨addr_HLM_EVT, 8, 1⟩
def HLM_EVT_STALE_LIM : Fld := ⟨addr_HLM_EVT, 7, 1⟩
def HLM_EVT_SWAP_REFUSED : Fld := ⟨addr_HLM_EVT, 6, 1⟩
def HLM_EVT_SWAP_DONE : Fld := ⟨addr_HLM_EVT, 5, 1⟩
def HLM_EVT_COEF_REFUSED : Fld := ⟨addr_HLM_EVT, 4, 1⟩
def HLM_EVT_NAN : Fld := ⟨addr_HLM_EVT, 3, 1⟩
def HLM_EVT_CLAMP : Fld := ⟨addr_HLM_EVT, 2, 1⟩
def HLM_EVT_CHK_FAIL : Fld := ⟨addr_HLM_EVT, 1, 1⟩
def HLM_EVT_DL_MISS : Fld := ⟨addr_HLM_EVT, 0, 1⟩
def addr_HLM_RUN : Nat := 0x180020
def HLM_RUN_NS : Fld := ⟨addr_HLM_RUN, 0, 16⟩
def addr_HLM_RUNMAX : Nat := 0x180024
def HLM_RUNMAX_NS : Fld := ⟨addr_HLM_RUNMAX, 0, 16⟩
def addr_HLM_NDESC : Nat := 0x180028
def HLM_NDESC_N : Fld := ⟨addr_HLM_NDESC, 0, 13⟩
def addr_HLM_LOOP : Nat := 0x180030
def HLM_LOOP_OPEN : Fld := ⟨addr_HLM_LOOP, 0, 16⟩
def addr_HLM_LOOPST : Nat := 0x180034
def HLM_LOOPST_BANK : Fld := ⟨addr_HLM_LOOPST, 16, 16⟩
def HLM_LOOPST_OPEN : Fld := ⟨addr_HLM_LOOPST, 0, 16⟩
def addr_HLM_BANKSW : Nat := 0x180038
def addr_HLM_SWPEND : Nat := 0x18003c
def HLM_SWPEND_REQ : Fld := ⟨addr_HLM_SWPEND, 0, 16⟩
def addr_HLM_REFADDR : Nat := 0x180040
def HLM_REFADDR_W : Fld := ⟨addr_HLM_REFADDR, 0, 19⟩
def addr_HLM_GRP_BASE (i : Nat) : Nat := 0x180080 + 8 * i
def HLM_GRP_BASE_W (i : Nat) : Fld := ⟨addr_HLM_GRP_BASE i, 0, 17⟩
def addr_HLM_GRP_LIM (i : Nat) : Nat := 0x180084 + 8 * i
def HLM_GRP_LIM_W (i : Nat) : Fld := ⟨addr_HLM_GRP_LIM i, 0, 17⟩
def addr_HLM_CT (i : Nat) : Nat := 0x180100 + 4 * i
def HLM_CT_EN (i : Nat) : Fld := ⟨addr_HLM_CT i, 31, 1⟩
def HLM_CT_H (i : Nat) : Fld := ⟨addr_HLM_CT i, 16, 6⟩
def HLM_CT_OFS (i : Nat) : Fld := ⟨addr_HLM_CT i, 0, 16⟩
def addr_HLM_ANG : Nat := 0x180140
def addr_HLM_OMG : Nat := 0x180144
def addr_HLM_DL_MISS : Nat := 0x180f00
def HLM_DL_MISS : Fld := ⟨addr_HLM_DL_MISS, 0, 32⟩
def addr_HLM_CHK_FAIL : Nat := 0x180f04
def HLM_CHK_FAIL : Fld := ⟨addr_HLM_CHK_FAIL, 0, 32⟩
def addr_HLM_CLAMPS : Nat := 0x180f08
def HLM_CLAMPS : Fld := ⟨addr_HLM_CLAMPS, 0, 32⟩
def addr_HLM_NAN : Nat := 0x180f0c
def HLM_NAN : Fld := ⟨addr_HLM_NAN, 0, 32⟩
def addr_HLM_COEF_REFUSED : Nat := 0x180f10
def HLM_COEF_REFUSED : Fld := ⟨addr_HLM_COEF_REFUSED, 0, 32⟩
def addr_HLM_SWAPS : Nat := 0x180f14
def HLM_SWAPS : Fld := ⟨addr_HLM_SWAPS, 0, 32⟩
def addr_HLM_SWAP_REFUSED : Nat := 0x180f18
def HLM_SWAP_REFUSED : Fld := ⟨addr_HLM_SWAP_REFUSED, 0, 32⟩
def addr_HLM_STALE_LIM : Nat := 0x180f1c
def HLM_STALE_LIM : Fld := ⟨addr_HLM_STALE_LIM, 0, 32⟩
def addr_HLM_ANG_NAN : Nat := 0x180f20
def HLM_ANG_NAN : Fld := ⟨addr_HLM_ANG_NAN, 0, 32⟩
def addr_HLM_WIN_REFUSED : Nat := 0x180f24
def HLM_WIN_REFUSED : Fld := ⟨addr_HLM_WIN_REFUSED, 0, 32⟩
def addr_GWY_EVT : Nat := 0x1a0010
def GWY_EVT_PRESET_REFUSED : Fld := ⟨addr_GWY_EVT, 3, 1⟩
def GWY_EVT_TGT_CLAMP : Fld := ⟨addr_GWY_EVT, 2, 1⟩
def GWY_EVT_TGT_NAN : Fld := ⟨addr_GWY_EVT, 1, 1⟩
def GWY_EVT_OVERSHOOT : Fld := ⟨addr_GWY_EVT, 0, 1⟩
def addr_GWY_HOLD : Nat := 0x1a0020
def addr_GWY_OVS_SUM : Nat := 0x1a0024
def addr_GWY_CH_CFG (i : Nat) : Nat := 0x1a0100 + 0x40 * i
def GWY_CH_CFG_EN (i : Nat) : Fld := ⟨addr_GWY_CH_CFG i, 31, 1⟩
def GWY_CH_CFG_TSRC (i : Nat) : Fld := ⟨addr_GWY_CH_CFG i, 30, 1⟩
def GWY_CH_CFG_TADDR (i : Nat) : Fld := ⟨addr_GWY_CH_CFG i, 0, 19⟩
def addr_GWY_CH_HOLDG (i : Nat) : Nat := 0x1a0104 + 0x40 * i
def GWY_CH_HOLDG_GRP (i : Nat) : Fld := ⟨addr_GWY_CH_HOLDG i, 0, 16⟩
def addr_GWY_CH_TGT (i : Nat) : Nat := 0x1a0108 + 0x40 * i
def addr_GWY_CH_V (i : Nat) : Nat := 0x1a010c + 0x40 * i
def addr_GWY_CH_A (i : Nat) : Nat := 0x1a0110 + 0x40 * i
def addr_GWY_CH_J (i : Nat) : Nat := 0x1a0114 + 0x40 * i
def addr_GWY_CH_MIN (i : Nat) : Nat := 0x1a0118 + 0x40 * i
def addr_GWY_CH_MAX (i : Nat) : Nat := 0x1a011c + 0x40 * i
def addr_GWY_CH_INIT (i : Nat) : Nat := 0x1a0120 + 0x40 * i
def addr_GWY_CH_PRESET (i : Nat) : Nat := 0x1a0124 + 0x40 * i
def addr_GWY_CH_OUT_P (i : Nat) : Nat := 0x1a0128 + 0x40 * i
def addr_GWY_CH_OUT_V (i : Nat) : Nat := 0x1a012c + 0x40 * i
def addr_GWY_CH_OUT_A (i : Nat) : Nat := 0x1a0130 + 0x40 * i
def addr_GWY_CH_STAT (i : Nat) : Nat := 0x1a0134 + 0x40 * i
def GWY_CH_STAT_OVS (i : Nat) : Fld := ⟨addr_GWY_CH_STAT i, 3, 1⟩
def GWY_CH_STAT_ARRIVED (i : Nat) : Fld := ⟨addr_GWY_CH_STAT i, 2, 1⟩
def GWY_CH_STAT_HOLDING (i : Nat) : Fld := ⟨addr_GWY_CH_STAT i, 1, 1⟩
def GWY_CH_STAT_EN (i : Nat) : Fld := ⟨addr_GWY_CH_STAT i, 0, 1⟩
def addr_GWY_OVS (i : Nat) : Nat := 0x1a0f00 + 4 * i
def GWY_OVS (i : Nat) : Fld := ⟨addr_GWY_OVS i, 0, 32⟩
def addr_GWY_TGT_NAN : Nat := 0x1a0f80
def GWY_TGT_NAN : Fld := ⟨addr_GWY_TGT_NAN, 0, 32⟩
def addr_GWY_TGT_CLAMP : Nat := 0x1a0f84
def GWY_TGT_CLAMP : Fld := ⟨addr_GWY_TGT_CLAMP, 0, 32⟩
def addr_GWY_PRESET_REFUSED : Nat := 0x1a0f88
def GWY_PRESET_REFUSED : Fld := ⟨addr_GWY_PRESET_REFUSED, 0, 32⟩
def addr_BLS_CTRL : Nat := 0x1b0004
def BLS_CTRL_ORD_FRZ : Fld := ⟨addr_BLS_CTRL, 0, 1⟩
def addr_BLS_STAT : Nat := 0x1b0008
def BLS_STAT_NLOW : Fld := ⟨addr_BLS_STAT, 8, 8⟩
def BLS_STAT_ARMS : Fld := ⟨addr_BLS_STAT, 0, 8⟩
def addr_BLS_EVT : Nat := 0x1b0010
def BLS_EVT_CMD_REFUSED : Fld := ⟨addr_BLS_EVT, 8, 1⟩
def BLS_EVT_SPREAD : Fld := ⟨addr_BLS_EVT, 7, 1⟩
def BLS_EVT_TRIM_CLAMP : Fld := ⟨addr_BLS_EVT, 6, 1⟩
def BLS_EVT_NMIN : Fld := ⟨addr_BLS_EVT, 5, 1⟩
def BLS_EVT_NOSPARE : Fld := ⟨addr_BLS_EVT, 4, 1⟩
def BLS_EVT_PROMOTED : Fld := ⟨addr_BLS_EVT, 3, 1⟩
def BLS_EVT_ADM_TIMEOUT : Fld := ⟨addr_BLS_EVT, 2, 1⟩
def BLS_EVT_ADMITTED : Fld := ⟨addr_BLS_EVT, 1, 1⟩
def BLS_EVT_AUTO_BYPASS : Fld := ⟨addr_BLS_EVT, 0, 1⟩
def addr_BLS_CMD : Nat := 0x1b0020
def addr_BLS_CMD_STAT : Nat := 0x1b0024
def BLS_CMD_STAT_ACCEPTED : Fld := ⟨addr_BLS_CMD_STAT, 31, 1⟩
def BLS_CMD_STAT_REASON : Fld := ⟨addr_BLS_CMD_STAT, 24, 4⟩
def BLS_CMD_STAT_CELL : Fld := ⟨addr_BLS_CMD_STAT, 0, 8⟩
def addr_BLS_ARM_CFG (i : Nat) : Nat := 0x1b0100 + 0x40 * i
def BLS_ARM_CFG_EN (i : Nat) : Fld := ⟨addr_BLS_ARM_CFG i, 31, 1⟩
def BLS_ARM_CFG_GDBYP (i : Nat) : Fld := ⟨addr_BLS_ARM_CFG i, 30, 1⟩
def BLS_ARM_CFG_DSGN (i : Nat) : Fld := ⟨addr_BLS_ARM_CFG i, 29, 1⟩
def BLS_ARM_CFG_NTGT (i : Nat) : Fld := ⟨addr_BLS_ARM_CFG i, 16, 8⟩
def BLS_ARM_CFG_NMIN (i : Nat) : Fld := ⟨addr_BLS_ARM_CFG i, 8, 8⟩
def BLS_ARM_CFG_BYP_STALE (i : Nat) : Fld := ⟨addr_BLS_ARM_CFG i, 0, 8⟩
def addr_BLS_ARM_ISRC (i : Nat) : Nat := 0x1b0104 + 0x40 * i
def BLS_ARM_ISRC_W (i : Nat) : Fld := ⟨addr_BLS_ARM_ISRC i, 0, 19⟩
def addr_BLS_ARM_IDB (i : Nat) : Nat := 0x1b0108 + 0x40 * i
def addr_BLS_ARM_KA (i : Nat) : Nat := 0x1b010c + 0x40 * i
def addr_BLS_ARM_KD (i : Nat) : Nat := 0x1b0110 + 0x40 * i
def addr_BLS_ARM_TLIM (i : Nat) : Nat := 0x1b0114 + 0x40 * i
def BLS_ARM_TLIM_TAMAX (i : Nat) : Fld := ⟨addr_BLS_ARM_TLIM i, 16, 16⟩
def BLS_ARM_TLIM_TDMAX (i : Nat) : Fld := ⟨addr_BLS_ARM_TLIM i, 0, 16⟩
def addr_BLS_ARM_VSWAP (i : Nat) : Nat := 0x1b0118 + 0x40 * i
def addr_BLS_ARM_ADM_VLO (i : Nat) : Nat := 0x1b011c + 0x40 * i
def addr_BLS_ARM_ADM_VHI (i : Nat) : Nat := 0x1b0120 + 0x40 * i
def addr_BLS_ARM_ADM_VDEV (i : Nat) : Nat := 0x1b0124 + 0x40 * i
def addr_BLS_ARM_ADM (i : Nat) : Nat := 0x1b0128 + 0x40 * i
def BLS_ARM_ADM_HOLD (i : Nat) : Fld := ⟨addr_BLS_ARM_ADM i, 24, 8⟩
def BLS_ARM_ADM_TMO (i : Nat) : Fld := ⟨addr_BLS_ARM_ADM i, 0, 16⟩
def addr_BLS_ARM_SPRDW (i : Nat) : Nat := 0x1b012c + 0x40 * i
def addr_BLS_ARM_STAT (i : Nat) : Nat := 0x1b0130 + 0x40 * i
def BLS_ARM_STAT_N (i : Nat) : Fld := ⟨addr_BLS_ARM_STAT i, 24, 8⟩
def BLS_ARM_STAT_NSPARE (i : Nat) : Fld := ⟨addr_BLS_ARM_STAT i, 16, 8⟩
def BLS_ARM_STAT_NREADY (i : Nat) : Fld := ⟨addr_BLS_ARM_STAT i, 8, 8⟩
def BLS_ARM_STAT_SPRD (i : Nat) : Fld := ⟨addr_BLS_ARM_STAT i, 3, 1⟩
def BLS_ARM_STAT_NLOW (i : Nat) : Fld := ⟨addr_BLS_ARM_STAT i, 2, 1⟩
def BLS_ARM_STAT_SVALID (i : Nat) : Fld := ⟨addr_BLS_ARM_STAT i, 1, 1⟩
def BLS_ARM_STAT_DIR (i : Nat) : Fld := ⟨addr_BLS_ARM_STAT i, 0, 1⟩
def addr_BLS_ARM_VMEAN (i : Nat) : Nat := 0x1b0134 + 0x40 * i
def addr_BLS_ARM_VMIN (i : Nat) : Nat := 0x1b0138 + 0x40 * i
def addr_BLS_ARM_VMAX (i : Nat) : Nat := 0x1b013c + 0x40 * i
def addr_BLS_ORD (i j : Nat) : Nat := 0x1b0800 + 0x100 * i + 4 * j
def addr_BLS_AUTO_BYP : Nat := 0x1b0f00
def BLS_AUTO_BYP : Fld := ⟨addr_BLS_AUTO_BYP, 0, 32⟩
def addr_BLS_ADMITS : Nat := 0x1b0f04
def BLS_ADMITS : Fld := ⟨addr_BLS_ADMITS, 0, 32⟩
def addr_BLS_ADM_TMO : Nat := 0x1b0f08
def BLS_ADM_TMO : Fld := ⟨addr_BLS_ADM_TMO, 0, 32⟩
def addr_BLS_PROMOTE : Nat := 0x1b0f0c
def BLS_PROMOTE : Fld := ⟨addr_BLS_PROMOTE, 0, 32⟩
def addr_BLS_NOSPARE : Nat := 0x1b0f10
def BLS_NOSPARE : Fld := ⟨addr_BLS_NOSPARE, 0, 32⟩
def addr_BLS_NMIN : Nat := 0x1b0f14
def BLS_NMIN : Fld := ⟨addr_BLS_NMIN, 0, 32⟩
def addr_BLS_TRIM_CLAMP : Nat := 0x1b0f18
def BLS_TRIM_CLAMP : Fld := ⟨addr_BLS_TRIM_CLAMP, 0, 32⟩
def addr_BLS_SPREAD : Nat := 0x1b0f1c
def BLS_SPREAD : Fld := ⟨addr_BLS_SPREAD, 0, 32⟩
def addr_BLS_CMD_REFUSED : Nat := 0x1b0f20
def BLS_CMD_REFUSED : Fld := ⟨addr_BLS_CMD_REFUSED, 0, 32⟩
def addr_BLS_CMD_LOST : Nat := 0x1b0f24
def BLS_CMD_LOST : Fld := ⟨addr_BLS_CMD_LOST, 0, 32⟩
def addr_BLS_CELL_CFG (i : Nat) : Nat := 0x1b1000 + 0x10 * i
def BLS_CELL_CFG_IN_ARM (i : Nat) : Fld := ⟨addr_BLS_CELL_CFG i, 15, 1⟩
def BLS_CELL_CFG_ARM (i : Nat) : Fld := ⟨addr_BLS_CELL_CFG i, 12, 3⟩
def BLS_CELL_CFG_ROLE (i : Nat) : Fld := ⟨addr_BLS_CELL_CFG i, 8, 2⟩
def BLS_CELL_CFG_READM (i : Nat) : Fld := ⟨addr_BLS_CELL_CFG i, 0, 1⟩
def addr_BLS_CELL_ST (i : Nat) : Nat := 0x1b1004 + 0x10 * i
def BLS_CELL_ST_CNT (i : Nat) : Fld := ⟨addr_BLS_CELL_ST i, 24, 8⟩
def BLS_CELL_ST_PLACE (i : Nat) : Fld := ⟨addr_BLS_CELL_ST i, 16, 8⟩
def BLS_CELL_ST_LASTBYP (i : Nat) : Fld := ⟨addr_BLS_CELL_ST i, 5, 3⟩
def BLS_CELL_ST_READY (i : Nat) : Fld := ⟨addr_BLS_CELL_ST i, 4, 1⟩
def BLS_CELL_ST_STATE (i : Nat) : Fld := ⟨addr_BLS_CELL_ST i, 0, 3⟩
def addr_BLS_CELL_TA (i : Nat) : Nat := 0x1b1008 + 0x10 * i
def BLS_CELL_TA (i : Nat) : Fld := ⟨addr_BLS_CELL_TA i, 0, 24⟩
def addr_BLS_CELL_TD (i : Nat) : Nat := 0x1b100c + 0x10 * i
def BLS_CELL_TD (i : Nat) : Fld := ⟨addr_BLS_CELL_TD i, 0, 24⟩
def addr_MOD_CTRL : Nat := 0x1c0004
def MOD_CTRL_DIV : Fld := ⟨addr_MOD_CTRL, 8, 8⟩
def MOD_CTRL_ALIGN : Fld := ⟨addr_MOD_CTRL, 1, 1⟩
def MOD_CTRL_SRC : Fld := ⟨addr_MOD_CTRL, 0, 1⟩
def addr_MOD_STAT : Nat := 0x1c0008
def MOD_STAT_ALIGN_ERR : Fld := ⟨addr_MOD_STAT, 1, 1⟩
def MOD_STAT_CLK_OK : Fld := ⟨addr_MOD_STAT, 0, 1⟩
def addr_MOD_EVT : Nat := 0x1c0010
def MOD_EVT_ALIGN_ERR : Fld := ⟨addr_MOD_EVT, 4, 1⟩
def MOD_EVT_DR_SWITCH : Fld := ⟨addr_MOD_EVT, 3, 1⟩
def MOD_EVT_OVR : Fld := ⟨addr_MOD_EVT, 2, 1⟩
def MOD_EVT_STUCK : Fld := ⟨addr_MOD_EVT, 1, 1⟩
def MOD_EVT_CLK_FAIL : Fld := ⟨addr_MOD_EVT, 0, 1⟩
def addr_MOD_VALID : Nat := 0x1c0020
def addr_MOD_RANGE : Nat := 0x1c0024
def addr_MOD_OVR : Nat := 0x1c0028
def addr_MOD_FREQ : Nat := 0x1c002c
def MOD_FREQ_KHZ : Fld := ⟨addr_MOD_FREQ, 0, 25⟩
def addr_MOD_DR : Nat := 0x1c0030
def addr_MOD_DRCFG : Nat := 0x1c0034
def MOD_DRCFG_HOLD : Fld := ⟨addr_MOD_DRCFG, 8, 8⟩
def MOD_DRCFG_BLEND : Fld := ⟨addr_MOD_DRCFG, 0, 4⟩
def addr_MOD_FNOM : Nat := 0x1c0038
def MOD_FNOM : Fld := ⟨addr_MOD_FNOM, 0, 32⟩
def addr_MOD_CAPT_LO : Nat := 0x1c0040
def MOD_CAPT_LO : Fld := ⟨addr_MOD_CAPT_LO, 0, 32⟩
def addr_MOD_CAPT_HI : Nat := 0x1c0044
def MOD_CAPT_HI : Fld := ⟨addr_MOD_CAPT_HI, 0, 9⟩
def addr_MOD_CH_CFG (i : Nat) : Nat := 0x1c0100 + 0x20 * i
def MOD_CH_CFG_EN (i : Nat) : Fld := ⟨addr_MOD_CH_CFG i, 31, 1⟩
def MOD_CH_CFG_OSR (i : Nat) : Fld := ⟨addr_MOD_CH_CFG i, 16, 7⟩
def MOD_CH_CFG_STUCK (i : Nat) : Fld := ⟨addr_MOD_CH_CFG i, 0, 12⟩
def addr_MOD_CH_MCFG (i : Nat) : Nat := 0x1c0104 + 0x20 * i
def MOD_CH_MCFG_MOSR (i : Nat) : Fld := ⟨addr_MOD_CH_MCFG i, 0, 9⟩
def addr_MOD_CH_GAIN (i : Nat) : Nat := 0x1c0108 + 0x20 * i
def MOD_CH_GAIN (i : Nat) : Fld := ⟨addr_MOD_CH_GAIN i, 0, 32⟩
def addr_MOD_CH_OFS (i : Nat) : Nat := 0x1c010c + 0x20 * i
def MOD_CH_OFS (i : Nat) : Fld := ⟨addr_MOD_CH_OFS i, 0, 32⟩
def addr_MOD_CH_OR_LIM (i : Nat) : Nat := 0x1c0110 + 0x20 * i
def MOD_CH_OR_LIM (i : Nat) : Fld := ⟨addr_MOD_CH_OR_LIM i, 0, 32⟩
def addr_MOD_CH_VAL (i : Nat) : Nat := 0x1c0114 + 0x20 * i
def MOD_CH_VAL (i : Nat) : Fld := ⟨addr_MOD_CH_VAL i, 0, 32⟩
def addr_MOD_CH_ST (i : Nat) : Nat := 0x1c0118 + 0x20 * i
def MOD_CH_ST_STALE (i : Nat) : Fld := ⟨addr_MOD_CH_ST i, 16, 16⟩
def MOD_CH_ST_OVR (i : Nat) : Fld := ⟨addr_MOD_CH_ST i, 1, 1⟩
def MOD_CH_ST_VALID (i : Nat) : Fld := ⟨addr_MOD_CH_ST i, 0, 1⟩
def addr_MOD_CLK_FAIL : Nat := 0x1c0f00
def MOD_CLK_FAIL : Fld := ⟨addr_MOD_CLK_FAIL, 0, 32⟩
def addr_MOD_STUCK : Nat := 0x1c0f04
def MOD_STUCK : Fld := ⟨addr_MOD_STUCK, 0, 32⟩
def addr_MOD_OVR_CNT : Nat := 0x1c0f08
def MOD_OVR_CNT : Fld := ⟨addr_MOD_OVR_CNT, 0, 32⟩
def addr_MOD_DR_SW : Nat := 0x1c0f0c
def MOD_DR_SW : Fld := ⟨addr_MOD_DR_SW, 0, 32⟩
def addr_MOD_ALIGN_ERR : Nat := 0x1c0f10
def MOD_ALIGN_ERR : Fld := ⟨addr_MOD_ALIGN_ERR, 0, 32⟩
def addr_SAR_CTRL : Nat := 0x1d0004
def SAR_CTRL_TICK : Fld := ⟨addr_SAR_CTRL, 16, 10⟩
def SAR_CTRL_SUBST : Fld := ⟨addr_SAR_CTRL, 1, 1⟩
def SAR_CTRL_CAL_EN : Fld := ⟨addr_SAR_CTRL, 0, 1⟩
def addr_SAR_STAT : Nat := 0x1d0008
def SAR_STAT_CAL : Fld := ⟨addr_SAR_STAT, 12, 3⟩
def SAR_STAT_SUB : Fld := ⟨addr_SAR_STAT, 8, 3⟩
def SAR_STAT_FAILED : Fld := ⟨addr_SAR_STAT, 0, 5⟩
def addr_SAR_EVT : Nat := 0x1d0010
def SAR_EVT_SUBST : Fld := ⟨addr_SAR_EVT, 3, 1⟩
def SAR_EVT_CAL_FAIL : Fld := ⟨addr_SAR_EVT, 2, 1⟩
def SAR_EVT_CAL_DONE : Fld := ⟨addr_SAR_EVT, 1, 1⟩
def SAR_EVT_URG_DROP : Fld := ⟨addr_SAR_EVT, 0, 1⟩
def addr_SAR_URG : Nat := 0x1d0020
def addr_SAR_URG_STAT : Nat := 0x1d0024
def SAR_URG_STAT_ACCEPTED : Fld := ⟨addr_SAR_URG_STAT, 31, 1⟩
def SAR_URG_STAT_REASON : Fld := ⟨addr_SAR_URG_STAT, 24, 4⟩
def SAR_URG_STAT_AIN : Fld := ⟨addr_SAR_URG_STAT, 0, 6⟩
def addr_SAR_SL_SEQ0 (i : Nat) : Nat := 0x1d0100 + 0x40 * i
def addr_SAR_SL_SEQ1 (i : Nat) : Nat := 0x1d0104 + 0x40 * i
def addr_SAR_SL_BG0 (i : Nat) : Nat := 0x1d0108 + 0x40 * i
def addr_SAR_SL_BG1 (i : Nat) : Nat := 0x1d010c + 0x40 * i
def addr_SAR_SL_LEN (i : Nat) : Nat := 0x1d0110 + 0x40 * i
def SAR_SL_LEN_BGLEN (i : Nat) : Fld := ⟨addr_SAR_SL_LEN i, 8, 5⟩
def SAR_SL_LEN_SEQLEN (i : Nat) : Fld := ⟨addr_SAR_SL_LEN i, 0, 5⟩
def addr_SAR_SL_SOFS (i : Nat) : Nat := 0x1d0114 + 0x40 * i
def SAR_SL_SOFS (i : Nat) : Fld := ⟨addr_SAR_SL_SOFS i, 0, 32⟩
def addr_SAR_SL_SGAIN (i : Nat) : Nat := 0x1d0118 + 0x40 * i
def SAR_SL_SGAIN (i : Nat) : Fld := ⟨addr_SAR_SL_SGAIN i, 0, 32⟩
def addr_SAR_SL_SST (i : Nat) : Nat := 0x1d011c + 0x40 * i
def SAR_SL_SST_FAILED (i : Nat) : Fld := ⟨addr_SAR_SL_SST i, 2, 1⟩
def SAR_SL_SST_CAL (i : Nat) : Fld := ⟨addr_SAR_SL_SST i, 1, 1⟩
def SAR_SL_SST_BUSY (i : Nat) : Fld := ⟨addr_SAR_SL_SST i, 0, 1⟩
def addr_SAR_CH_GAIN (i : Nat) : Nat := 0x1d0800 + 0x10 * i
def SAR_CH_GAIN (i : Nat) : Fld := ⟨addr_SAR_CH_GAIN i, 0, 32⟩
def addr_SAR_CH_OFS (i : Nat) : Nat := 0x1d0804 + 0x10 * i
def SAR_CH_OFS (i : Nat) : Fld := ⟨addr_SAR_CH_OFS i, 0, 32⟩
def addr_SAR_CH_RES (i : Nat) : Nat := 0x1d0808 + 0x10 * i
def SAR_CH_RES_KIND (i : Nat) : Fld := ⟨addr_SAR_CH_RES i, 22, 2⟩
def SAR_CH_RES_FAILED (i : Nat) : Fld := ⟨addr_SAR_CH_RES i, 21, 1⟩
def SAR_CH_RES_SRC (i : Nat) : Fld := ⟨addr_SAR_CH_RES i, 16, 4⟩
def SAR_CH_RES_CODE (i : Nat) : Fld := ⟨addr_SAR_CH_RES i, 0, 16⟩
def addr_SAR_CH_VAL (i : Nat) : Nat := 0x1d080c + 0x10 * i
def SAR_CH_VAL (i : Nat) : Fld := ⟨addr_SAR_CH_VAL i, 0, 32⟩
def addr_SAR_URG_DROP : Nat := 0x1d0f00
def SAR_URG_DROP : Fld := ⟨addr_SAR_URG_DROP, 0, 32⟩
def addr_SAR_CAL_FAIL : Nat := 0x1d0f04
def SAR_CAL_FAIL : Fld := ⟨addr_SAR_CAL_FAIL, 0, 32⟩
def addr_SAR_CAL_WIN : Nat := 0x1d0f08
def SAR_CAL_WIN : Fld := ⟨addr_SAR_CAL_WIN, 0, 32⟩
def addr_WCM_EVT : Nat := 0x1e0010
def WCM_EVT_THR_REFUSED : Fld := ⟨addr_WCM_EVT, 1, 1⟩
def WCM_EVT_SEEN : Fld := ⟨addr_WCM_EVT, 0, 1⟩
def addr_WCM_LEVEL : Nat := 0x1e0020
def addr_WCM_SEEN : Nat := 0x1e0024
def addr_WCM_READY : Nat := 0x1e0028
def addr_WCM_CMP_CFG (i : Nat) : Nat := 0x1e0100 + 0x10 * i
def WCM_CMP_CFG_EN (i : Nat) : Fld := ⟨addr_WCM_CMP_CFG i, 31, 1⟩
def WCM_CMP_CFG_LO_EN (i : Nat) : Fld := ⟨addr_WCM_CMP_CFG i, 30, 1⟩
def WCM_CMP_CFG_HI_EN (i : Nat) : Fld := ⟨addr_WCM_CMP_CFG i, 29, 1⟩
def addr_WCM_CMP_THR (i : Nat) : Nat := 0x1e0104 + 0x10 * i
def WCM_CMP_THR_HI (i : Nat) : Fld := ⟨addr_WCM_CMP_THR i, 16, 10⟩
def WCM_CMP_THR_LO (i : Nat) : Fld := ⟨addr_WCM_CMP_THR i, 0, 10⟩
def addr_WCM_CMP_DAC (i : Nat) : Nat := 0x1e0108 + 0x10 * i
def WCM_CMP_DAC_HI (i : Nat) : Fld := ⟨addr_WCM_CMP_DAC i, 16, 10⟩
def WCM_CMP_DAC_LO (i : Nat) : Fld := ⟨addr_WCM_CMP_DAC i, 0, 10⟩
def addr_WCM_CMP_STAT (i : Nat) : Nat := 0x1e010c + 0x10 * i
def WCM_CMP_STAT_READY (i : Nat) : Fld := ⟨addr_WCM_CMP_STAT i, 2, 1⟩
def WCM_CMP_STAT_STEPPING (i : Nat) : Fld := ⟨addr_WCM_CMP_STAT i, 1, 1⟩
def WCM_CMP_STAT_LEVEL (i : Nat) : Fld := ⟨addr_WCM_CMP_STAT i, 0, 1⟩
def addr_WCM_ONSET (i : Nat) : Nat := 0x1e0f00 + 4 * i
def WCM_ONSET (i : Nat) : Fld := ⟨addr_WCM_ONSET i, 0, 32⟩
def addr_WCM_THR_REFUSED : Nat := 0x1e0f60
def WCM_THR_REFUSED : Fld := ⟨addr_WCM_THR_REFUSED, 0, 32⟩
def addr_TRP_CTRL : Nat := 0x1f0004
def TRP_CTRL_GT_LOSS : Fld := ⟨addr_TRP_CTRL, 0, 8⟩
def addr_TRP_STAT : Nat := 0x1f0008
def TRP_STAT_KNOWN : Fld := ⟨addr_TRP_STAT, 16, 16⟩
def TRP_STAT_LATCH : Fld := ⟨addr_TRP_STAT, 0, 16⟩
def addr_TRP_EVT : Nat := 0x1f0010
def TRP_EVT_UNKNOWN : Fld := ⟨addr_TRP_EVT, 5, 1⟩
def TRP_EVT_REARM_EXH : Fld := ⟨addr_TRP_EVT, 4, 1⟩
def TRP_EVT_REARM : Fld := ⟨addr_TRP_EVT, 3, 1⟩
def TRP_EVT_CLR_DONE : Fld := ⟨addr_TRP_EVT, 2, 1⟩
def TRP_EVT_CLR_REFUSED : Fld := ⟨addr_TRP_EVT, 1, 1⟩
def TRP_EVT_TRIP : Fld := ⟨addr_TRP_EVT, 0, 1⟩
def addr_TRP_LEVEL0 : Nat := 0x1f0020
def addr_TRP_LEVEL1 : Nat := 0x1f0024
def addr_TRP_SEEN0 : Nat := 0x1f0028
def addr_TRP_SEEN1 : Nat := 0x1f002c
def addr_TRP_EN0 : Nat := 0x1f0030
def addr_TRP_EN1 : Nat := 0x1f0034
def addr_TRP_CLR : Nat := 0x1f0040
def addr_TRP_CLR_STAT : Nat := 0x1f0044
def TRP_CLR_STAT_REFUSED : Fld := ⟨addr_TRP_CLR_STAT, 16, 16⟩
def TRP_CLR_STAT_CLEARED : Fld := ⟨addr_TRP_CLR_STAT, 0, 16⟩
def addr_TRP_PINCFG (i : Nat) : Nat := 0x1f0080 + 4 * i
def TRP_PINCFG_SCLK (i : Nat) : Fld := ⟨addr_TRP_PINCFG i, 24, 2⟩
def addr_TRP_GDAGG (i : Nat) : Nat := 0x1f00c0 + 4 * i
def TRP_GDAGG_COUNT (i : Nat) : Fld := ⟨addr_TRP_GDAGG i, 24, 8⟩
def TRP_GDAGG_GD_N (i : Nat) : Fld := ⟨addr_TRP_GDAGG i, 0, 7⟩
def addr_TRP_MAP (i : Nat) : Nat := 0x1f0100 + 4 * i
def TRP_MAP_GROUPS (i : Nat) : Fld := ⟨addr_TRP_MAP i, 0, 16⟩
def addr_TRP_MAP61 : Nat := 0x1f01f4
def TRP_MAP61_GROUPS : Fld := ⟨addr_TRP_MAP61, 0, 16⟩
def addr_TRP_MAPHI (i : Nat) : Nat := 0x1f01f8 + 4 * i
def TRP_MAPHI_GROUPS (i : Nat) : Fld := ⟨addr_TRP_MAPHI i, 0, 16⟩
def addr_TRP_GRP_FIRST (i : Nat) : Nat := 0x1f0200 + 0x10 * i
def TRP_GRP_FIRST_SRC (i : Nat) : Fld := ⟨addr_TRP_GRP_FIRST i, 16, 7⟩
def addr_TRP_GRP_TLO (i : Nat) : Nat := 0x1f0204 + 0x10 * i
def addr_TRP_GRP_THI (i : Nat) : Nat := 0x1f0208 + 0x10 * i
def addr_TRP_GRP_REARM (i : Nat) : Nat := 0x1f020c + 0x10 * i
def TRP_GRP_REARM_EN (i : Nat) : Fld := ⟨addr_TRP_GRP_REARM i, 31, 1⟩
def TRP_GRP_REARM_TRIES (i : Nat) : Fld := ⟨addr_TRP_GRP_REARM i, 24, 4⟩
def TRP_GRP_REARM_COUNT (i : Nat) : Fld := ⟨addr_TRP_GRP_REARM i, 20, 4⟩
def TRP_GRP_REARM_EXH (i : Nat) : Fld := ⟨addr_TRP_GRP_REARM i, 19, 1⟩
def TRP_GRP_REARM_SAFSEEN (i : Nat) : Fld := ⟨addr_TRP_GRP_REARM i, 18, 1⟩
def TRP_GRP_REARM_DELAY (i : Nat) : Fld := ⟨addr_TRP_GRP_REARM i, 0, 16⟩
def addr_TRP_LBG (i : Nat) : Nat := 0x1f0300 + 4 * i
def TRP_LBG_GROUPS (i : Nat) : Fld := ⟨addr_TRP_LBG i, 0, 16⟩
def addr_TRP_TRIPS (i : Nat) : Nat := 0x1f0f00 + 4 * i
def TRP_TRIPS (i : Nat) : Fld := ⟨addr_TRP_TRIPS i, 0, 32⟩
def addr_TRP_CLR_REFUSED : Nat := 0x1f0f40
def TRP_CLR_REFUSED : Fld := ⟨addr_TRP_CLR_REFUSED, 0, 32⟩
def addr_TRP_REARMS : Nat := 0x1f0f44
def TRP_REARMS : Fld := ⟨addr_TRP_REARMS, 0, 32⟩
def addr_TRP_UNKNOWN : Nat := 0x1f0f48
def TRP_UNKNOWN : Fld := ⟨addr_TRP_UNKNOWN, 0, 32⟩
def addr_TRP_LEGG (i j : Nat) : Nat := 0x1f2000 + 0x20 * i + 4 * j
def TRP_LEGG_GROUPS (i j : Nat) : Fld := ⟨addr_TRP_LEGG i j, 0, 16⟩
def addr_SAF_CTRL : Nat := 0x400004
def addr_SAF_STAT : Nat := 0x400008
def SAF_STAT_REASON : Fld := ⟨addr_SAF_STAT, 24, 8⟩
def SAF_STAT_BAK_LOST : Fld := ⟨addr_SAF_STAT, 10, 1⟩
def SAF_STAT_LOR : Fld := ⟨addr_SAF_STAT, 9, 1⟩
def SAF_STAT_KEY : Fld := ⟨addr_SAF_STAT, 8, 1⟩
def SAF_STAT_SEAL : Fld := ⟨addr_SAF_STAT, 7, 1⟩
def SAF_STAT_SW_PEND : Fld := ⟨addr_SAF_STAT, 6, 1⟩
def SAF_STAT_SO_B : Fld := ⟨addr_SAF_STAT, 5, 1⟩
def SAF_STAT_SO_A : Fld := ⟨addr_SAF_STAT, 4, 1⟩
def SAF_STAT_STATE : Fld := ⟨addr_SAF_STAT, 0, 2⟩
def addr_SAF_EVT : Nat := 0x400010
def SAF_EVT_KEY_CHG : Fld := ⟨addr_SAF_EVT, 7, 1⟩
def SAF_EVT_OUT_FAULT : Fld := ⟨addr_SAF_EVT, 6, 1⟩
def SAF_EVT_SW_CHANGE : Fld := ⟨addr_SAF_EVT, 5, 1⟩
def SAF_EVT_LOR_REFUSED : Fld := ⟨addr_SAF_EVT, 4, 1⟩
def SAF_EVT_SEAL_BRK : Fld := ⟨addr_SAF_EVT, 3, 1⟩
def SAF_EVT_DISCREP : Fld := ⟨addr_SAF_EVT, 2, 1⟩
def SAF_EVT_RUN : Fld := ⟨addr_SAF_EVT, 1, 1⟩
def SAF_EVT_LOCKOUT : Fld := ⟨addr_SAF_EVT, 0, 1⟩
def addr_SAF_EVT_EN : Nat := 0x400014
def addr_SAF_IN : Nat := 0x400020
def SAF_IN_STATE : Fld := ⟨addr_SAF_IN, 0, 24⟩
def addr_SAF_RAW : Nat := 0x400024
def SAF_RAW_CH : Fld := ⟨addr_SAF_RAW, 0, 16⟩
def addr_SAF_SW : Nat := 0x400028
def SAF_SW_NOW : Fld := ⟨addr_SAF_SW, 16, 16⟩
def SAF_SW_USE : Fld := ⟨addr_SAF_SW, 0, 16⟩
def addr_SAF_LOR : Nat := 0x40002c
def SAF_LOR_ACCEPTED : Fld := ⟨addr_SAF_LOR, 31, 1⟩
def SAF_LOR_REASON : Fld := ⟨addr_SAF_LOR, 24, 4⟩
def SAF_LOR_DUR : Fld := ⟨addr_SAF_LOR, 0, 13⟩
def addr_SAF_SEAL_T : Nat := 0x400030
def SAF_SEAL_T_S : Fld := ⟨addr_SAF_SEAL_T, 0, 32⟩
def addr_SAF_SEAL_N : Nat := 0x400034
def SAF_SEAL_N_BAK_LOST : Fld := ⟨addr_SAF_SEAL_N, 8, 1⟩
def SAF_SEAL_N_COUNT : Fld := ⟨addr_SAF_SEAL_N, 0, 8⟩
def addr_SAF_MAN (i : Nat) : Nat := 0x400e00 + 4 * i
def addr_SAF_LOCKOUTS : Nat := 0x400f00
def SAF_LOCKOUTS : Fld := ⟨addr_SAF_LOCKOUTS, 0, 32⟩
def addr_SAF_DISCREP : Nat := 0x400f04
def SAF_DISCREP : Fld := ⟨addr_SAF_DISCREP, 0, 32⟩
def addr_SAF_LOR_REFUSED : Nat := 0x400f08
def SAF_LOR_REFUSED : Fld := ⟨addr_SAF_LOR_REFUSED, 0, 32⟩
def addr_SAF_SW_CHANGE : Nat := 0x400f0c
def SAF_SW_CHANGE : Fld := ⟨addr_SAF_SW_CHANGE, 0, 32⟩
def addr_SAF_OUT_FAULT : Nat := 0x400f10
def SAF_OUT_FAULT : Fld := ⟨addr_SAF_OUT_FAULT, 0, 32⟩
def addr_MTR_CTRL : Nat := 0x410004
def MTR_CTRL_EN : Fld := ⟨addr_MTR_CTRL, 0, 1⟩
def addr_MTR_STAT : Nat := 0x410008
def MTR_STAT_LOSS_ALL : Fld := ⟨addr_MTR_STAT, 8, 2⟩
def MTR_STAT_RUN : Fld := ⟨addr_MTR_STAT, 0, 2⟩
def addr_MTR_EVT : Nat := 0x410010
def MTR_EVT_SAVE_FAIL : Fld := ⟨addr_MTR_EVT, 7, 1⟩
def MTR_EVT_BKLG_SAT : Fld := ⟨addr_MTR_EVT, 6, 1⟩
def MTR_EVT_WC_WRAP : Fld := ⟨addr_MTR_EVT, 5, 1⟩
def MTR_EVT_DEM_CLOSE : Fld := ⟨addr_MTR_EVT, 4, 1⟩
def MTR_EVT_INV_SAMP : Fld := ⟨addr_MTR_EVT, 3, 1⟩
def MTR_EVT_VOLT_RET : Fld := ⟨addr_MTR_EVT, 2, 1⟩
def MTR_EVT_LOSS_V : Fld := ⟨addr_MTR_EVT, 1, 1⟩
def MTR_EVT_CLEARED : Fld := ⟨addr_MTR_EVT, 0, 1⟩
def addr_MTR_ECLR : Nat := 0x410020
def addr_MTR_PT_CFG (i : Nat) : Nat := 0x410100 + 0x100 * i
def MTR_PT_CFG_EN (i : Nat) : Fld := ⟨addr_MTR_PT_CFG i, 31, 1⟩
def MTR_PT_CFG_DIR (i : Nat) : Fld := ⟨addr_MTR_PT_CFG i, 30, 1⟩
def MTR_PT_CFG_KIND (i : Nat) : Fld := ⟨addr_MTR_PT_CFG i, 28, 2⟩
def MTR_PT_CFG_SRC (i : Nat) : Fld := ⟨addr_MTR_PT_CFG i, 27, 1⟩
def MTR_PT_CFG_FNOM (i : Nat) : Fld := ⟨addr_MTR_PT_CFG i, 26, 1⟩
def MTR_PT_CFG_NCYC (i : Nat) : Fld := ⟨addr_MTR_PT_CFG i, 18, 6⟩
def MTR_PT_CFG_ZTO (i : Nat) : Fld := ⟨addr_MTR_PT_CFG i, 0, 16⟩
def addr_MTR_PT_ISTART (i : Nat) : Nat := 0x410104 + 0x100 * i
def MTR_PT_ISTART (i : Nat) : Fld := ⟨addr_MTR_PT_ISTART i, 0, 32⟩
def addr_MTR_PT_ZHYS (i : Nat) : Nat := 0x410108 + 0x100 * i
def MTR_PT_ZHYS (i : Nat) : Fld := ⟨addr_MTR_PT_ZHYS i, 0, 32⟩
def addr_MTR_PT_CH (i j : Nat) : Nat := 0x410110 + 0x100 * i + 4 * j
def MTR_PT_CH_PHC (i j : Nat) : Fld := ⟨addr_MTR_PT_CH i j, 23, 9⟩
def MTR_PT_CH_VSRC (i j : Nat) : Fld := ⟨addr_MTR_PT_CH i j, 8, 8⟩
def MTR_PT_CH_ISRC (i j : Nat) : Fld := ⟨addr_MTR_PT_CH i j, 0, 8⟩
def addr_MTR_PT_RSEQ (i : Nat) : Nat := 0x410120 + 0x100 * i
def MTR_PT_RSEQ_SEQ (i : Nat) : Fld := ⟨addr_MTR_PT_RSEQ i, 0, 16⟩
def addr_MTR_PT_FREQ (i : Nat) : Nat := 0x410124 + 0x100 * i
def addr_MTR_PT_ZST (i : Nat) : Nat := 0x410128 + 0x100 * i
def MTR_PT_ZST_FALLBACK (i : Nat) : Fld := ⟨addr_MTR_PT_ZST i, 6, 1⟩
def MTR_PT_ZST_REF (i : Nat) : Fld := ⟨addr_MTR_PT_ZST i, 4, 2⟩
def MTR_PT_ZST_LOSS (i : Nat) : Fld := ⟨addr_MTR_PT_ZST i, 0, 3⟩
def addr_MTR_RES0 (i j : Nat) : Nat := 0x410140 + 0x100 * i + 4 * j
def addr_MTR_DEM_CFG (i : Nat) : Nat := 0x410300 + 0x40 * i
def MTR_DEM_CFG_LEN (i : Nat) : Fld := ⟨addr_MTR_DEM_CFG i, 26, 6⟩
def MTR_DEM_CFG_UNIT (i : Nat) : Fld := ⟨addr_MTR_DEM_CFG i, 24, 2⟩
def MTR_DEM_CFG_OFS (i : Nat) : Fld := ⟨addr_MTR_DEM_CFG i, 0, 12⟩
def addr_MTR_DEM_HDR (i : Nat) : Nat := 0x410304 + 0x40 * i
def MTR_DEM_HDR_SEQ (i : Nat) : Fld := ⟨addr_MTR_DEM_HDR i, 16, 16⟩
def MTR_DEM_HDR_INVALID (i : Nat) : Fld := ⟨addr_MTR_DEM_HDR i, 5, 1⟩
def MTR_DEM_HDR_LOSS_V (i : Nat) : Fld := ⟨addr_MTR_DEM_HDR i, 4, 1⟩
def MTR_DEM_HDR_NOGLOBAL (i : Nat) : Fld := ⟨addr_MTR_DEM_HDR i, 3, 1⟩
def MTR_DEM_HDR_STEP (i : Nat) : Fld := ⟨addr_MTR_DEM_HDR i, 2, 1⟩
def MTR_DEM_HDR_PARTIAL (i : Nat) : Fld := ⟨addr_MTR_DEM_HDR i, 1, 1⟩
def MTR_DEM_HDR_VALID (i : Nat) : Fld := ⟨addr_MTR_DEM_HDR i, 0, 1⟩
def addr_MTR_DEM_START (i : Nat) : Nat := 0x410308 + 0x40 * i
def addr_MTR_DEM_PIMP (i : Nat) : Nat := 0x41030c + 0x40 * i
def addr_MTR_DEM_PEXP (i : Nat) : Nat := 0x410310 + 0x40 * i
def addr_MTR_DEM_QIMP (i : Nat) : Nat := 0x410314 + 0x40 * i
def addr_MTR_DEM_QEXP (i : Nat) : Nat := 0x410318 + 0x40 * i
def addr_MTR_DEM_REV (i : Nat) : Nat := 0x41031c + 0x40 * i
def MTR_DEM_REV_N (i : Nat) : Fld := ⟨addr_MTR_DEM_REV i, 0, 16⟩
def addr_MTR_MP_CFG (i : Nat) : Nat := 0x410380 + 4 * i
def MTR_MP_CFG_EN (i : Nat) : Fld := ⟨addr_MTR_MP_CFG i, 31, 1⟩
def MTR_MP_CFG_REG (i : Nat) : Fld := ⟨addr_MTR_MP_CFG i, 26, 5⟩
def MTR_MP_CFG_WIDTH (i : Nat) : Fld := ⟨addr_MTR_MP_CFG i, 16, 8⟩
def MTR_MP_CFG_K (i : Nat) : Fld := ⟨addr_MTR_MP_CFG i, 0, 16⟩
def addr_MTR_MP_ST (i : Nat) : Nat := 0x410390 + 4 * i
def MTR_MP_ST_PIN (i : Nat) : Fld := ⟨addr_MTR_MP_ST i, 31, 1⟩
def MTR_MP_ST_SAT (i : Nat) : Fld := ⟨addr_MTR_MP_ST i, 30, 1⟩
def MTR_MP_ST_WLAST (i : Nat) : Fld := ⟨addr_MTR_MP_ST i, 16, 8⟩
def MTR_MP_ST_BKLG (i : Nat) : Fld := ⟨addr_MTR_MP_ST i, 0, 16⟩
def addr_MTR_E_ECFG (i : Nat) : Nat := 0x410400 + 0x10 * i
def MTR_E_ECFG_EN (i : Nat) : Fld := ⟨addr_MTR_E_ECFG i, 31, 1⟩
def MTR_E_ECFG_MODE (i : Nat) : Fld := ⟨addr_MTR_E_ECFG i, 29, 2⟩
def MTR_E_ECFG_UNIT (i : Nat) : Fld := ⟨addr_MTR_E_ECFG i, 27, 2⟩
def MTR_E_ECFG_POINT (i : Nat) : Fld := ⟨addr_MTR_E_ECFG i, 26, 1⟩
def MTR_E_ECFG_PHASE (i : Nat) : Fld := ⟨addr_MTR_E_ECFG i, 24, 2⟩
def MTR_E_ECFG_QTY (i : Nat) : Fld := ⟨addr_MTR_E_ECFG i, 20, 4⟩
def addr_MTR_E_ELO (i : Nat) : Nat := 0x410404 + 0x10 * i
def addr_MTR_E_EHI (i : Nat) : Nat := 0x410408 + 0x10 * i
def addr_MTR_LOSS_V : Nat := 0x410f00
def MTR_LOSS_V : Fld := ⟨addr_MTR_LOSS_V, 0, 32⟩
def addr_MTR_INV_SAMP : Nat := 0x410f04
def MTR_INV_SAMP : Fld := ⟨addr_MTR_INV_SAMP, 0, 32⟩
def addr_MTR_PULSE_LOST : Nat := 0x410f08
def MTR_PULSE_LOST : Fld := ⟨addr_MTR_PULSE_LOST, 0, 32⟩
def addr_MTR_WC_WRAP : Nat := 0x410f0c
def MTR_WC_WRAP : Fld := ⟨addr_MTR_WC_WRAP, 0, 32⟩
def addr_MTR_SAVE_FAIL : Nat := 0x410f10
def MTR_SAVE_FAIL : Fld := ⟨addr_MTR_SAVE_FAIL, 0, 32⟩
def addr_MTR_CLEARS : Nat := 0x410f14
def MTR_CLEARS : Fld := ⟨addr_MTR_CLEARS, 0, 32⟩
def addr_MOR_CTRL : Nat := 0x420004
def MOR_CTRL_NOCLAIM : Fld := ⟨addr_MOR_CTRL, 2, 1⟩
def addr_MOR_STAT : Nat := 0x420008
def MOR_STAT_EPOCH : Fld := ⟨addr_MOR_STAT, 16, 16⟩
def MOR_STAT_MIS_CONSEC : Fld := ⟨addr_MOR_STAT, 8, 8⟩
def MOR_STAT_WHY : Fld := ⟨addr_MOR_STAT, 6, 2⟩
def MOR_STAT_SPLIT : Fld := ⟨addr_MOR_STAT, 5, 1⟩
def MOR_STAT_DIVERGED : Fld := ⟨addr_MOR_STAT, 4, 1⟩
def MOR_STAT_ROLE : Fld := ⟨addr_MOR_STAT, 3, 1⟩
def MOR_STAT_STATE : Fld := ⟨addr_MOR_STAT, 0, 3⟩
def addr_MOR_EVT : Nat := 0x420010
def MOR_EVT_THROTTLE : Fld := ⟨addr_MOR_EVT, 11, 1⟩
def MOR_EVT_XM : Fld := ⟨addr_MOR_EVT, 10, 1⟩
def MOR_EVT_PAIR_FAULT : Fld := ⟨addr_MOR_EVT, 9, 1⟩
def MOR_EVT_SPLIT : Fld := ⟨addr_MOR_EVT, 8, 1⟩
def MOR_EVT_SYNC_FAIL : Fld := ⟨addr_MOR_EVT, 7, 1⟩
def MOR_EVT_SYNC_DONE : Fld := ⟨addr_MOR_EVT, 6, 1⟩
def MOR_EVT_UNFIT : Fld := ⟨addr_MOR_EVT, 5, 1⟩
def MOR_EVT_MISMATCH : Fld := ⟨addr_MOR_EVT, 4, 1⟩
def MOR_EVT_HO_REFUSED : Fld := ⟨addr_MOR_EVT, 3, 1⟩
def MOR_EVT_YIELD : Fld := ⟨addr_MOR_EVT, 2, 1⟩
def MOR_EVT_TAKEOVER : Fld := ⟨addr_MOR_EVT, 1, 1⟩
def MOR_EVT_PARTNER_LOST : Fld := ⟨addr_MOR_EVT, 0, 1⟩
def addr_MOR_CFG : Nat := 0x420020
def MOR_CFG_PAIR : Fld := ⟨addr_MOR_CFG, 31, 1⟩
def MOR_CFG_LANE_HO : Fld := ⟨addr_MOR_CFG, 30, 1⟩
def MOR_CFG_HDL_HO : Fld := ⟨addr_MOR_CFG, 29, 1⟩
def MOR_CFG_AUTO_RESYNC : Fld := ⟨addr_MOR_CFG, 28, 1⟩
def MOR_CFG_UNFIT_CLAIM : Fld := ⟨addr_MOR_CFG, 27, 1⟩
def MOR_CFG_MIS_LIM : Fld := ⟨addr_MOR_CFG, 16, 8⟩
def MOR_CFG_SPLIT_TRIP : Fld := ⟨addr_MOR_CFG, 8, 8⟩
def MOR_CFG_START_TMO : Fld := ⟨addr_MOR_CFG, 0, 8⟩
def addr_MOR_CFG2 : Nat := 0x420024
def MOR_CFG2_TOFS_LIM : Fld := ⟨addr_MOR_CFG2, 16, 16⟩
def MOR_CFG2_XM : Fld := ⟨addr_MOR_CFG2, 0, 16⟩
def addr_MOR_PEER : Nat := 0x420028
def MOR_PEER_EPOCH : Fld := ⟨addr_MOR_PEER, 16, 16⟩
def MOR_PEER_PAIR_OK : Fld := ⟨addr_MOR_PEER, 4, 1⟩
def MOR_PEER_ROLE : Fld := ⟨addr_MOR_PEER, 3, 1⟩
def MOR_PEER_STATE : Fld := ⟨addr_MOR_PEER, 0, 3⟩
def addr_MOR_OBEY : Nat := 0x420030
def MOR_OBEY_PARTNER : Fld := ⟨addr_MOR_OBEY, 16, 9⟩
def MOR_OBEY_OWN : Fld := ⟨addr_MOR_OBEY, 0, 9⟩
def addr_MOR_XM : Nat := 0x420034
def MOR_XM_X : Fld := ⟨addr_MOR_XM, 0, 24⟩
def addr_MOR_TOFS : Nat := 0x420038
def addr_MOR_DIG_LO : Nat := 0x420040
def MOR_DIG_LO : Fld := ⟨addr_MOR_DIG_LO, 0, 32⟩
def addr_MOR_DIG_HI : Nat := 0x420044
def addr_MOR_PDIG_LO : Nat := 0x420048
def addr_MOR_PDIG_HI : Nat := 0x42004c
def addr_MOR_DIG_K : Nat := 0x420050
def addr_MOR_SYNC : Nat := 0x420060
def MOR_SYNC_PHASE : Fld := ⟨addr_MOR_SYNC, 8, 2⟩
def MOR_SYNC_PROG : Fld := ⟨addr_MOR_SYNC, 0, 7⟩
def addr_MOR_OBEYS (i : Nat) : Nat := 0x420080 + 4 * i
def addr_MOR_TAKEOVERS : Nat := 0x420f00
def MOR_TAKEOVERS : Fld := ⟨addr_MOR_TAKEOVERS, 0, 32⟩
def addr_MOR_HANDOVERS : Nat := 0x420f04
def MOR_HANDOVERS : Fld := ⟨addr_MOR_HANDOVERS, 0, 32⟩
def addr_MOR_HO_REFUSED : Nat := 0x420f08
def MOR_HO_REFUSED : Fld := ⟨addr_MOR_HO_REFUSED, 0, 32⟩
def addr_MOR_YIELDS : Nat := 0x420f0c
def MOR_YIELDS : Fld := ⟨addr_MOR_YIELDS, 0, 32⟩
def addr_MOR_SPLITS : Nat := 0x420f10
def MOR_SPLITS : Fld := ⟨addr_MOR_SPLITS, 0, 32⟩
def addr_MOR_MISMATCH : Nat := 0x420f14
def MOR_MISMATCH : Fld := ⟨addr_MOR_MISMATCH, 0, 32⟩
def addr_MOR_HB_MISS : Nat := 0x420f18
def MOR_HB_MISS : Fld := ⟨addr_MOR_HB_MISS, 0, 32⟩
def addr_MOR_SYNC_FAIL : Nat := 0x420f1c
def MOR_SYNC_FAIL : Fld := ⟨addr_MOR_SYNC_FAIL, 0, 32⟩
def addr_MOR_PAIR_FAULT : Nat := 0x420f20
def MOR_PAIR_FAULT : Fld := ⟨addr_MOR_PAIR_FAULT, 0, 32⟩
def addr_MOR_CMD_DEFER : Nat := 0x420f24
def MOR_CMD_DEFER : Fld := ⟨addr_MOR_CMD_DEFER, 0, 32⟩
def addr_MOR_XM_OVER : Nat := 0x420f28
def MOR_XM_OVER : Fld := ⟨addr_MOR_XM_OVER, 0, 32⟩
def addr_LOG_CTRL : Nat := 0x430004
def LOG_CTRL_FRZ_TMO : Fld := ⟨addr_LOG_CTRL, 16, 8⟩
def LOG_CTRL_ALERT_SEV : Fld := ⟨addr_LOG_CTRL, 8, 3⟩
def LOG_CTRL_FREEZE : Fld := ⟨addr_LOG_CTRL, 0, 1⟩
def addr_LOG_STAT : Nat := 0x430008
def LOG_STAT_FROZEN : Fld := ⟨addr_LOG_STAT, 31, 1⟩
def LOG_STAT_FBUF : Fld := ⟨addr_LOG_STAT, 22, 9⟩
def LOG_STAT_STORED : Fld := ⟨addr_LOG_STAT, 0, 17⟩
def addr_LOG_EVT : Nat := 0x430010
def LOG_EVT_ECC_UNC : Fld := ⟨addr_LOG_EVT, 7, 1⟩
def LOG_EVT_BADREC : Fld := ⟨addr_LOG_EVT, 6, 1⟩
def LOG_EVT_CLEARED : Fld := ⟨addr_LOG_EVT, 5, 1⟩
def LOG_EVT_FRZ_END : Fld := ⟨addr_LOG_EVT, 4, 1⟩
def LOG_EVT_DROP : Fld := ⟨addr_LOG_EVT, 3, 1⟩
def LOG_EVT_OVERWRITE : Fld := ⟨addr_LOG_EVT, 2, 1⟩
def LOG_EVT_REC : Fld := ⟨addr_LOG_EVT, 0, 1⟩
def addr_LOG_NEXT_LO : Nat := 0x430020
def addr_LOG_NEXT_HI : Nat := 0x430024
def addr_LOG_OLD_LO : Nat := 0x430028
def addr_LOG_OLD_HI : Nat := 0x43002c
def addr_LOG_CLR : Nat := 0x430030
def addr_LOG_ECC_LAST : Nat := 0x430040
def LOG_ECC_LAST_MEM : Fld := ⟨addr_LOG_ECC_LAST, 29, 3⟩
def LOG_ECC_LAST_WORD : Fld := ⟨addr_LOG_ECC_LAST, 0, 29⟩
def addr_LOG_SEV (i : Nat) : Nat := 0x430080 + 4 * i
def LOG_SEV_HI (i : Nat) : Fld := ⟨addr_LOG_SEV i, 28, 3⟩
def LOG_SEV_LO (i : Nat) : Fld := ⟨addr_LOG_SEV i, 24, 3⟩
def LOG_SEV_HIMASK (i : Nat) : Fld := ⟨addr_LOG_SEV i, 0, 16⟩
def addr_LOG_CUR_CMD (i : Nat) : Nat := 0x430200 + 0x80 * i
def addr_LOG_CUR_SEEK_LO (i : Nat) : Nat := 0x430204 + 0x80 * i
def addr_LOG_CUR_SEEK_HI (i : Nat) : Nat := 0x430208 + 0x80 * i
def addr_LOG_CUR_STAT (i : Nat) : Nat := 0x43020c + 0x80 * i
def LOG_CUR_STAT_BUSY (i : Nat) : Fld := ⟨addr_LOG_CUR_STAT i, 31, 1⟩
def LOG_CUR_STAT_VALID (i : Nat) : Fld := ⟨addr_LOG_CUR_STAT i, 30, 1⟩
def LOG_CUR_STAT_END (i : Nat) : Fld := ⟨addr_LOG_CUR_STAT i, 29, 1⟩
def addr_LOG_CUR_WIN (i j : Nat) : Nat := 0x430240 + 0x80 * i + 4 * j
def addr_LOG_OVERWRITES : Nat := 0x430f00
def LOG_OVERWRITES : Fld := ⟨addr_LOG_OVERWRITES, 0, 32⟩
def addr_LOG_DROPPED : Nat := 0x430f04
def LOG_DROPPED : Fld := ⟨addr_LOG_DROPPED, 0, 32⟩
def addr_LOG_QDROP : Nat := 0x430f08
def LOG_QDROP : Fld := ⟨addr_LOG_QDROP, 0, 32⟩
def addr_LOG_FRZ_DROP : Nat := 0x430f0c
def LOG_FRZ_DROP : Fld := ⟨addr_LOG_FRZ_DROP, 0, 32⟩
def addr_LOG_BADREC : Nat := 0x430f10
def LOG_BADREC : Fld := ⟨addr_LOG_BADREC, 0, 32⟩
def addr_LOG_ECC_COR (i : Nat) : Nat := 0x430f40 + 8 * i
def LOG_ECC_COR (i : Nat) : Fld := ⟨addr_LOG_ECC_COR i, 0, 32⟩
def addr_LOG_ECC_UNC (i : Nat) : Nat := 0x430f44 + 8 * i
def LOG_ECC_UNC (i : Nat) : Fld := ⟨addr_LOG_ECC_UNC i, 0, 32⟩
def addr_MFT_CTRL : Nat := 0x440004
def addr_MFT_STAT : Nat := 0x440008
def MFT_STAT_ARMED : Fld := ⟨addr_MFT_STAT, 31, 1⟩
def MFT_STAT_ARC_BUSY : Fld := ⟨addr_MFT_STAT, 30, 1⟩
def MFT_STAT_SRC : Fld := ⟨addr_MFT_STAT, 16, 7⟩
def MFT_STAT_ARCN : Fld := ⟨addr_MFT_STAT, 0, 6⟩
def addr_MFT_EVT : Nat := 0x440010
def MFT_EVT_ARC_FAIL : Fld := ⟨addr_MFT_EVT, 2, 1⟩
def MFT_EVT_MISSED : Fld := ⟨addr_MFT_EVT, 1, 1⟩
def MFT_EVT_CAPTURED : Fld := ⟨addr_MFT_EVT, 0, 1⟩
def addr_MFT_CFG : Nat := 0x440020
def MFT_CFG_AUTO : Fld := ⟨addr_MFT_CFG, 31, 1⟩
def MFT_CFG_SRC_EN : Fld := ⟨addr_MFT_CFG, 16, 7⟩
def MFT_CFG_PER_N : Fld := ⟨addr_MFT_CFG, 0, 16⟩
def addr_MFT_TM_LO : Nat := 0x440024
def addr_MFT_TM_HI : Nat := 0x440028
def addr_MFT_TM_FR : Nat := 0x44002c
def addr_MFT_NUM : Nat := 0x440030
def addr_MFT_DETAIL : Nat := 0x440034
def addr_MFT_ASEL : Nat := 0x440040
def addr_MFT_ASTAT : Nat := 0x440044
def MFT_ASTAT_BUSY : Fld := ⟨addr_MFT_ASTAT, 31, 1⟩
def MFT_ASTAT_VALID : Fld := ⟨addr_MFT_ASTAT, 30, 1⟩
def MFT_ASTAT_BAD : Fld := ⟨addr_MFT_ASTAT, 29, 1⟩
def addr_MFT_LAT (i : Nat) : Nat := 0x440100 + 4 * i
def MFT_LAT_STOPPED (i : Nat) : Fld := ⟨addr_MFT_LAT i, 31, 1⟩
def MFT_LAT_LATE (i : Nat) : Fld := ⟨addr_MFT_LAT i, 0, 16⟩
def addr_MFT_AWIN (i : Nat) : Nat := 0x440400 + 4 * i
def addr_MFT_CAPTURES : Nat := 0x440f00
def MFT_CAPTURES : Fld := ⟨addr_MFT_CAPTURES, 0, 32⟩
def addr_MFT_MISSED : Nat := 0x440f04
def MFT_MISSED : Fld := ⟨addr_MFT_MISSED, 0, 32⟩
def addr_MFT_ARC_FAIL : Nat := 0x440f08
def MFT_ARC_FAIL : Fld := ⟨addr_MFT_ARC_FAIL, 0, 32⟩

end Sys2Proof.Machine
end

