-- ==== Sys2Proof/Machine/Sparse.lean ====
section
/-! DEFINITION. Sparse maps: the one form in which the model holds every array of the device (register file, state memory,
key flash, hidden per-lane and per-cell state). A map is a list of (index, value) with indexes strictly rising and no entry
equal to what an unlisted index reads as. `spGet` and `spSet` are the only reader and writer. -/

namespace Sys2Proof.Machine

/-- A sparse map; what an unlisted index reads as is an argument of the reader. -/
abbrev Sp (α : Type) := List (Nat × α)

/-- The value at index `k`; `d` where nothing is listed. -/
def spGet {α : Type} (d : α) (m : Sp α) (k : Nat) : α :=
  match m with
  | [] => d
  | (a, x) :: t => if a = k then x else spGet d t k

/-- The map without index `k`. -/
def spErase {α : Type} (m : Sp α) (k : Nat) : Sp α :=
  match m with
  | [] => []
  | (a, x) :: t => if a = k then spErase t k else (a, x) :: spErase t k

/-- The map with `(k, v)` put before the first larger index. -/
def spIns {α : Type} (m : Sp α) (k : Nat) (v : α) : Sp α :=
  match m with
  | [] => [(k, v)]
  | (a, x) :: t => if k < a then (k, v) :: (a, x) :: t else (a, x) :: spIns t k v

/-- The map with index `k` set to `v`: a value equal to the default is not listed. -/
def spSet {α : Type} [DecidableEq α] (d : α) (m : Sp α) (k : Nat) (v : α) : Sp α :=
  if v = d then spErase m k else spIns (spErase m k) k v

/-- Indexes strictly rising from `lo` and no entry equal to the default of its index. -/
def spWfFrom {α : Type} [DecidableEq α] (d : Nat → α) (lo : Nat) (m : Sp α) : Bool :=
  match m with
  | [] => true
  | (a, x) :: t => decide (lo ≤ a) && decide (x ≠ d a) && spWfFrom d (a + 1) t

/-- The canonical form of a sparse map whose unlisted index `k` reads as `d k`. -/
def spWf {α : Type} [DecidableEq α] (d : Nat → α) (m : Sp α) : Bool := spWfFrom d 0 m

end Sys2Proof.Machine
end

