-- ==== Sys2Proof/Machine/State.lean ====
section
/-! DEFINITION. The state of the block, as plain data, and the state right after reset. Every register of the register tables
stands in `Dev.regs` (the safety island's in `Island.regs`) under its byte address; a register that is not listed holds its reset
value (`regReset`, from the tables). The other fields hold what the chapters give the machine beside its registers: the
accumulator, queues, histories, the second copies in MRAM, the fuses and the configuration key. -/

namespace Sys2Proof.Machine

/-- Why the machine could stop with a fault. The meanings of this model raise none: the spec gives every command an effect. -/
inductive Fault
  /-- Raised by nothing: a named place for a state the spec rules out. Safe. -/
  | ruledOut
  deriving DecidableEq, Repr

/-- Why a command is turned away by the model. -/
inductive Refusal
  /-- Raised by an arm of `exec` whose command has no meaning yet. Safe. -/
  | notModelled (mnemonic : String)
  deriving DecidableEq, Repr

/-- What the device sends or drives, by kind (the number and words of `Out` say which lane, port, pin or path). -/
inductive OutKind
  | reply | refusal
  | sched | lease | invite | board | txn | horn | buoy | crossProbe | laneCtl
  | pin | edge | ptp | supervision | sampledValue | goose | pairFrame | landing | icmp | arp | spiStatus
  deriving DecidableEq, Repr

/-- One thing sent: its kind, the path, lane, port or pin it leaves by, and its words. -/
structure Out where
  kind : OutKind
  port : Nat
  words : List Nat
  deriving DecidableEq, Repr

/-- The control period (R11, R12, R38, R50): instants and lengths in units of 1.25 ns since the PTP epoch. -/
structure PerSt where
  /-- the control period has been started and S(0) is placed -/
  started : Bool := false
  /-- S(0) has been reached -/
  running : Bool := false
  /-- index k of the period in progress -/
  k : Nat := 0
  /-- nominal S(k); before S(0), nominal S(0) -/
  sk : Nat := 0
  /-- T(k) -/
  len : Nat := 0
  /-- length that takes effect at the next sampling instant -/
  nextA : Option Nat := none
  /-- length that takes effect at the one after it -/
  nextB : Option Nat := none
  /-- S(k) + TLM_DUE has passed in this period -/
  duePassed : Bool := false
  /-- S(k) + phi_out has passed in this period -/
  phiPassed : Bool := false
  /-- the Helm deadline has passed in this period -/
  deadlinePassed : Bool := false
  deriving DecidableEq, Repr

/-- The timebase beside its registers (R33 to R48, R54, R55). Times in 2^-32 ns. -/
structure TbsSt where
  /-- increment in force -/
  incr : Nat := 5368709120
  /-- increment transferred, and TBC cycles until it applies (R34) -/
  incrNew : Option (Nat × Nat) := none
  /-- increment in force before the run of over-limit measurements (R45) -/
  held : Nat := 5368709120
  /-- measurements collected in ACQUIRE, newest first -/
  meas : List Int := []
  /-- consecutive over-limit measurements -/
  overs : Nat := 0
  /-- consecutive in-limit measurements in HOLDOVER -/
  goods : Nat := 0
  /-- device time at the entry into HOLDOVER -/
  hoStart : Nat := 0
  /-- HOLDOVER has lasted TBS_HO_LIM -/
  hoOver : Bool := false
  /-- level of the PPSO pin -/
  ppso : Bool := false
  /-- phase of the AOC clock against TBC, in 1/390625 of an AOC cycle -/
  aocPhase : Nat := 0
  /-- AOC cycles since the last trim of the backup counter -/
  trimCnt : Nat := 0
  deriving DecidableEq, Repr

/-- One entry of a timestamp queue (R62, R63): message type, sequenceId, device time, carried time. -/
structure TsEntry where
  mtype : Nat
  seq : Nat
  time : Nat
  car : Int
  deriving DecidableEq, Repr

/-- One PTP port (P1 or P2). Times in 2^-32 ns. -/
structure PtpPort where
  /-- best Announce heard -/
  best : Option PtpAnnounce := none
  /-- two-step Sync waiting for its Follow_Up, with its ingress time -/
  sync : Option (PtpMsg × Nat) := none
  /-- Pdelay_Req in flight: sequenceId and egress time -/
  req : Option (Nat × Nat) := none
  /-- two-step Pdelay_Resp waiting for its follow-up, with its ingress time -/
  resp : Option (PtpMsg × Nat) := none
  /-- mean path delay -/
  delay : Option Int := none
  /-- Pdelay_Req sent since the last completed exchange (R44) -/
  reqSince : Nat := 0
  tsq : List TsEntry := []
  rxq : List TsEntry := []
  deriving DecidableEq, Repr

/-- One lane beside its registers (R80 to R97). -/
structure LaneSt where
  /-- validity of the last received headers while LOCKED, newest first, at most 64 -/
  hdrs : List Bool := []
  /-- data blocks still to come of the frame being received -/
  frameLeft : Nat := 0
  /-- consecutive LQF updates below WARN, at or above WARN + 8, below ALARM, at or above ALARM + 8 -/
  warnLo : Nat := 0
  warnHi : Nat := 0
  alarmLo : Nat := 0
  alarmHi : Nat := 0
  /-- adapter of R80: parameters whose direction is -1, holds, index, and the trial running (base LQF, EQ0, EQ1 before it) -/
  eqNeg : List Nat := []
  eqHold : Sp Nat := []
  eqIdx : Nat := 0
  eqTrial : Option (Nat × Word × Word) := none
  /-- sequence number of the next INVITE -/
  iseq : Nat := 0
  /-- BUOY sequence number of the next BUOY -/
  bseq : Nat := 0
  /-- fault injection: eligible frames seen, frames injected, path that started it, frames held for reordering -/
  fiSeen : Nat := 0
  fiDone : Nat := 0
  fiPath : Nat := 0
  heldTx : Option Out := none
  heldRx : Option Instr := none
  /-- mooring lane: skews of the last BUOYs, newest first, at most 2 (R88) -/
  skews : List Nat := []
  /-- PRBS31 checker in step with the pattern: its last 31 bits, the newest in bit 0 (R93) -/
  prbs : Option Nat := none
  deriving DecidableEq, Repr

/-- A transaction (R146): slot, cell, TAG, OP, endpoint address, data. -/
structure Txn where
  slot : Nat
  cell : Nat
  tag : Nat
  op : Nat
  addr : Nat
  data : Nat
  deriving DecidableEq, Repr

/-- A completed transaction that waits to be popped, with its STATUS (R146, R150). -/
structure TxnDone where
  txn : Txn
  status : Nat
  data : Nat
  deriving DecidableEq, Repr

/-- One configured cell beside its registers (R125 to R146). -/
structure CellSt where
  /-- EP_CAP and EP_MCH of the last HELLO -/
  cap : Nat := 0
  mch : Nat := 0
  /-- next probe identifier, probes sent in this boarding, probes awaiting their echo, probes without echo -/
  probeId : Nat := 0
  probes : Nat := 0
  await : List Nat := []
  lost : Nat := 0
  /-- crossing samples RTT - TURN in 1/32 ns, newest first, at most 16 -/
  samples : List Int := []
  xvalid : Bool := false
  /-- the mean crossing time is over the allowance (R128) -/
  xover : Bool := false
  /-- the configuration of R138 runs; its transactions completed, and the TAG of the one in flight -/
  cfg : Bool := false
  writes : Nat := 0
  wtag : Option Nat := none
  nextTag : Nat := 0
  /-- frame sequence numbers per type sent: SCHED, TXN, BOARD -/
  seqSched : Nat := 0
  seqTxn : Nat := 0
  seqBoard : Nat := 0
  /-- a TLM frame arrived, and was accepted, since S(k) -/
  arrived : Bool := false
  accepted : Bool := false
  /-- consecutive running periods without an accepted TLM -/
  noTlm : Nat := 0
  /-- OBEYS, HOLD and EPOCH of the last accepted TLM -/
  obeysB : Bool := false
  /-- departed since the last sampling instant (R223) -/
  gone : Bool := false
  /-- stale count (R200) -/
  stale : Nat := 0
  epoch : Nat := 0
  deriving DecidableEq, Repr

/-- Towline beside its registers. -/
structure TwlSt where
  /-- cell map: lane * 4 + position ↦ cell + 1 (R101) -/
  map : Sp Nat := []
  /-- identities permitted for a cell, where the configuration limits them: cell, EP_ID, serial number (R140) -/
  permit : List (Nat × Nat × Nat) := []
  cells : Sp CellSt := []
  /-- answered transactions in flight -/
  fly : List Txn := []
  /-- completion queue, oldest first -/
  doneQ : List TxnDone := []
  /-- LEASE sequence number -/
  seqLease : Nat := 0
  deriving DecidableEq, Repr

/-- A local bridge output beside its registers (R175 to R177). -/
structure LbSt where
  /-- changes of code still to come in the interval in progress: time in 31.25 ps since the epoch, code -/
  sched : List (Nat × Nat) := []
  code : Nat := 0
  /-- levels of the two pins before override and interlock -/
  a : Bool := false
  b : Bool := false
  /-- pair form: the pin whose turn-on waits for the dead time (`true`: LBjB) -/
  pend : Option Bool := none
  /-- the override in force (R180): SWAP, INV_A, INV_B from bit 0 -/
  ovr : Nat := 0
  deriving DecidableEq, Repr

/-- History of a leg or local output at the start of an interval (R172). Times in 31.25 ps since the epoch. -/
structure LegHist where
  /-- code in force, when that state began, the code before it -/
  code : Nat := 0
  t : Nat := 0
  prev : Nat := 0
  /-- start of a 0b11 state, or end of a refresh in progress -/
  th : Nat := 0
  /-- duty or phase latched at the last latch point (R164) -/
  lat : Nat := 0
  deriving DecidableEq, Repr

/-- A schedule as built (R172): kind 1 fallback, 2 final; codes at the interval start; entries (offset, leg, code); the history
after it; counts of R169, R170, R173 in the order MINP, MING, deferral, refresh, overflow; forced legs; values as CELL_U0–U4. -/
structure Built where
  kind : Nat
  init : List Nat
  ents : List (Nat × Nat × Nat)
  hist : List LegHist
  cnt : List Nat
  forced : Nat
  vals : List Nat
  psi : Nat
  deriving DecidableEq, Repr

/-- A cell in the carrier bank: leg histories, the schedule sent last for the interval being built, SEQ of its SCHED frames. -/
structure CbkCell where
  hist : List LegHist := []
  cand : Option Built := none
  /-- CENTRE and WIDTH of the last version 1 schedule sent with L0 not forced (R162) -/
  band : Nat × Nat := (0, 0)
  deriving DecidableEq, Repr

/-- A carrier group (R156, R157, R165 to R167): the last reference valley at or before the interval start with its period, the
period before that valley, the committed manual set (period, U0–U5), a commit and a change of MAN and DIS that wait for S(k+1),
sampling instants passed with PEND set, the values in force g0–g4 and period. -/
structure CbkGrp where
  v0 : Nat := 0
  tc : Nat := 0
  tcPrev : Nat := 0
  set : Option (Nat × List Nat) := none
  commit : Bool := false
  pendN : Nat := 0
  vals : List Nat := []
  deriving DecidableEq, Repr

/-- The interval whose schedules are being built: index, start and end in 31.25 ps, T(k), T(k+1) in 1.25 ns, active cells of every
arm in order, group values (g0–g4, period), NL level and order of every arm. -/
structure CbkIv where
  k : Nat
  t0 : Nat
  t1 : Nat
  per : Nat
  perNext : Nat
  act : List (List Nat)
  gv : List (List Nat)
  nl : List (Int × List Nat)
  deriving DecidableEq, Repr

/-- The carrier bank beside its registers. -/
structure CbkSt where
  cells : Sp CbkCell := []
  grps : Sp CbkGrp := []
  /-- local outputs: history, and the schedule for the interval being built (code at its start, changes, history after, counts) -/
  lbHist : Sp LegHist := []
  lbCand : Sp (Nat × List (Nat × Nat) × LegHist × List Nat) := []
  iv : Option CbkIv := none
  /-- NL level and order applied in the last interval, per arm (R508) -/
  applied : Sp (Int × List Nat) := []
  /-- lanes that missed their cut-off in the period in progress -/
  late : List Nat := []
  deriving DecidableEq, Repr


/-- The Helm engine beside its registers and state memory (R186 to R211). -/
structure HlmSt where
  /-- stage table, by word number 4 * descriptor + word (R186) -/
  stage : Sp Word := []
  /-- theta_used and omega_used of the last S(k), binary64 (R210) -/
  theta : Nat := 0
  omega : Nat := 0
  /-- T(k-1), zero before the first period -/
  prev : Nat := 0
  /-- check lines that failed in the run in progress -/
  fails : Nat := 0
  /-- cells whose STALE_LIM was reported in their present run of stale periods (R202) -/
  slim : List Nat := []
  /-- descriptors whose stage-table word is uncorrectable (R441) -/
  bad : List Nat := []
  deriving DecidableEq, Repr

/-- A Gangway channel (R212 to R218): state for the present sampling instant and for the next, in binary64; the target kept, in
binary32; x_hold; a preset that waits. -/
structure GwyCh where
  p : Nat := 0
  v : Nat := 0
  a : Nat := 0
  np : Nat := 0
  nv : Nat := 0
  na : Nat := 0
  tgt : Nat := 0
  xh : Nat := 0
  preset : Option Nat := none
  deriving DecidableEq, Repr

/-- Ballast beside its registers (R221 to R232). -/
structure BlsSt where
  /-- commands accepted, waiting for the next sampling instant: cell ↦ OP -/
  cmds : Sp Nat := []
  /-- per cell, the S(k) at which the admission timer started, in 1.25 ns units -/
  timer : Sp Nat := []
  /-- cells whose admission timer has expired -/
  expired : List Nat := []
  /-- bit a: arm a was below NTGT after step 5 of R224 -/
  below : Nat := 0
  deriving DecidableEq, Repr
/-- A modulator channel beside its registers (R234 to R246): captured bits, newest first, at most 4,400; bits numbered (R238); bits
since the channel was enabled or the last MCLK fault ended; length of the present run of one level; device time of the newest. -/
structure ModCh where
  hist : List Bool := []
  num : Nat := 0
  cnt : Nat := 0
  run : Nat := 0
  t : Nat := 0
  deriving DecidableEq, Repr

/-- A dual-range pair (R244 to R246): samples that count towards LOW, next blend sample (0: none), and for metering the range and
its count. -/
structure ModPair where
  cnt : Nat := 0
  bl : Nat := 0
  mLow : Bool := false
  mCnt : Nat := 0
  deriving DecidableEq, Repr

/-- The modulator inputs beside their registers. -/
structure ModSt where
  chans : Sp ModCh := []
  pairs : Sp ModPair := []
  /-- MCLK fault: no edge; the last measurement out of range; a measurement has been made (R236) -/
  gap : Bool := false
  badFreq : Bool := false
  seen : Bool := false
  /-- ALIGN = PAIR (R238): c(k), acc, corr(k+1), corr(k+2) -/
  c : Nat := 0
  acc : Nat := 0
  corr1 : Int := 0
  corr2 : Int := 0
  deriving DecidableEq, Repr

/-- A conversion in progress: kind (0 triggered, 1 background, 2 urgent, 3 reference), input, and its end in 2^-32 ns. -/
structure SarConv where
  kind : Nat
  inp : Nat
  tEnd : Nat
  deriving DecidableEq, Repr

/-- The progress of one slice's lists (R249): triggered entries done and background entries done in this trigger interval, next
background entry. -/
structure SarList where
  seq : Nat := 0
  bgDone : Nat := 0
  bgPos : Nat := 0
  deriving DecidableEq, Repr

/-- The SAR subsystem beside its registers (R247 to R254). -/
structure SarSt where
  lists : Sp SarList := []
  busy : Sp (Option SarConv) := []
  /-- results that wait for the next sampling instant: input ↦ value -/
  pend : Sp (Option Nat) := []
  /-- trigger intervals begun in the calibration window in progress, slice whose turn is next -/
  win : Nat := 0
  rot : Nat := 0
  /-- codes of the zero reference and of the 1.5 V reference in the window: sum and number of each -/
  s0 : Nat := 0
  n0 : Nat := 0
  s1 : Nat := 0
  n1 : Nat := 0
  /-- new coefficients and a takeover that start at the next trigger -/
  stage : Option (Nat × Nat × Nat) := none
  subst : Option Nat := none
  deriving DecidableEq, Repr

/-- The window comparators beside their registers (R255 to R259): pin voltages in nanovolts, comparators whose settling has ended,
VDD_ANA low. -/
structure WcmSt where
  vin : Sp Int := []
  settled : Nat := 0
  anaLow : Bool := false
  deriving DecidableEq, Repr
/-- One sample of a metering point: device time; per element voltage and current in binary64 (0.0 where invalid) and whether the
voltage is valid (R299, R305). -/
structure MtrSamp where
  t : Nat
  els : List (Nat × Nat × Bool)
  deriving DecidableEq, Repr

/-- The crossing detector of one element (R302, R303): armed, candidate time, last valid voltage sample, last confirmed crossing, and
the length between the last two. -/
structure MtrEl where
  armed : Bool := false
  cand : Option Nat := none
  last : Option (Nat × Nat) := none
  conf : Option Nat := none
  len : Option Nat := none
  deriving DecidableEq, Repr

/-- Sums of a report window (R308), per element: v², i′², E_P, E_Q, E_S; and E_P, E_Q, E_S of the total. -/
structure MtrWin where
  n : Nat := 0
  cyc : Nat := 0
  els : List (List Nat) := []
  tot : List Nat := [0, 0, 0]
  zFirst : Nat := 0
  /-- a cycle used fallback boundaries; the window began without a crossing -/
  fb : Bool := false
  noZ : Bool := false
  deriving DecidableEq, Repr

/-- A demand interval in progress (R316, R317): counts and residues in the order PIMP, PEXP, QIMP, QEXP; REV; flags. -/
structure MtrDem where
  cnt : List Nat := [0, 0, 0, 0]
  res : List Nat := [0, 0, 0, 0]
  rev : Nat := 0
  start : Nat := 0
  partly : Bool := false
  nog : Bool := false
  lossV : Bool := false
  inv : Bool := false
  deriving DecidableEq, Repr

/-- A metering point beside its registers. -/
structure MtrPt where
  /-- samples of the cycle in progress, and older ones, newest first -/
  buf : List MtrSamp := []
  old : List MtrSamp := []
  els : List MtrEl := []
  /-- last cycle boundary and T_r of the cycle in progress -/
  start : Nat := 0
  tr : Nat := 0
  /-- fallback boundaries passed that no sample has reached yet; the cycle in progress began at a fallback boundary -/
  fbN : Nat := 0
  sFb : Bool := false
  win : MtrWin := {}
  /-- sign of the last non-zero E_P: negative -/
  sign : Option Bool := none
  /-- next nominal sample of its stream, counted in samples of device time -/
  nextJ : Nat := 0
  dem : MtrDem := {}
  deriving DecidableEq, Repr

/-- An energy register (R310): V, W, and the residue in binary64. -/
structure EReg where
  v : Nat := 0
  w : Nat := 0
  r : Nat := 0
  deriving DecidableEq, Repr

/-- A pulse output beside its registers (R318): counts towards the next pulse, times at which pulses became due with their number,
newest first. -/
structure MtrPulse where
  sub : Nat := 0
  due : List (Nat × Nat) := []
  deriving DecidableEq, Repr

/-- What the metering block writes to MRAM (R320). -/
structure MtrSave where
  regs : Sp EReg := []
  dem : List MtrDem := []
  bklg : List Nat := []
  deriving DecidableEq, Repr

/-- Metering beside its registers. -/
structure MtrSt where
  pts : Sp MtrPt := []
  regs : Sp EReg := []
  pulses : Sp MtrPulse := []
  deriving DecidableEq, Repr
/-- The three ports beside their registers (R325, R487): Pn_LOS high, bit n - 1; PRP node table, entries seen (source, sequence number),
next sequence number of the redundancy control trailer. -/
structure NetSt where
  los : Nat := 0
  nodes : List Nat := []
  dups : List (Nat × Nat) := []
  seq : Nat := 0
  deriving DecidableEq, Repr

/-- A sampled-value subscription beside its registers (R333, R334): learn count, last smpCnt while learning, e, source of the last
VALID period. -/
structure SvSub where
  learn : Nat := 0
  lastCnt : Nat := 0
  e : Nat := 0
  src : Option Nat := none
  deriving DecidableEq, Repr

/-- A slot's newest accepted sample (R336, R337): its index in device time, value (binary32), validity; the last valid value. -/
structure SvSlot where
  j : Nat := 0
  val : Nat := 0
  ok : Bool := false
  deriving DecidableEq, Repr

/-- Sampled values beside their registers: next sample of each published stream, in samples of device time. -/
structure SvxSt where
  pub : Sp Nat := []
  subs : Sp SvSub := []
  slots : Sp SvSlot := []
  deriving DecidableEq, Repr

/-- A published GOOSE control block beside its registers (R341): elements sent last, device time of the change, repeats sent. -/
structure GsePub where
  data : Option (List Bool) := none
  t : Nat := 0
  reps : Nat := 0
  deriving DecidableEq, Repr

/-- GOOSE beside its registers: control blocks published; data held of each subscription. -/
structure GseSt where
  pub : Sp GsePub := []
  data : Sp (List (Option Bool)) := []
  deriving DecidableEq, Repr
/-- Mooring beside its registers (R350 to R371). -/
structure MorSt where
  /-- writes accepted in this period, to carry to the standby: address, value (R354) -/
  out : List (Nat × Word) := []
  /-- writes accepted less than 2.0 µs before the next sampling instant, which count for the period after it (R354) -/
  defer : List (Nat × Word) := []
  /-- pair identity of the own image (R351) -/
  ident : Nat := 0
  /-- the partner's last PAIR frame since the bond came UP: ROLE B, stepping, firmware version, pair identity -/
  peer : Option (Bool × Nat × Nat × Nat) := none
  /-- the partner's MIS_CONSEC and fresh cells, as last sent -/
  peerMis : Nat := 0
  peerFresh : List Nat := []
  /-- this period: a valid PERIOD frame came; mirrored inputs came; telemetry shows the partner driving; partner judged lost -/
  hb : Bool := false
  mirrored : Bool := false
  drive : Bool := false
  lost : Bool := false
  /-- highest EPOCH in accepted TLM frames (R362) -/
  tlmMax : Nat := 0
  /-- the Painter is taken at the next S(k) after a lost partner -/
  claim : Bool := false
  /-- period h of a planned hand-over (R367) -/
  ho : Option Nat := none
  /-- HDL was seen active; cell lanes reset and not yet judged (R367) -/
  hdlSeen : Bool := false
  laneLost : List Nat := []
  /-- the device yielded in this period and still sends (R362) -/
  tail : Bool := false
  /-- a resynchronisation is asked for (R362) -/
  resync : Bool := false
  /-- consecutive periods with SPLIT (R366) -/
  splitN : Nat := 0
  /-- digests of this period and the one before (R358), and the nominal S(k) of the latter -/
  dig : Nat := 0
  digPrev : Nat := 0
  skPrev : Nat := 0
  /-- mooring crossing samples RTT - TURN in 1/32 ns, newest first, at most 16 (R360) -/
  samples : List Int := []
  deriving DecidableEq, Repr

/-- A Logbook record (R429) without the bytes computed from it. -/
structure LogRec where
  sev : Nat
  frz : Bool
  syncQ : Nat
  src : Nat
  plen : Nat
  code : Nat
  seq : Nat
  time : Nat
  brtc : Nat
  pay : List Nat
  chn : Nat
  deriving DecidableEq, Repr

/-- One Logbook cursor (R438): the SEQ it points at, whether its window holds a record, the record being copied. -/
structure Cursor where
  pos : Nat := 0
  valid : Bool := false
  copy : Option LogRec := none
  deriving DecidableEq, Repr

/-- The Logbook outside MRAM (R434, R439, R440). -/
structure LogSt where
  /-- write queue, oldest first, at most 64 -/
  queue : List LogRec := []
  /-- freeze buffer, oldest first, at most 256 -/
  fbuf : List LogRec := []
  /-- an accepted clear waits: the SEQ that the last record accepted before it holds -/
  clearAfter : Option Nat := none
  cur0 : Cursor := {}
  cur1 : Cursor := {}
  deriving DecidableEq, Repr

/-- One Manifest in the archive (R445): header items and the 64 words of each block, sparse by 64 * block + word. -/
structure ArcEntry where
  tm : Nat
  num : Nat
  src : Nat
  det : Nat
  lat : List Nat
  stopped : Nat
  words : Sp Word
  bad : Bool
  deriving DecidableEq, Repr

/-- A registered Manifest trigger that awaits its instant (R443): T_m and registration cycle in 2^-32 ns, sources, detail. -/
structure MftPend where
  tm : Nat
  reg : Nat
  src : Nat
  det : Nat
  detSrc : Nat
  deriving DecidableEq, Repr

/-- The Manifest controller (R442 to R445). -/
structure MftSt where
  pend : Option MftPend := none
  /-- the captured Manifest whose archive write runs -/
  arcNew : Option ArcEntry := none
  /-- a re-arm waits for the archive write -/
  rearm : Bool := false
  /-- the slice being copied into the window: age and slice -/
  copy : Option (Nat × Nat) := none
  /-- sampling instants since the control period started -/
  perCnt : Nat := 0
  deriving DecidableEq, Repr

/-- The thermal logic's counts of consecutive measurements (R447); a measurement has been made since THM_MAX was read. -/
structure ThmSt where
  /-- measurements meeting the rising condition of the state -/
  up : Nat := 0
  /-- measurements meeting the falling condition of the state -/
  down : Nat := 0
  /-- THM_MAX holds a Tj -/
  maxSet : Bool := false
  deriving DecidableEq, Repr

/-- A key of the ACCESS record (R471). -/
structure AccKey where
  kid : Nat
  cls : Nat
  ip : Nat
  mask : Nat
  secret : List Nat
  deriving DecidableEq, Repr

/-- The ACCESS record in force or its copy in MRAM (R414, R471). -/
structure AccRec where
  spiClass : Nat
  idleTmo : Nat
  keys : List AccKey
  deriving DecidableEq, Repr

/-- One entry of the NETIF record (R471). -/
structure NetIf where
  port : Nat
  flags : Nat
  udp : Nat
  ip : Nat
  mask : Nat
  gw : Nat
  tag : Nat
  deriving DecidableEq, Repr

/-- A REQUEST as received: SEQ, operations (OPC, ADDR, VALUE), TAG (R465, R467). -/
structure LandReq where
  seq : Nat
  ops : List (Nat × Nat × Nat)
  tag : List Nat
  deriving DecidableEq, Repr

/-- One Landing session beside its registers (R465 to R470): session key, SEQ and TAG of the last REQUEST accepted, the RESPONSE stored
for it, SEQ of the device, REQUESTs held (oldest first), operations still to execute, entries of the RESPONSE so far, and
MGT_ALERT_SUM as last reported. -/
structure Session where
  sk : List Nat := []
  lastSeq : Nat := 0
  lastTag : List Nat := []
  lastResp : List Nat := []
  txSeq : Nat := 0
  held : List LandReq := []
  todo : List (Nat × Nat × Nat) := []
  resp : List Nat := []
  seen : Nat := 0
  deriving DecidableEq, Repr

/-- Management access (R458 to R470). -/
structure MgtSt where
  acc : Option AccRec := none
  netif : List NetIf := []
  sess : Sp Session := []
  /-- sessions opened since reset -/
  num : Nat := 0
  /-- per-path latched copies, by path number * 2^24 + address (R460) -/
  latch : Sp Word := []
  deriving DecidableEq, Repr

/-- Clock and reset control: device time of the first write of the software reset sequence (R390); the AOC clock is lost (R291); the
device holds itself in reset after a failed start (R416). -/
structure CrgSt where
  swFirst : Option Nat := none
  aocLost : Bool := false
  retry : Bool := false
  /-- no system reset has followed the last POR -/
  fromPor : Bool := true
  deriving DecidableEq, Repr

/-- A key command in progress (R422): BOT_KCMD.OP, address, the page to verify, and the bytes it leaves on the key or (READ) in the
buffer. -/
structure KeyCmd where
  op : Nat
  addr : Nat
  want : List Nat
  bytes : List Nat
  deriving DecidableEq, Repr

/-- The MRAM die (R434 to R445, R320, R414 to R418, R449). -/
structure Mram where
  /-- Logbook slots that hold a valid record -/
  slots : Sp (Option LogRec) := []
  /-- Logbook slots with the mark but a bad record (R437) -/
  badSlots : List Nat := []
  /-- the two header copies: next SEQ - 1 and chain value; `none`: not valid -/
  hdrA : Option (Nat × Nat) := none
  hdrB : Option (Nat × Nat) := none
  /-- the copy written next -/
  hdrNext : Bool := false
  archive : List ArcEntry := []
  /-- thermal hold flag (R449) -/
  hold : Bool := false
  /-- access copy (R414) -/
  access : Option AccRec := none
  netif : List NetIf := []
  /-- metering state as last saved (R320) -/
  meter : Option MtrSave := none
  /-- a metering save was lost: no valid copy is left (R441) -/
  meterBad : Bool := false
  /-- mirror of BOT_FAILS -/
  fails : Nat := 0
  deriving DecidableEq, Repr

/-- The main-supply part of the device, with the MRAM die and the backup real-time counter. -/
structure Dev where
  /-- register file: byte address, word; an unlisted register holds its reset value -/
  regs : Sp Word := []
  /-- the timebase accumulator, in 2^-32 ns, below 2^96 (R32) -/
  time : Nat := 0
  /-- backup real-time counter in AOC cycles, below 2^55 (R377) -/
  brtc : Nat := 0
  per : PerSt := {}
  tbs : TbsSt := {}
  ptp1 : PtpPort := {}
  ptp2 : PtpPort := {}
  lanes : Sp LaneSt := []
  twl : TwlSt := {}
  /-- state memory: word address (R182) ↦ word; unlisted words are 0.0 -/
  smem : Sp Word := []
  cbk : CbkSt := {}
  hlm : HlmSt := {}
  gwy : Sp GwyCh := []
  bls : BlsSt := {}
  mod : ModSt := {}
  sar : SarSt := {}
  wcm : WcmSt := {}
  mtr : MtrSt := {}
  net : NetSt := {}
  svx : SvxSt := {}
  gse : GseSt := {}
  /-- local bridge outputs -/
  lb : Sp LbSt := []
  mor : MorSt := {}
  /-- the safety island's line: it is not in RUN, or holds its outputs low (R263 source 61, R289) -/
  saf : Bool := true
  /-- received frames released from fault injection and not yet delivered, oldest first (R95) -/
  rxReady : List Instr := []
  log : LogSt := {}
  mft : MftSt := {}
  thm : ThmSt := {}
  mgt : MgtSt := {}
  crg : CrgSt := {}
  kcmd : Option KeyCmd := none
  mram : Mram := {}
  /-- everything sent and driven, newest first (the model's own record of outputs) -/
  sent : List Out := []
  /-- free values drawn so far (the model's own counter) -/
  freeCtr : Nat := 0
  deriving DecidableEq, Repr

/-- The safety island (R279 to R297). -/
structure Island where
  regs : Sp Word := []
  /-- filtered levels: bit 2i SIiA high, bit 2i + 1 SIiB high -/
  levels : Nat := 0
  /-- state of every input as SAF_IN codes it, and the FORM it was derived under -/
  ins : List Nat := List.replicate 8 2
  form : Bool := false
  /-- consecutive switch reads that differ from the values in use, at most 2 -/
  swN : Nat := 0
  /-- LOR was high at power-on and has not been seen low (R290) -/
  lorHeld : Bool := false
  /-- causes of R291 present: bit 0 AOC lost, bit 1 supply low -/
  lost : Nat := 0
  /-- SAFEOFF_A and SAFEOFF_B as driven -/
  outA : Bool := false
  outB : Bool := false
  /-- consecutive high samples of the unpowered seal watch, at most 2 (R293) -/
  sealN : Nat := 0
  deriving DecidableEq, Repr

/-- The backup domain and the main supply (R375 to R377, R415, R416). -/
structure Backup where
  /-- main power present -/
  main : Bool := true
  /-- the backup domain was lost since the last POR (R375) -/
  lost : Bool := false
  /-- backup counter at the start of the last start sequence, in AOC cycles (R412, R415) -/
  startT : Nat := 0
  deriving DecidableEq, Repr

/-- The one-time-programmable fuses that a running device changes (R403): OWN_KH (empty while blank) and the SVN floor. -/
structure Otp where
  ownKh : List Nat := []
  svnFloor : Nat := 0
  deriving DecidableEq, Repr

/-- The block. -/
structure State where
  dev : Dev := {}
  isl : Island := {}
  bak : Backup := {}
  otp : Otp := {}
  /-- the configuration key's bytes; an unlisted byte reads as erased, 0xFF -/
  key : List Host.Cell := []
  /-- commands waiting, first in first out -/
  pending : List Instr := []
  deriving DecidableEq, Repr

/-- The block right after the power-on reset: every register at its reset value. -/
def State.reset : State := {}

end Sys2Proof.Machine
end

