-- ==== Sys2Proof/Machine/Ops.lean ====
section
/-! DEFINITION. The operations every block shares: registers and their fields, event flags, saturating counters (R395),
outputs, Logbook requests (R430 to R434), Manifest triggers (R442 to R444), and free values. -/

namespace Sys2Proof.Machine

/-! ### Registers -/

/-- The block index of a byte address (R454); `none` outside every block. -/
def blockOf (a : Nat) : Option Nat :=
  if a < 0x90000 then some (a / 0x10000)
  else if a < 0x100000 then none
  else if a < 0x120000 then some 9
  else if a < 0x140000 then some 10
  else if a < 0x180000 then some 11
  else if a < 0x1A0000 then some 12
  else if a < 0x200000 then some (a / 0x10000 - 0x1A + 13)
  else if a < 0x400000 then some 12
  else if a < 0x450000 then some (a / 0x10000 - 0x40 + 19)
  else none

/-- The register row an address belongs to. -/
def RegRow.has (r : RegRow) (a : Nat) : Bool :=
  decide (r.base ≤ a) &&
    (let o := a - r.base
     let q := if r.s1 = 0 then 0 else o / r.s1
     let m := if r.s1 = 0 then o else o % r.s1
     let p := if r.s2 = 0 then 0 else m / r.s2
     decide (q < r.n1) && decide (p < r.n2) && decide (q * r.s1 + p * r.s2 = o))

def regRow? (a : Nat) : Option RegRow :=
  match blockOf a with
  | none => none
  | some b => (blockRows b).find? (fun r => r.has a)

/-- The reset word of a row: every field's reset value in its place. -/
def RegRow.reset (r : RegRow) : Word :=
  BitVec.ofNat 32 ((r.fields.map fun f => f.rst % 2 ^ f.width * 2 ^ f.lo).foldl (· + ·) 0)

/-- What an unlisted register reads as: its reset value; zero at unused offsets (R455). -/
def regReset (a : Nat) : Word :=
  match regRow? a with
  | none => 0
  | some r => r.reset

/-- A field of a word. -/
def fldGet (lo width : Nat) (w : Word) : Nat := w.toNat / 2 ^ lo % 2 ^ width

/-- A word with one field replaced. -/
def fldPut (lo width v : Nat) (w : Word) : Word :=
  BitVec.ofNat 32 (w.toNat % 2 ^ lo + v % 2 ^ width * 2 ^ lo + w.toNat / 2 ^ (lo + width) * 2 ^ (lo + width))

/-- The register at byte address `a`. -/
def Dev.rd (d : Dev) (a : Nat) : Word := spGet (regReset a) d.regs a

/-- The device with the register at `a` holding `v`. -/
def Dev.wr (d : Dev) (a : Nat) (v : Word) : Dev := { d with regs := spSet (regReset a) d.regs a v }

/-- The device with the register at `a` holding the low 32 bits of `v`. -/
def Dev.wrN (d : Dev) (a : Nat) (v : Nat) : Dev := d.wr a (BitVec.ofNat 32 v)

def Dev.getF (d : Dev) (f : Fld) : Nat := fldGet f.lo f.width (d.rd f.addr)
def Dev.setF (d : Dev) (f : Fld) (v : Nat) : Dev := d.wr f.addr (fldPut f.lo f.width v (d.rd f.addr))

/-- A one-bit field as a truth value. -/
def Dev.bit (d : Dev) (f : Fld) : Bool := d.getF f = 1

def b2n (b : Bool) : Nat := if b then 1 else 0

/-- Set a one-bit field to a truth value. -/
def Dev.setB (d : Dev) (f : Fld) (b : Bool) : Dev := d.setF f (b2n b)

/-- Bit `i` of a word-sized mask register, read and written. -/
def Dev.maskBit (d : Dev) (a i : Nat) : Bool := (d.rd a).toNat / 2 ^ i % 2 = 1
def Dev.setMaskBit (d : Dev) (a i : Nat) (b : Bool) : Dev := d.wr a (fldPut i 1 (b2n b) (d.rd a))

/-- A two's-complement field. -/
def toSigned (width v : Nat) : Int := if v < 2 ^ (width - 1) then v else (v : Int) - (2 ^ width : Nat)

/-- The two's-complement pattern of an integer in `width` bits. -/
def ofSigned (width : Nat) (i : Int) : Nat := (i % (2 ^ width : Nat)).toNat

/-- An integer limited to `lo … hi`. -/
def clampInt (lo hi i : Int) : Int := if i < lo then lo else if hi < i then hi else i

/-- `n` times a step, with the index rising from 0. -/
def forN {α : Type} (n : Nat) (f : Nat → α → α) (x : α) : α := (List.range n).foldl (fun y i => f i y) x

/-! ### Flags, counters, outputs, free values -/

/-- Set an event flag. -/
def Dev.evt (d : Dev) (f : Fld) : Dev := d.setF f 1

/-- A counter saturated (R395): CRG_SAT and CRG_EVT.CNT_SAT, once until the bit is cleared. -/
def Dev.noteSat (d : Dev) (blk : Nat) : Dev :=
  if d.maskBit addr_CRG_SAT blk then d
  else (d.setMaskBit addr_CRG_SAT blk true).evt CRG_EVT_CNT_SAT

/-- Add `n` to a saturating counter (R395). -/
def Dev.bumpBy (d : Dev) (f : Fld) (n : Nat) : Dev :=
  let m := 2 ^ f.width - 1
  let v := d.getF f
  if v = m ∨ n = 0 then d
  else if m ≤ v + n then (d.setF f m).noteSat ((blockOf f.addr).getD 0)
  else d.setF f (v + n)

/-- Add one to a saturating counter (R395). -/
def Dev.bump (d : Dev) (f : Fld) : Dev := d.bumpBy f 1

/-- Record something sent or driven. -/
def Dev.emit (d : Dev) (k : OutKind) (port : Nat) (words : List Nat) : Dev :=
  { d with sent := ⟨k, port, words⟩ :: d.sent }

/-- Draw a free value: a number below `n` that nothing constrains (log entry 3). -/
def Dev.free (d : Dev) (n : Nat) : Nat × Dev :=
  (Config.freeNat d.freeCtr % n, { d with freeCtr := d.freeCtr + 1 })

/-! ### Time -/

/-- Whole nanoseconds of device time (R32). -/
def Dev.ns (d : Dev) : Nat := d.time / 2 ^ 32

/-- 2^-32 ns units of `n` nanoseconds. -/
def nsU (n : Nat) : Nat := n * 2 ^ 32

/-- Nominal times are held in 1.25 ns units; their 2^-32 ns and 31.25 ps values. -/
def unitsOf125 (n : Nat) : Nat := n * 5368709120
def ticksOf125 (n : Nat) : Nat := n * 40

/-- The edge-time value of a device time (R51), and of a time in 31.25 ps units since the epoch. -/
def edgeOf (t : Nat) : Nat := t / 2 ^ 32 % 2 ^ 36 * 32 + t % 2 ^ 32 / 2 ^ 27
def edgeOfTicks (t : Nat) : Nat := t % 2 ^ 41

/-- Serial comparison of R397: `a` is after `b` modulo 2^n. -/
def serialAfter (n a b : Nat) : Bool :=
  let x := (a + 2 ^ n - b % 2 ^ n) % 2 ^ n
  decide (1 ≤ x ∧ x < 2 ^ (n - 1))

/-! ### Logbook requests (R429 to R434) -/

/-- Bytes of the record that precede CHN, with FRZ taken as 0 (R429, R432). -/
def LogRec.head (r : LogRec) : List Nat :=
  [1, r.sev % 8 + r.syncQ % 4 * 16, r.src, r.plen] ++ leBytes 2 r.code ++ [0, 0] ++ leBytes 8 r.seq ++
    leBytes 8 r.time ++ leBytes 4 r.brtc ++ r.pay.flatMap (leBytes 4)

/-- The 64 bytes of a stored record (R429). -/
def LogRec.bytes (r : LogRec) : List Nat :=
  let h := r.head
  let h := h.take 1 ++ (h.getD 1 0 + b2n r.frz * 8) :: h.drop 2
  let h := h ++ leBytes 4 r.chn
  h ++ leBytes 4 (crc32c h) ++ leBytes 4 0x4C564D4B

/-- The header in force (R437): the valid copy with the higher SEQ; with none, the stored record with the highest SEQ. -/
def Mram.header (m : Mram) : Nat × Nat :=
  match m.hdrA, m.hdrB with
  | some a, some b => if a.1 < b.1 then b else a
  | some a, none => a
  | none, some b => b
  | none, none =>
    (m.slots.map (·.2)).foldl (fun acc r => match r with
      | some r => if acc.1 < r.seq then (r.seq, r.chn) else acc
      | none => acc) (0, 0)

/-- The severity of a record (R433): kinds 0x1 and 0x2 look at HIMASK. -/
def logSeverity (d : Dev) (blk code : Nat) (sev7 : Bool) : Nat :=
  if sev7 ∨ blk = 19 then 7
  else if (code / 4096 = 1 ∨ code / 4096 = 2) ∧ d.getF (LOG_SEV_HIMASK blk) / 2 ^ (code % 32) % 2 = 1 then
    d.getF (LOG_SEV_HI blk)
  else d.getF (LOG_SEV_LO blk)

/-- Accept a record into the write queue with its SEQ and CHN, or drop it when 64 wait (R434). -/
def Dev.logAccept (d : Dev) (blk code stat : Nat) (items : List Nat) (sev7 : Bool) : Dev :=
  if 64 ≤ d.log.queue.length then (d.bump LOG_QDROP).evt LOG_EVT_DROP
  else
    let h := d.mram.header
    let pay := (stat :: items).take 6
    let r : LogRec :=
      { sev := logSeverity d blk code sev7, frz := false, syncQ := d.getF TBS_STAT_SYNC_Q, src := blk,
        plen := 4 * pay.length, code := code, seq := (h.1 + 1) % 2 ^ 64, time := d.ns % 2 ^ 64,
        brtc := d.brtc / 32768 % 2 ^ 32, pay := pay ++ List.replicate (6 - pay.length) 0, chn := 0 }
    let r := { r with chn := crc32c (leBytes 4 h.2 ++ r.head) }
    let m := if d.mram.hdrNext then { d.mram with hdrB := some (r.seq, r.chn), hdrNext := false }
             else { d.mram with hdrA := some (r.seq, r.chn), hdrNext := true }
    { d with mram := m, log := { d.log with queue := d.log.queue ++ [r] } }

/-- Byte address of a block's status register, for payload word 0 (R431). -/
def statAddr (blk : Nat) : Nat :=
  match blk with
  | 0 => 0x8 | 1 => 0x10008 | 2 => 0x20008 | 3 => 0x30008 | 4 => 0x40008 | 5 => 0x50008 | 6 => 0x60008
  | 7 => 0x70008 | 8 => 0x80008 | 9 => 0x112008 | 10 => 0x120008 | 11 => 0x140008 | 12 => 0x180008
  | 13 => 0x1A0008 | 14 => 0x1B0008 | 15 => 0x1C0008 | 16 => 0x1D0008 | 17 => 0x1E0008 | 18 => 0x1F0008
  | 19 => 0x400008 | 20 => 0x410008 | 21 => 0x420008 | 22 => 0x430008 | _ => 0x440008

/-- A record of event bit `bit` of the block's xxx_EVT (R430, kind 0x1). -/
def Dev.logEvt (d : Dev) (blk bit : Nat) (items : List Nat) : Dev :=
  d.logAccept blk (0x1000 + bit) (d.rd (statAddr blk)).toNat items false

/-- The same with severity 7 (R433). -/
def Dev.logEvt7 (d : Dev) (blk bit : Nat) (items : List Nat) : Dev :=
  d.logAccept blk (0x1000 + bit) (d.rd (statAddr blk)).toNat items true

/-- A record of event bit `bit` of a per-instance register, for lane `lane` (R430, kind 0x2). -/
def Dev.logLane (d : Dev) (lane bit : Nat) (items : List Nat) : Dev :=
  d.logAccept 9 (0x2000 + bit) (d.rd (addr_LNK_LSTAT lane)).toNat (lane :: items) false

/-- The code and the items of a record about the register at byte offset `off` of its block (R430, R431, kind 0x3). -/
def regCode (off : Nat) (items : List Nat) : Nat × List Nat :=
  if off / 4 ≤ 0xFFE then (0x3000 + off / 4, items) else (0x3FFF, off :: items)

/-- A record of kind 0x3 about the register at byte offset `off`. -/
def Dev.logReg (d : Dev) (blk off : Nat) (items : List Nat) : Dev :=
  let c := regCode off items
  d.logAccept blk c.1 (d.rd (statAddr blk)).toNat c.2 false

def Dev.logReg7 (d : Dev) (blk off : Nat) (items : List Nat) : Dev :=
  let c := regCode off items
  d.logAccept blk c.1 (d.rd (statAddr blk)).toNat c.2 true

/-- A 64-bit value as two words, low first (R431). -/
def words64 (v : Nat) : List Nat := [v % 2 ^ 32, v / 2 ^ 32 % 2 ^ 32]

/-- A device time as two words of nanoseconds (R431). -/
def timeWords (t : Nat) : List Nat := words64 (t / 2 ^ 32)

/-! ### Manifest triggers (R442 to R444) -/

/-- A trigger of source `src` with detail `det`, to be latched at `tm` (2^-32 ns). Triggers registered in one TBC cycle form one
Manifest; the lowest-numbered source supplies the detail. -/
def Dev.mftTriggerAt (d : Dev) (src det tm : Nat) : Dev :=
  if d.getF MFT_CFG_SRC_EN / 2 ^ src % 2 = 0 then d
  else match d.mft.pend with
    | some p =>
      if p.reg = d.time ∧ p.tm = tm then
        let lower := src < p.detSrc
        { d with mft := { d.mft with pend := some { p with
            src := Nat.lor p.src (2 ^ src), det := if lower then det else p.det,
            detSrc := if lower then src else p.detSrc } } }
      else (d.bump MFT_MISSED).evt MFT_EVT_MISSED
    | none =>
      if d.bit MFT_STAT_ARMED then
        { d with mft := { d.mft with pend := some ⟨tm, d.time, 2 ^ src, det, src⟩ } }
      else (d.bump MFT_MISSED).evt MFT_EVT_MISSED

/-- A trigger other than the periodic one: T_m is 1,000 ns after its registration (R443). -/
def Dev.mftTrigger (d : Dev) (src det : Nat) : Dev := d.mftTriggerAt src det (d.time + nsU 1000)

/-! ### The state's parts -/

/-- Apply an effect on the main-supply part; without main power it does nothing (R393: BACKUP). -/
def State.onDev (s : State) (f : Dev → Dev) : State := if s.bak.main then { s with dev := f s.dev } else s

def Island.rd (i : Island) (a : Nat) : Word := spGet (regReset a) i.regs a
def Island.wr (i : Island) (a : Nat) (v : Word) : Island := { i with regs := spSet (regReset a) i.regs a v }
def Island.getF (i : Island) (f : Fld) : Nat := fldGet f.lo f.width (i.rd f.addr)
def Island.setF (i : Island) (f : Fld) (v : Nat) : Island := i.wr f.addr (fldPut f.lo f.width v (i.rd f.addr))
def Island.bit (i : Island) (f : Fld) : Bool := i.getF f = 1
def Island.setB (i : Island) (f : Fld) (b : Bool) : Island := i.setF f (b2n b)

/-- A local bridge output beside its registers. -/
def Dev.lbOut (d : Dev) (j : Nat) : LbSt := spGet {} d.lb j
def Dev.setLb (d : Dev) (j : Nat) (l : LbSt) : Dev := { d with lb := spSet {} d.lb j l }

/-- A word of state memory (R182). -/
def Dev.mw (d : Dev) (w : Nat) : Word := spGet 0 d.smem w
def Dev.setMw (d : Dev) (w : Nat) (v : Word) : Dev := { d with smem := spSet 0 d.smem w v }
def Dev.setMwN (d : Dev) (w v : Nat) : Dev := d.setMw w (BitVec.ofNat 32 v)

/-- No arm enabled (BOT_ARM.EN). -/
def Dev.noArm (d : Dev) : Bool := d.getF BOT_ARM_EN = 0

/-- The device is configured for a pair (R350). -/
def Dev.paired (d : Dev) : Bool := d.bit MOR_CFG_PAIR

/-- States of R362, as MOR_STAT.STATE codes them. -/
def morSolo : Nat := 0
def morStart : Nat := 1
def morSync : Nat := 2
def morStandby : Nat := 3
def morUnfit : Nat := 4
def morHolder : Nat := 5

def Dev.morState (d : Dev) : Nat := d.getF MOR_STAT_STATE

/-- The device is unpaired or holds the Painter. -/
def Dev.drives (d : Dev) : Bool := !d.paired || decide (d.morState = morHolder)

/-- The device sends schedules: it drives, or it yielded in this period (R362). -/
def Dev.sends (d : Dev) : Bool := d.drives || d.mor.tail

end Sys2Proof.Machine
end

