-- ==== Sys2Proof/Machine/Operands.lean ====
section
/-! DEFINITION. The operand of a register command is an access: a path, an address and a value. This file says how an access is
judged and answered (R4 to R10, R384, R385, R454 to R460, R507); each block's file says what the accepted access does. -/

namespace Sys2Proof.Machine

/-- Status bytes of R462. -/
def stDone : Nat := 0x5A
def stR4 : Nat := 0xC1
def stR9 : Nat := 0xC2
def stR10 : Nat := 0xC3

/-- The path's number in MGT_LASTREF.PATH (R473): 0 SPI, 1–8 Landing slot 0–7. -/
def pathNo (p : Path) : Nat :=
  match p with
  | .spi => 0
  | .landing n => n + 1

/-- R458 permits the Maintainer class: the maintenance key is active and MLOCK (SW12) is 0 among the switches in use. -/
def State.maintOk (s : State) : Bool := s.isl.bit SAF_STAT_KEY && decide (s.isl.getF SAF_SW_USE / 2 ^ 12 % 2 = 0)

/-- The class an access of a path carries (R456, R458, R463, R466): 0 none, 1 Observer, 2 Operator, 3 Maintainer. -/
def State.classOf (s : State) (p : Path) : Nat :=
  let g := match p with
    | .spi => s.dev.getF MGT_STAT_SPI_GRANT
    | .landing n => if n < 8 ∧ s.dev.getF (MGT_SESS_STATE n) ≠ 0 then s.dev.getF (MGT_SESS_CLASS n) else 0
  if g = 3 ∧ !s.maintOk then 2 else g

/-- A clock domain that does not run (R383, R291): HEC in QUIESCENT, LNC with every lane direction OFF, MDC without MCLK, AOC when lost. -/
def Dev.stopped (d : Dev) (dom : RDom) : Bool :=
  match dom with
  | .run => false
  | .hec => d.getF CRG_STAT_PSTATE = 3
  | .lnc => (List.range 72).all fun n => d.getF (LNK_LSTAT_RX_PS n) = 0 && d.getF (LNK_LSTAT_TX_PS n) = 0
  | .mdc => !d.bit MOD_STAT_CLK_OK
  | .aoc => d.crg.aocLost

/-- An access met a stopped domain (R385). -/
def Dev.noteStopped (d : Dev) : Dev := (d.bump CRG_XD_STOPPED).evt CRG_EVT_XD_STOPPED

/-- The clock domain of an address; the Helm engine's memory window is in HEC (R385, R182). -/
def domOf (a : Nat) : RDom :=
  match regRow? a with
  | some r => r.dom
  | none => if 0x200000 ≤ a ∧ a < 0x400000 then .hec else .run

/-- The class a changed field needs, 0 where the write changes nothing of it; `none` where an LK field would change (R457). -/
def fieldNeed (f : RField) (old v : Word) : Option Nat :=
  let o := fldGet f.lo f.width old
  let n := fldGet f.lo f.width v
  match f.ty with
  | .rw => some (if n = o then 0 else f.cls)
  | .lk => if n = o then some 0 else none
  | .w1c => some (if n = 0 then 0 else f.cls)
  | .wo => some (if n = 0 then 0 else f.cls)
  | .ro => some 0
  | .rc => some 0
  | .ct => some 0

def RTy.writable (t : RTy) : Bool :=
  match t with
  | .rw => true | .w1c => true | .wo => true
  | .ro => false | .rc => false | .lk => false | .ct => false

/-- The register is judged field by field: it mixes classes, or holds an LK field (R457). -/
def RegRow.mixed (r : RegRow) : Bool :=
  r.fields.any (fun f => f.ty == .lk) ||
    (let cs := (r.fields.filter (·.ty.writable)).map (·.cls)
     cs.any fun c => decide (c ≠ cs.headD c))

/-- The one class of a register that is not mixed; Operator where no field is writable (R456). -/
def RegRow.cls (r : RegRow) : Nat := ((r.fields.filter (·.ty.writable)).map (·.cls)).headD 2

/-- How a write of `v` to a register of row `r` holding `old` is judged for class `c` (R9, R10, R457). -/
def judgeRow (r : RegRow) (c : Nat) (old v : Word) : Nat :=
  let needs := r.fields.map (fieldNeed · old v)
  if needs.any (·.isNone) then stR9
  else if r.mixed then (if needs.all (fun n => decide (n.getD 0 ≤ c)) then stDone else stR10)
  else if r.cls ≤ c then stDone else stR10

/-- How a write of an address that is no register is judged: the stage table is LK (R186), the coefficient window needs the Maintainer
class (R206), an unused offset takes any write (R455). -/
def Dev.judgeWord (d : Dev) (c a : Nat) (v : Word) : Nat :=
  if 0x190000 ≤ a ∧ a < 0x1A0000 then (if spGet 0 d.hlm.stage ((a - 0x190000) / 4) = v then stDone else stR9)
  else if 0x200000 ≤ a ∧ a < 0x400000 ∧ c < 3 then stR10
  else stDone

/-- How a write is judged (R4, R454, R456). A path of class none is refused under R10 (R463). -/
def Dev.judge (d : Dev) (c a : Nat) (v : Word) : Nat :=
  if a % 4 ≠ 0 ∨ blockOf a = none then stR4
  else if c = 0 then stR10
  else match regRow? a with
    | none => d.judgeWord c a v
    | some r => judgeRow r c (d.rd a) v

/-- A refused access is counted and shown (R473). -/
def Dev.noteRef (d : Dev) (pn st a : Nat) : Dev :=
  (((((d.evt MGT_EVT_REFUSED).bump MGT_REFUSED).setF MGT_LASTREF_PATH pn).setF MGT_LASTREF_STATUS (st % 16)).setF
    MGT_LASTREF_ADDR a)

/-- What a block does with an accepted write: whether it takes it, and the device after (R507). -/
abbrev WEff := Dev → Bool × Dev

/-- Registers that only the holder of a pair takes writes of, and carries to the standby (R207, R354); accepted clears of TRP_CLR
are carried by the clear itself (R277). -/
def carriedAddr (a : Nat) : Bool :=
  decide (0x200000 ≤ a ∧ a < 0x300000) || decide (a = addr_HLM_LOOP) || decide (a = addr_HLM_BANKSW) ||
  decide (a = addr_BLS_CMD) || decide (a = addr_TRP_CLR) || decide (a = addr_GWY_HOLD) || decide (a = addr_TBS_PER) ||
  decide (a = addr_BOT_ARM_SET) || decide (a = addr_BOT_ARM_CLR) ||
  (List.range 32).any (fun i => decide (a = addr_GWY_CH_TGT i) || decide (a = addr_GWY_CH_PRESET i)) ||
  (List.range 24).any (fun n => decide (a = addr_CBK_CG_CTRL n) || decide (addr_CBK_CG_SH_PER n ≤ a ∧ a < addr_CBK_CG_APER n))

/-- An arm command. -/
def armAddr (a : Nat) : Bool := decide (a = addr_BOT_ARM_SET) || decide (a = addr_BOT_ARM_CLR)

/-- What a write that counts for the next period leaves now: nothing, but an arm command is recorded when it is accepted. -/
def Dev.deferred (d d1 : Dev) (a : Nat) : Dev := if armAddr a then d1.setF BOT_ARM_PEND (d.getF BOT_ARM_PEND) else d

/-- The holder takes a carried write: it goes into the PERIOD frame; less than 2.0 µs before S(k+1) it counts as accepted in
period k+1 (R354). `d1` is the device with the write's effect. Arm commands before the period runs are sent by their own effect
(R427). -/
def Dev.carry (d d1 : Dev) (a : Nat) (v : Word) : Dev :=
  if !d.paired || !carriedAddr a || decide (a = addr_TRP_CLR) ||
      (!d.per.running && armAddr a) then d1
  else if d.per.running ∧ (d.per.sk + d.per.len) * 5368709120 ≤ d.time + nsU 2000 then
    let d : Dev := d.deferred d1 a
    { d with mor := { d.mor with defer := d.mor.defer ++ [(a, v)] } }.bump MOR_CMD_DEFER
  else { d1 with mor := { d1.mor with out := d1.mor.out ++ [(a, v)] } }

/-- A write access: judged, then handed to the block. `ref` is what the block sets in addition when the class is refused (R507).
The status and the device after. -/
def Dev.guardW (d : Dev) (c pn a : Nat) (v : Word) (ref : Dev → Dev) (eff : WEff) : Nat × Dev :=
  let st := d.judge c a v
  if st ≠ stDone then (st, (if st = stR10 then ref d else d).noteRef pn st a)
  else if d.stopped (domOf a) then (stR10, d.noteStopped.noteRef pn stR10 a)
  else if carriedAddr a && !d.drives then (stR10, (ref d).noteRef pn stR10 a)
  else
    let r := eff d
    if r.1 then (stDone, d.carry r.2 a v) else (stR10, r.2.noteRef pn stR10 a)

/-- A read access: refused under R4, R454 or without a class; a stopped domain answers its last value (R385). -/
def Dev.guardR (d : Dev) (c pn a : Nat) (eff : Dev → Word × Dev) : Nat × Word × Dev :=
  if a % 4 ≠ 0 ∨ blockOf a = none then (stR4, 0, d.noteRef pn stR4 a)
  else if c = 0 then (stR10, 0, d.noteRef pn stR10 a)
  else
    let d := if d.stopped (domOf a) then d.noteStopped else d
    let r := eff d
    (stDone, r.1, r.2)

/-- The plain effect of a write: RW fields take the value, W1C bits written 1 clear (R6). -/
def applyFields (fs : List RField) (v w : Word) : Word :=
  match fs with
  | [] => w
  | f :: t =>
    let n := fldGet f.lo f.width v
    applyFields t v (match f.ty with
      | .rw => fldPut f.lo f.width n w
      | .w1c => fldPut f.lo f.width (Nat.land (fldGet f.lo f.width w) (Nat.xor n (2 ^ f.width - 1))) w
      | .ro => w | .wo => w | .rc => w | .lk => w | .ct => w)

/-- Write a register that has no effect of its own (R6, R455). -/
def plainWrite (a : Nat) (v : Word) : WEff := fun d =>
  match regRow? a with
  | none => (true, d)
  | some r => (true, d.wr a (applyFields r.fields v (d.rd a)))

/-- A write access as a command: performed on the main-supply part and answered through the path. -/
def State.writeRow (s : State) (p : Path) (a : Nat) (v : Word) (ref : Dev → Dev) (eff : WEff) : State :=
  s.onDev fun d =>
    let r := d.guardW (s.classOf p) (pathNo p) a v ref eff
    r.2.emit .reply (pathNo p) [r.1, a]

/-- A read access as a command: answered with status, address and data. -/
def State.readRow (s : State) (p : Path) (a : Nat) (eff : Dev → Word × Dev) : State :=
  s.onDev fun d =>
    let r := d.guardR (s.classOf p) (pathNo p) a eff
    r.2.2.emit .reply (pathNo p) [r.1, a, r.2.1.toNat]

/-- A command about an instance the spec does not have changes nothing. -/
def State.inst (s : State) (ok : Bool) (f : State → State) : State := if ok then f s else s

/-- The path's own latched copy of a register (R460). -/
def Dev.latched (d : Dev) (pn a : Nat) : Word := spGet 0 d.mgt.latch (pn * 2 ^ 24 + a)

def Dev.setLatch (d : Dev) (pn a : Nat) (v : Nat) : Dev :=
  { d with mgt := { d.mgt with latch := spSet 0 d.mgt.latch (pn * 2 ^ 24 + a) (BitVec.ofNat 32 v) } }

/-- A read-clear register (R6, R8): the read returns the value and leaves zero. -/
def Dev.readClear (d : Dev) (a : Nat) : Word × Dev := (d.rd a, d.wrN a 0)

end Sys2Proof.Machine
end

