-- ==== Sys2Proof/Machine/Timebase.lean ====
section
/-! DEFINITION. The timebase (spec/02_timebase.md): accumulator and increment, the control-period settings, the backup
real-time counter, the 1PPS pins. The PTP messages and the single step stand in Ptp.lean. -/

namespace Sys2Proof.Machine

/-- States of R37, as TBS_STAT.STATE codes them. -/
def tbsUnset : Nat := 0
def tbsAcquire : Nat := 1
def tbsLocked : Nat := 2
def tbsHoldover : Nat := 3
def tbsFree : Nat := 4

/-- The nominal increment: 1.25 ns in 2^-32 ns (R33). -/
def incrNominal : Nat := 5368709120

/-- Sync quality of R48. -/
def syncQuality (st : Nat) (hoOver : Bool) : Nat :=
  if st = tbsLocked then 2 else if st = tbsHoldover then (if hoOver then 0 else 2) else if st = tbsFree then 1 else 0

def Dev.tbsState (d : Dev) : Nat := d.getF TBS_STAT_STATE

/-- Both open demand intervals have seen a sync quality other than GLOBAL (R317). -/
def Dev.mtrNoGlobal (d : Dev) : Dev :=
  forN 2 (fun m d =>
    let x := spGet {} d.mtr.pts m
    { d with mtr := { d.mtr with pts := spSet {} d.mtr.pts m { x with dem := { x.dem with nog := true } } } }) d

/-- Enter a timebase state; the sync quality follows (R48). -/
def Dev.tbsEnter (d : Dev) (st : Nat) : Dev :=
  let q := syncQuality st d.tbs.hoOver
  let d := (d.setF TBS_STAT_STATE st).setF TBS_STAT_SYNC_Q q
  if q = 2 then d else d.mtrNoGlobal

def Dev.tbsGlobal (d : Dev) : Bool := d.getF TBS_STAT_SYNC_Q = 2

/-- The nearest permitted increment (R35). -/
def incrLimit (ppm v : Nat) : Nat :=
  let w := incrNominal * ppm / 1000000
  if v < incrNominal - w then incrNominal - w else if incrNominal + w < v then incrNominal + w else v

/-- An increment is transferred: limited under R35, shown in the registers, in force from the second TBC cycle on (R34). -/
def Dev.transferIncr (d : Dev) (v : Nat) : Dev :=
  let w := incrLimit (d.getF TBS_INCR_LIM_PPM) v
  let d := if w = v then d else (d.evt TBS_EVT_INCR_CLAMP).bump TBS_CLAMPS
  let d := (d.wrN addr_TBS_INCR_FR (w % 2 ^ 32)).setF TBS_INCR_NS_NS (w / 2 ^ 32)
  { d with tbs := { d.tbs with incrNew := some (w, 2) } }

/-- One TBC cycle of the accumulator (R33, R34). -/
def Dev.tbcCycle (d : Dev) : Dev :=
  let t := match d.tbs.incrNew with
    | none => d.tbs
    | some (v, n) => if n ≤ 1 then { d.tbs with incr := v, incrNew := none } else { d.tbs with incrNew := some (v, n - 1) }
  { d with time := (d.time + t.incr) % 2 ^ 96, tbs := t }

/-- The accumulator has reached a nominal instant (2^-32 ns): a period mark is asserted at or after it (R11; log entry 6). -/
def Dev.advanceTo (d : Dev) (t : Nat) : Dev := if d.time < t then { d with time := t % 2 ^ 96 } else d

/-- Device time goes into the backup real-time counter (R39). -/
def brtcOfTime (t : Nat) : Nat :=
  let sec := 10 ^ 9 * 2 ^ 32
  t / sec % 2 ^ 40 * 32768 + t % sec * 32768 / sec

def Dev.brtcWrite (d : Dev) : Dev := { d with brtc := brtcOfTime d.time }

/-- One AOC cycle of the backup real-time counter with its trim every 2^20 cycles (R377). -/
def Dev.aocCycle (d : Dev) : Dev :=
  let c := d.tbs.trimCnt + 1
  let wrap := 2 ^ 20 ≤ c
  let tr := toSigned 8 (d.getF CRG_BRTC_TRIM_STEP)
  let b : Int := d.brtc + 1 + (if wrap then tr else 0)
  { d with brtc := (b % (2 ^ 55 : Nat)).toNat, tbs := { d.tbs with trimCnt := if wrap then 0 else c } }

/-- A pin of a local output goes low. -/
def Dev.lbLow (d : Dev) (j : Nat) (f : Fld) (pin : Nat) : Dev := if d.bit f then (d.setF f 0).emit .pin (2 * j + pin) [0] else d

/-- A local output stands low and has nothing left to drive but its override. -/
def Dev.lbStop (d : Dev) (j : Nat) : Dev :=
  (((d.setLb j { ovr := (d.lbOut j).ovr }).lbLow j (CBK_LB_STAT_PIN_A j) 0).lbLow j (CBK_LB_STAT_PIN_B j) 1).setF
    (CBK_LB_STAT_INTLK_ACT j) 0

/-- No length shown or pending, local pins low, no Helm run, the Gangway at rest. -/
def Dev.stopShown (d : Dev) : Dev :=
  let d := (((d.setF TBS_PERNOW_PER 0).setF TBS_PERNEXT_PER 0).setF TBS_PERNEXT_PEND 0)
  forN 32 (fun n d => d.setF (GWY_CH_STAT_EN n) 0) ((forN 16 (fun j d => d.lbStop j) d).setF HLM_STAT_RUNNING 0)

/-- The control period stops at once: no marks, no lengths pending, no Helm run, the Gangway at rest,
local bridge pins low (R38, R179, R218). -/
def Dev.stopPeriod (d : Dev) : Dev :=
  let d := d.stopShown
  { d with per := {}, cbk := { d.cbk with iv := none, late := [] } }

/-- The doubled period of R448 is asked for: thermal stage 2 or the hold, in a device that is not a standby. -/
def Dev.thmDoubles (d : Dev) : Bool := 3 ≤ d.getF THM_STAT_STATE && d.drives

/-- The length asked for with T_cfg = `t` (R448): doubled unless twice it exceeds 1.000 ms. -/
def Dev.lenFor (d : Dev) (t : Nat) : Nat := if d.thmDoubles ∧ 2 * t ≤ 800000 then 2 * t else t

/-- TBS_PERNEXT shows the length nearest to its sampling instant (R50). -/
def Dev.showNext (d : Dev) : Dev :=
  match d.per.nextA, d.per.nextB with
  | some n, _ => (d.setF TBS_PERNEXT_PER n).setF TBS_PERNEXT_PEND 1
  | none, some n => (d.setF TBS_PERNEXT_PER n).setF TBS_PERNEXT_PEND 1
  | none, none => (d.setF TBS_PERNEXT_PER 0).setF TBS_PERNEXT_PEND 0

/-- A length is requested in the present period (R12): it takes effect at S(k+2). Without a period it is held and shown, and sets
T(0) (R11, R426). -/
def Dev.reqPeriod (d : Dev) (len : Nat) : Dev :=
  if d.per.running then { d with per := { d.per with nextB := some len } }.showNext
  else
    let d := if d.per.started then { d with per := { d.per with len := len } } else d
    (d.setF TBS_PERNEXT_PER len).setF TBS_PERNEXT_PEND 1

/-- S(0) for a write at the present time: the first multiple of T_cfg at least 1.0 ms later, in units of 1.25 ns (R11). -/
def Dev.firstSample (d : Dev) : Nat :=
  let t := d.getF TBS_PER_PER
  let u := unitsOf125 t
  (d.time + nsU 1000000 + u - 1) / u * t

/-- S(0) is placed; the period runs from there. -/
def Dev.placePeriod (d : Dev) (s0 : Nat) : Dev :=
  if d.per.started then d
  else { d with per := { started := true, sk := s0, len := d.lenFor (d.getF TBS_PER_PER) } }

/-- The change an arm write asks for waits for its sampling instant (R425). -/
def Dev.armPend (d : Dev) (set : Bool) (v : Word) : Dev :=
  let mask := fldGet 0 8 v
  let en := d.getF BOT_ARM_EN
  let want := Nat.xor en (d.getF BOT_ARM_PEND)
  let want := if set then Nat.lor want mask else Nat.land want (255 - mask)
  d.setF BOT_ARM_PEND (Nat.xor want en)

/-- A length that TBS_PER does not take (R50). -/
def Dev.perBad (d : Dev) (t : Nat) : Bool :=
  decide (t < d.getF TBS_PERMIN_PER ∨ d.getF TBS_PERMAX_PER < t ∨ t < d.getF TBS_PHI_PHI + 800)

/-- T_cfg is held; a period that cannot be doubled shows in THM_STAT.NODBL (R448). -/
def Dev.perHeld (d : Dev) (t : Nat) : Dev :=
  if d.thmDoubles then (d.setF TBS_PER_PER t).setB THM_STAT_NODBL (decide (800000 < 2 * t)) else d.setF TBS_PER_PER t

def Dev.perRefused (d : Dev) : Dev := (d.evt TBS_EVT_PER_REFUSED).bump TBS_PER_REFUSED

/-- The effect of a write to TBS_PER (R50, R448). -/
def perEffect (v : Word) : WEff := fun d =>
  if d.perBad (fldGet 0 20 v) then (false, d.perRefused)
  else (true, (d.perHeld (fldGet 0 20 v)).reqPeriod (d.lenFor (fldGet 0 20 v)))

/-- The external servo disciplines device time (R61). -/
def Dev.extServo (d : Dev) : Bool := d.bit PTP_CTRL_SERVO

/-- The effect of a write to TBS_INCR_NS: staged (R34); refused under the internal servo (R61). -/
def incrNsEffect (v : Word) : WEff := fun d =>
  if d.extServo then (true, d.setF TBS_INCR_NS_NS (fldGet 0 4 v)) else (false, d)

/-- The effect of a write to TBS_INCR_FR: the staged nanoseconds and the fraction go to the accumulator (R34, R35). -/
def incrFrEffect (v : Word) : WEff := fun d =>
  if d.extServo then (true, d.transferIncr (d.getF TBS_INCR_NS_NS * 2 ^ 32 + v.toNat)) else (false, d)

/-- A write of a TBS_STEP_OFS register: only under the external servo (R61). -/
def stepOfsEffect (a : Nat) (v : Word) : WEff := fun d =>
  if d.extServo then (true, d.wr a v) else (false, d)

/-- A write of TBS_CTRL: a PPSO_WIDTH of 0 is refused (R67, R507). -/
def tbsCtrlEffect (v : Word) : WEff := fun d =>
  if fldGet 8 8 v = 0 then (false, d) else plainWrite addr_TBS_CTRL v d

/-- A refused RESTEP or GO (R37, last row; R61). -/
def Dev.stepRefused (d : Dev) : Dev := (d.evt TBS_EVT_STEP_REFUSED).bump TBS_STEP_REFUSED

/-- The servo's marks of what it has seen go, and the increment is nominal (R37). -/
def Dev.tbsFresh (d : Dev) : Dev :=
  let d := { d with tbs := { d.tbs with meas := [], overs := 0, goods := 0, hoOver := false, incr := incrNominal, incrNew := none } }
  (d.wrN addr_TBS_INCR_FR (incrNominal % 2 ^ 32)).setF TBS_INCR_NS_NS 1

/-- An accepted RESTEP out of LOCKED, HOLDOVER or FREE (R37, R38). -/
def Dev.restart (d : Dev) : Dev :=
  ((d.stopPeriod.tbsFresh.setF TBS_STAT_STEPPED 0).setF TBS_STAT_REFUSED 0).tbsEnter tbsAcquire

/-- TBS_STEP.RESTEP (R37, R38, R13). -/
def restepEffect : WEff := fun d =>
  if !d.noArm then (false, d.stepRefused)
  else if d.tbsState = tbsUnset then (true, d)
  else if d.tbsState = tbsAcquire then (true, { d with tbs := { d.tbs with meas := [] } })
  else (true, d.restart)

/-- Device time as the three words of TBS_TIME. -/
def timeLo (t : Nat) : Nat := t / 2 ^ 32 % 2 ^ 32
def timeHi (t : Nat) : Nat := t / 2 ^ 64 % 2 ^ 32
def timeFr (t : Nat) : Nat := t % 2 ^ 32

/-- Reading TBS_TIME_LO latches the other two words for the path (R67, R460). -/
def timeLoRead (pn : Nat) (d : Dev) : Word × Dev :=
  (BitVec.ofNat 32 (timeLo d.time),
   (d.setLatch pn addr_TBS_TIME_HI (timeHi d.time)).setLatch pn addr_TBS_TIME_FR (timeFr d.time))

/-- Reading TBS_PPSI_LO latches its other two words for the path (R67, R460). -/
def ppsiLoRead (pn : Nat) (d : Dev) : Word × Dev :=
  (d.rd addr_TBS_PPSI_LO,
   (d.setLatch pn addr_TBS_PPSI_HI (d.rd addr_TBS_PPSI_HI).toNat).setLatch pn addr_TBS_PPSI_FR (d.rd addr_TBS_PPSI_FR).toNat)

/-- The signed distance in ns of a time from the nearest whole second (R55). -/
def ppsiDistance (t : Nat) : Int :=
  let ns : Nat := t / 2 ^ 32 % 10 ^ 9
  if ns < 500000000 then ns else (ns : Int) - 1000000000

def ppsoOn (d : Dev) : Dev :=
  if d.bit TBS_CTRL_PPSO_EN && d.bit TBS_STAT_STEPPED && (!d.bit TBS_CTRL_PPSO_QUAL || d.tbsGlobal) then
    ({ d with tbs := { d.tbs with ppso := true } }).emit .pin 200 [1]
  else d

def ppsoOff (d : Dev) : Dev :=
  if d.tbs.ppso then ({ d with tbs := { d.tbs with ppso := false } }).emit .pin 200 [0] else d

def ppsiEdge (falling : Bool) (t : Nat) (d : Dev) : Dev :=
  if d.bit TBS_CTRL_PPSI_EN && (d.bit TBS_CTRL_PPSI_EDGE == falling) then
    let d := ((d.wrN addr_TBS_PPSI_LO (timeLo t)).wrN addr_TBS_PPSI_HI (timeHi t)).wrN addr_TBS_PPSI_FR (timeFr t)
    d.wrN addr_TBS_PPSI_ERR (ofSigned 32 (ppsiDistance t))
  else d

def ppsiMiss (d : Dev) : Dev :=
  if d.bit TBS_CTRL_PPSI_EN then (d.evt TBS_EVT_PPSI_MISS).bump TBS_PPSI_MISSES else d

def holdoverLimit (d : Dev) : Dev :=
  if d.tbsState = tbsHoldover then
    ({ d with tbs := { d.tbs with hoOver := true } }.evt TBS_EVT_HO_LIMIT).tbsEnter tbsHoldover
  else d

/-- One write of the backup real-time counter falls due: taken while the sync quality is GLOBAL (R39). -/
def brtcDue (d : Dev) : Dev := if d.tbsGlobal then d.brtcWrite else d

/-! ### The commands -/

/-- INCR_NS_WRITE (R34, R61). -/
def execIncrNsWrite (p : Path) (v : Word) (s : State) : Host.Outcome State Fault Refusal :=
  .next (s.writeRow p addr_TBS_INCR_NS v id (incrNsEffect v))

/-- INCR_FR_WRITE (R34, R35, R61). -/
def execIncrFrWrite (p : Path) (v : Word) (s : State) : Host.Outcome State Fault Refusal :=
  .next (s.writeRow p addr_TBS_INCR_FR v id (incrFrEffect v))

/-- RESTEP (R37, R38). -/
def execRestep (p : Path) (s : State) : Host.Outcome State Fault Refusal :=
  .next (s.writeRow p addr_TBS_STEP 2 Dev.stepRefused restepEffect)

/-- HOLDOVER_LIMIT (R37, R48). -/
def execHoldoverLimit (s : State) : Host.Outcome State Fault Refusal := .next (s.onDev holdoverLimit)

/-- BRTC_WRITE (R39). -/
def execBrtcWrite (s : State) : Host.Outcome State Fault Refusal := .next (s.onDev brtcDue)

/-- PER_WRITE (R12, R50, R448). -/
def execPerWrite (p : Path) (v : Word) (s : State) : Host.Outcome State Fault Refusal :=
  .next (s.writeRow p addr_TBS_PER v id (perEffect v))

/-- PPSO_PULSE (R54). -/
def execPpsoPulse (s : State) : Host.Outcome State Fault Refusal := .next (s.onDev ppsoOn)

/-- PPSO_PULSE_END (R54). -/
def execPpsoPulseEnd (s : State) : Host.Outcome State Fault Refusal := .next (s.onDev ppsoOff)

/-- PPSI_EDGE (R55). -/
def execPpsiEdge (falling : Bool) (t : Nat) (s : State) : Host.Outcome State Fault Refusal :=
  .next (s.onDev (ppsiEdge falling t))

/-- PPSI_MISS (R55). -/
def execPpsiMiss (s : State) : Host.Outcome State Fault Refusal := .next (s.onDev ppsiMiss)

/-- TIME_LO_READ (R67, R460). -/
def execTimeLoRead (p : Path) (s : State) : Host.Outcome State Fault Refusal :=
  .next (s.readRow p addr_TBS_TIME_LO (timeLoRead (pathNo p)))

/-- PPSI_LO_READ (R55, R460). -/
def execPpsiLoRead (p : Path) (s : State) : Host.Outcome State Fault Refusal :=
  .next (s.readRow p addr_TBS_PPSI_LO (ppsiLoRead (pathNo p)))

end Sys2Proof.Machine
end

