-- ==== Sys2Proof/Machine/Clock.lean ====
section
/-! DEFINITION. What the block does when no command waits: its clocks run on (R33, R377, R383). The table has no row for a clock
edge, so an empty queue is one cycle of TBC, or of AOC while PLL-T is not locked (log entry 5). -/

namespace Sys2Proof.Machine

/-- One AOC cycle lasts 390625 / 16 TBC cycles at the nominal 32.768 kHz and 800 MHz. -/
def aocPerTbc : Nat := 16
def aocLen : Nat := 390625

/-- An AOC cycle, unless that clock is lost (R291). -/
def Dev.aocEdge (d : Dev) : Dev := if d.crg.aocLost then d else d.aocCycle

/-- The AOC cycle that ends in a TBC cycle, if one does. -/
def Dev.aocPart (d : Dev) : Dev :=
  let p := d.tbs.aocPhase + aocPerTbc
  if p < aocLen then { d with tbs := { d.tbs with aocPhase := p } }
  else { d with tbs := { d.tbs with aocPhase := p - aocLen } }.aocEdge

/-- One TBC cycle, and the AOC cycle that ends in it. -/
def Dev.clock (d : Dev) : Dev := d.tbcCycle.aocPart

/-- The clocks run on. -/
def State.tick (s : State) : State :=
  if s.bak.main && s.dev.bit (CRG_PLL_LOCK 0) then { s with dev := s.dev.clock } else { s with dev := s.dev.aocEdge }

end Sys2Proof.Machine
end

