-- ==== Sys2Proof/Machine/Float.lean ====
section
/-! DEFINITION. IEEE 754 arithmetic by exact values and one rounding (R187, R190, R210, R211, R214, R306 and wherever a chapter
works in binary32 or binary64). A bit pattern is a natural; a decoded value is a signed natural times a power of two. Every
result is formed exactly and rounded once, to nearest, ties to even. -/

namespace Sys2Proof.Machine

/-- A binary format: exponent bits and fraction bits. -/
structure Fmt where
  eb : Nat
  mb : Nat
  deriving DecidableEq, Repr

def f32 : Fmt := ⟨8, 23⟩
def f64 : Fmt := ⟨11, 52⟩

/-- A decoded value: not a number, an infinity, or `(-1)^neg * m * 2^e`. -/
inductive FV
  | nan
  | inf (neg : Bool)
  | fin (neg : Bool) (m : Nat) (e : Int)
  deriving DecidableEq, Repr

/-- The exponent of the least significant bit of a subnormal. -/
def Fmt.emin (f : Fmt) : Int := 2 - (2 ^ (f.eb - 1) : Nat) - f.mb

/-- The value a bit pattern stands for. -/
def fdec (f : Fmt) (b : Nat) : FV :=
  let neg := b / 2 ^ (f.eb + f.mb) % 2 = 1
  let ex := b / 2 ^ f.mb % 2 ^ f.eb
  let fr := b % 2 ^ f.mb
  if ex = 2 ^ f.eb - 1 then (if fr = 0 then .inf neg else .nan)
  else if ex = 0 then .fin neg fr f.emin
  else .fin neg (fr + 2 ^ f.mb) (f.emin + (ex - 1 : Nat))

def fsign (f : Fmt) (neg : Bool) : Nat := if neg then 2 ^ (f.eb + f.mb) else 0

/-- The quiet NaN every NaN result takes (0x7FC0_0000 in binary32). -/
def fnan (f : Fmt) : Nat := (2 ^ f.eb - 1) * 2 ^ f.mb + 2 ^ (f.mb - 1)

def finf (f : Fmt) (neg : Bool) : Nat := fsign f neg + (2 ^ f.eb - 1) * 2 ^ f.mb

/-- `num / den * 2^e` as a quotient and whether the division left half, less, more (0 exact, 1 below, 2 tie, 3 above). -/
def qDiv (num den : Nat) (e : Int) : Nat × Nat :=
  let n := if 0 ≤ e then num * 2 ^ e.toNat else num
  let d := if 0 ≤ e then den else den * 2 ^ (-e).toNat
  let r := n % d
  (n / d, if r = 0 then 0 else if 2 * r < d then 1 else if 2 * r = d then 2 else 3)

/-- Round half to even. -/
def rneUp (q : Nat × Nat) : Nat := if q.2 = 3 ∨ (q.2 = 2 ∧ q.1 % 2 = 1) then q.1 + 1 else q.1

/-- The bit pattern nearest to `(-1)^neg * num / den * 2^e`, ties to even; overflow gives the infinity. -/
def fround (f : Fmt) (neg : Bool) (num den : Nat) (e : Int) : Nat :=
  if num = 0 then fsign f neg else
  let e0 : Int := e + (Nat.log2 num : Int) - (Nat.log2 den : Int) - f.mb
  let q0 := (qDiv num den (e - e0)).1
  let e1 : Int := if q0 < 2 ^ f.mb then e0 - 1 else e0
  let ex : Int := max e1 f.emin
  let q := rneUp (qDiv num den (e - ex))
  let b := (ex - f.emin).toNat * 2 ^ f.mb + q
  if (2 ^ f.eb - 1) * 2 ^ f.mb ≤ b then finf f neg else fsign f neg + b

/-- A decoded value as a bit pattern (exact where it came from one). -/
def fenc (f : Fmt) (v : FV) : Nat :=
  match v with
  | .nan => fnan f
  | .inf s => finf f s
  | .fin s m e => fround f s m 1 e

/-- The exact sum of two finite values; an exact zero sum is +0 unless both are −0. -/
def fvAddFin (s1 : Bool) (m1 : Nat) (e1 : Int) (s2 : Bool) (m2 : Nat) (e2 : Int) : FV :=
  let e := min e1 e2
  let a : Int := (m1 * 2 ^ (e1 - e).toNat : Nat)
  let b : Int := (m2 * 2 ^ (e2 - e).toNat : Nat)
  let t := (if s1 then -a else a) + (if s2 then -b else b)
  if t = 0 then .fin (s1 && s2) 0 e else .fin (decide (t < 0)) t.natAbs e

def fvAdd (x y : FV) : FV :=
  match x, y with
  | .nan, _ => .nan
  | _, .nan => .nan
  | .inf a, .inf b => if a = b then .inf a else .nan
  | .inf a, .fin _ _ _ => .inf a
  | .fin _ _ _, .inf b => .inf b
  | .fin s1 m1 e1, .fin s2 m2 e2 => fvAddFin s1 m1 e1 s2 m2 e2

def fvNeg (x : FV) : FV :=
  match x with
  | .nan => .nan
  | .inf s => .inf (!s)
  | .fin s m e => .fin (!s) m e

def fvAbs (x : FV) : FV :=
  match x with
  | .nan => .nan
  | .inf _ => .inf false
  | .fin _ m e => .fin false m e

def fvMul (x y : FV) : FV :=
  match x, y with
  | .nan, _ => .nan
  | _, .nan => .nan
  | .inf a, .inf b => .inf (a != b)
  | .inf a, .fin s m _ => if m = 0 then .nan else .inf (a != s)
  | .fin s m _, .inf b => if m = 0 then .nan else .inf (s != b)
  | .fin s1 m1 e1, .fin s2 m2 e2 => .fin (s1 != s2) (m1 * m2) (e1 + e2)

/-- The order of two values; `none` where one is not a number. -/
def fvCmp (x y : FV) : Option Ordering :=
  match x, y with
  | .nan, _ => none
  | _, .nan => none
  | .inf a, .inf b => some (if a = b then .eq else if a then .lt else .gt)
  | .inf a, .fin _ _ _ => some (if a then .lt else .gt)
  | .fin _ _ _, .inf b => some (if b then .gt else .lt)
  | .fin s1 m1 e1, .fin s2 m2 e2 =>
    let e := min e1 e2
    let a : Int := (m1 * 2 ^ (e1 - e).toNat : Nat)
    let b : Int := (m2 * 2 ^ (e2 - e).toNat : Nat)
    some (compare (if s1 then -a else a) (if s2 then -b else b))

def fvLt (x y : FV) : Bool := fvCmp x y == some .lt
def fvLe (x y : FV) : Bool := fvCmp x y == some .lt || fvCmp x y == some .eq
def fvIsNan (x : FV) : Bool := x == .nan
def fvIsFin (x : FV) : Bool := match x with | .fin _ _ _ => true | _ => false
def fvZero : FV := .fin false 0 0
def fvOfInt (i : Int) : FV := .fin (decide (i < 0)) i.natAbs 0

/-- Sum, difference, product, quotient and square root of bit patterns, each exact and rounded once. -/
def fadd (f : Fmt) (a b : Nat) : Nat := fenc f (fvAdd (fdec f a) (fdec f b))
def fsub (f : Fmt) (a b : Nat) : Nat := fenc f (fvAdd (fdec f a) (fvNeg (fdec f b)))
def fmul (f : Fmt) (a b : Nat) : Nat := fenc f (fvMul (fdec f a) (fdec f b))
def fneg (f : Fmt) (a : Nat) : Nat := fenc f (fvNeg (fdec f a))

def fdiv (f : Fmt) (a b : Nat) : Nat :=
  match fdec f a, fdec f b with
  | .nan, _ => fnan f
  | _, .nan => fnan f
  | .inf _, .inf _ => fnan f
  | .inf s, .fin t _ _ => finf f (s != t)
  | .fin s _ _, .inf t => fsign f (s != t)
  | .fin s m e, .fin t n g =>
    if n = 0 then (if m = 0 then fnan f else finf f (s != t)) else fround f (s != t) m n (e - g)

/-- The integer square root of `n`, by bits from `2^k` down. -/
def isqrtBits (n : Nat) : Nat → Nat → Nat
  | 0, r => r
  | k + 1, r => isqrtBits n k (if (r + 2 ^ k) * (r + 2 ^ k) ≤ n then r + 2 ^ k else r)

def isqrt (n : Nat) : Nat := isqrtBits n (Nat.log2 n / 2 + 1) 0

def fsqrt (f : Fmt) (a : Nat) : Nat :=
  match fdec f a with
  | .nan => fnan f
  | .inf s => if s then fnan f else finf f false
  | .fin s m e =>
    if m = 0 then fsign f s else if s then fnan f else
    -- scale to an even exponent with 2·(mb + 3) spare bits; a sticky bit keeps the rounding exact
    let k := 2 * (f.mb + 3) + (if (e - 2 * (f.mb + 3 : Nat)) % 2 = 0 then 0 else 1)
    let n := m * 2 ^ k
    let r := isqrt n
    fround f false (2 * r + (if r * r = n then 0 else 1)) 1 ((e - k) / 2 - 1)

/-- A binary32 pattern as a binary64 pattern (exact) and back (one rounding). -/
def f32to64 (a : Nat) : Nat := fenc f64 (fdec f32 a)
def f64to32 (a : Nat) : Nat := fenc f32 (fdec f64 a)

/-- The nearest binary32 or binary64 to an integer and to `i * 2^e`. -/
def fofInt (f : Fmt) (i : Int) : Nat := fround f (decide (i < 0)) i.natAbs 1 0
def fofScaled (f : Fmt) (i : Int) (e : Int) : Nat := fround f (decide (i < 0)) i.natAbs 1 e

/-- The integer nearest to `v * 2^k`, ties to even; `none` for NaN and infinities. -/
def fvToIntRne (v : FV) (k : Int) : Option Int :=
  match v with
  | .fin s m e => let q := rneUp (qDiv m 1 (e + k)); some (if s then -(q : Int) else q)
  | _ => none

/-- The floor of `v * 2^k`. -/
def fvFloor (v : FV) (k : Int) : Option Int :=
  match v with
  | .fin s m e => let q := qDiv m 1 (e + k); some (if s then -((q.1 : Int) + (if q.2 = 0 then 0 else 1)) else q.1)
  | _ => none

end Sys2Proof.Machine
end

