-- ==== Sys2Proof/Machine/Lanes.lean ====
section
/-! DEFINITION. The serial lanes (spec/03_lanes.md): power states, Lane Quality Figure and equaliser, block alignment, BUOYs,
mooring bond, spares, fault injection; and the way a frame goes out on a lane. -/

namespace Sys2Proof.Machine

def Dev.lane (d : Dev) (n : Nat) : LaneSt := spGet {} d.lanes n
def Dev.setLane (d : Dev) (n : Nat) (l : LaneSt) : Dev := { d with lanes := spSet {} d.lanes n l }

/-- A flag of LNK_LEVT; where it is enabled LNK_EVT.LANE is set too (R98, R99). -/
def Dev.levt (d : Dev) (n bit : Nat) : Dev :=
  let d := d.setMaskBit (addr_LNK_LEVT n) bit true
  if d.maskBit (addr_LNK_LEVT_EN n) bit then d.evt LNK_EVT_LANE else d

/-! ### Spares and roles -/

/-- The spare (68–71) that serves cell lane `n`, if one does (R90). -/
def Dev.servedBy (d : Dev) (n : Nat) : Option Nat :=
  ((List.range 4).find? fun i => d.bit (LNK_REMAP_EN i) && decide (d.getF (LNK_REMAP_SRC i) = n)).map (68 + ·)

/-- The physical lane that carries cell lane `n` (R92). -/
def Dev.phys (d : Dev) (n : Nat) : Nat := if n < 64 then (d.servedBy n).getD n else n

/-- The cell lane a physical lane carries: itself, or for a spare the lane it serves; `none` where it carries none. -/
def Dev.logical (d : Dev) (n : Nat) : Option Nat :=
  if n < 64 then (if (d.servedBy n).isSome then none else some n)
  else if 68 ≤ n ∧ n < 72 then (if d.bit (LNK_REMAP_EN (n - 68)) then some (d.getF (LNK_REMAP_SRC (n - 68))) else none)
  else none

/-- SERVED and PEER of every lane, from the remap registers (R90, R98). -/
def Dev.showPeers (d : Dev) : Dev :=
  let d := forN 64 (fun n d => match d.servedBy n with
    | some s => (d.setF (LNK_LSTAT_SERVED n) 1).setF (LNK_LSTAT_PEER n) s
    | none => (d.setF (LNK_LSTAT_SERVED n) 0).setF (LNK_LSTAT_PEER n) 0x7F) d
  forN 4 (fun i d => if d.bit (LNK_REMAP_EN i)
    then (d.setF (LNK_LSTAT_SERVED (68 + i)) 1).setF (LNK_LSTAT_PEER (68 + i)) (d.getF (LNK_REMAP_SRC i))
    else (d.setF (LNK_LSTAT_SERVED (68 + i)) 0).setF (LNK_LSTAT_PEER (68 + i)) 0x7F) d

/-- The cell configured at a position of a cell lane (R101). -/
def Dev.cellAt (d : Dev) (n pos : Nat) : Option Nat :=
  let c := spGet 0 d.twl.map (n * 4 + pos)
  if c = 0 then none else some (c - 1)

def Dev.laneCells (d : Dev) (n : Nat) : List Nat := (List.range 4).filterMap (d.cellAt n)

/-- The lane and position a cell is configured at. -/
def Dev.placeOf (d : Dev) (c : Nat) : Option (Nat × Nat) :=
  (d.twl.map.find? fun e => e.2 = c + 1).map fun e => (e.1 / 4, e.1 % 4)

/-! ### Power states (R73 to R76) -/

/-- The state the device requires of a direction of a lane that is not a spare (R73): 0 OFF, 1 DOZE, 2 ACTIVE. -/
def Dev.reqBase (d : Dev) (n : Nat) (rx : Bool) : Nat :=
  if n < 64 then (if (d.laneCells n).isEmpty then 0 else if rx || d.drives then 2 else 1)
  else if n < 68 then (if d.paired then 2 else 0)
  else 0

/-- The requirement of R73, spares included. -/
def Dev.reqState (d : Dev) (n : Nat) (rx : Bool) : Nat :=
  if n < 68 then d.reqBase n rx
  else match d.logical n with
    | some m => d.reqBase m rx
    | none => 0

/-- The request in LNK_LCTRL. -/
def Dev.askState (d : Dev) (n : Nat) (rx : Bool) : Nat :=
  if rx then d.getF (LNK_LCTRL_RX_REQ n) else d.getF (LNK_LCTRL_TX_REQ n)

/-- R74: PLL-L unlocked, Quiescent, or Slipway mode. -/
def Dev.lanesHeld (d : Dev) : Bool :=
  !d.bit (CRG_PLL_LOCK 3) || d.getF CRG_STAT_PSTATE = 3 || d.bit BOT_STAT_SLIPWAY

/-- The effective state of a direction of a lane (R73, R74). -/
def Dev.effState (d : Dev) (n : Nat) (rx : Bool) : Nat :=
  if d.lanesHeld then
    (if d.bit BOT_STAT_SLIPWAY && decide (d.getF (LNK_LCTRL_TEST n) = 1) && decide (d.askState n rx = 2) then 2 else 0)
  else if (d.servedBy n).isSome then 0
  else max (d.askState n rx) (d.reqState n rx)

def Dev.powState (d : Dev) (n : Nat) (rx : Bool) : Nat :=
  if rx then d.getF (LNK_LSTAT_RX_PS n) else d.getF (LNK_LSTAT_TX_PS n)

/-- A receiver is out of ACTIVE: alignment is lost (R82); LQF reads 0 while OFF (R78). -/
def Dev.rxLeaves (d : Dev) (n st : Nat) : Dev :=
  let d := (d.setF (LNK_LSTAT_BLK_ST n) 0).setF (LNK_LSTAT_HDR_RUN n) 0
  let d := if st = 0 then ((d.setF (LNK_LQF_LQF n) 0).setF (LNK_LQF_H n) 0).setF (LNK_LQF_V n) 0 else d
  d.setLane n { d.lane n with hdrs := [], frameLeft := 0, skews := [] }

/-- The adapter starts anew: every direction +1, nothing held, first parameter (R80). -/
def Dev.eqStart (d : Dev) (n : Nat) : Dev :=
  d.setLane n { d.lane n with eqNeg := [], eqHold := [], eqIdx := 0, eqTrial := none }

/-- Initial equaliser acquisition after RX leaves OFF in CONT mode (R79): the values found are free values. -/
def Dev.eqAcquire (d : Dev) (n : Nat) : Dev :=
  if d.getF (LNK_LCTRL_ADAPT n) = 0 then
    let (a, d) := (d.eqStart n).free 32
    let (b, d) := d.free 16
    let (t1, d) := d.free 63
    let (t2, d) := d.free 31
    let (t3, d) := d.free 31
    let (t4, d) := d.free 31
    let (t5, d) := d.free 31
    let d := (d.setF (LNK_EQ0_PEAK n) a).setF (LNK_EQ0_GAIN n) b
    let d := d.setF (LNK_EQ1_DFE1 n) (ofSigned 6 ((t1 : Int) - 31))
    let d := (d.setF (LNK_EQ1_DFE2 n) (ofSigned 5 ((t2 : Int) - 15))).setF (LNK_EQ1_DFE3 n) (ofSigned 5 ((t3 : Int) - 15))
    (d.setF (LNK_EQ1_DFE4 n) (ofSigned 5 ((t4 : Int) - 15))).setF (LNK_EQ1_DFE5 n) (ofSigned 5 ((t5 : Int) - 15))
  else d

/-- A direction takes power state `st` (R75, R78, R79, R82). -/
def Dev.setPow (d : Dev) (n : Nat) (rx : Bool) (st : Nat) : Dev :=
  let old := d.powState n rx
  if old = st then d
  else if rx then
    let d := d.setF (LNK_LSTAT_RX_PS n) st
    if old = 2 then d.rxLeaves n st else if old = 0 then d.eqAcquire n else d
  else d.setF (LNK_LSTAT_TX_PS n) st

/-! ### Lane Quality Figure (R78 to R81) -/

def lqfOf (h v : Nat) : Nat := min (min 255 (4 * h)) (min 255 (v * 51 / 40))

/-- A parameter of the equaliser (R79, R80): 0 peak, 1 gain, 2–6 the DFE taps; its field, and its range. -/
def eqField (n i : Nat) : Fld :=
  match i with
  | 0 => LNK_EQ0_PEAK n
  | 1 => LNK_EQ0_GAIN n
  | 2 => LNK_EQ1_DFE1 n
  | 3 => LNK_EQ1_DFE2 n
  | 4 => LNK_EQ1_DFE3 n
  | 5 => LNK_EQ1_DFE4 n
  | _ => LNK_EQ1_DFE5 n

def eqMin (i : Nat) : Int := if i ≤ 1 then 0 else if i = 2 then -31 else -15
def eqMax (i : Nat) : Int := if i = 0 then 31 else if i = 1 then 15 else if i = 2 then 31 else 15
def Dev.eqVal (d : Dev) (n i : Nat) : Int :=
  let f := eqField n i
  if i ≤ 1 then d.getF f else toSigned f.width (d.getF f)

/-- The next parameter index, cyclically, with no hold; the same one when all are held (R80). -/
def eqNext (hold : Sp Nat) (i : Nat) : Nat :=
  (((List.range 7).map fun k => (i + 1 + k) % 7).find? fun j => spGet 0 hold j = 0).getD i

/-- The trial running is judged on the new LQF (R80). -/
def Dev.eqJudge (d : Dev) (n lqf : Nat) : Dev :=
  match (d.lane n).eqTrial with
  | none => d
  | some (base, e0, e1) =>
    let l := d.lane n
    let i := l.eqIdx
    let worse := lqf < base
    let d := if worse then (d.wr (addr_LNK_EQ0 n) e0).wr (addr_LNK_EQ1 n) e1 else d
    let neg := if worse then (if l.eqNeg.contains i then l.eqNeg.erase i else i :: l.eqNeg) else l.eqNeg
    let hold := if worse ∧ lqf + 8 ≤ base then spSet 0 l.eqHold i 64 else l.eqHold
    let hold := (List.range 7).foldl (fun m j => spSet 0 m j (spGet 0 m j - 1)) hold
    d.setLane n { l with eqNeg := neg, eqHold := hold, eqIdx := eqNext hold i, eqTrial := none }

/-- A trial of one parameter by one step begins (R80). -/
def Dev.eqTry (d : Dev) (n lqf : Nat) : Dev :=
  let l := d.lane n
  let i := l.eqIdx
  let e0 := d.rd (addr_LNK_EQ0 n)
  let e1 := d.rd (addr_LNK_EQ1 n)
  let v := clampInt (eqMin i) (eqMax i) (d.eqVal n i + (if l.eqNeg.contains i then -1 else 1))
  let d := d.setF (eqField n i) (ofSigned (eqField n i).width v)
  d.setLane n { l with eqTrial := some (lqf, e0, e1) }

/-- WARN and ALARM status after an update (R81). -/
def Dev.lqfStatus (d : Dev) (n lqf : Nat) : Dev :=
  let l := d.lane n
  let w := d.getF (LNK_LQF_THR_WARN n)
  let a := d.getF (LNK_LQF_THR_ALARM n)
  let cnt (c : Bool) (k : Nat) := if c then min 4 (k + 1) else 0
  let l' := { l with warnLo := cnt (decide (lqf < w)) l.warnLo, warnHi := cnt (decide (w + 8 ≤ lqf)) l.warnHi,
                     alarmLo := cnt (decide (lqf < a)) l.alarmLo, alarmHi := cnt (decide (a + 8 ≤ lqf)) l.alarmHi }
  let d := d.setLane n l'
  let d := if l'.warnLo = 4 ∧ !d.bit (LNK_LSTAT_LQF_WARN n) then (d.setF (LNK_LSTAT_LQF_WARN n) 1).levt n 3
    else if l'.warnHi = 4 then d.setF (LNK_LSTAT_LQF_WARN n) 0 else d
  if l'.alarmLo = 4 ∧ !d.bit (LNK_LSTAT_LQF_ALARM n) then
    (((d.setF (LNK_LSTAT_LQF_ALARM n) 1).levt n 4).bump (LNK_LQF_ALARMS n)).logLane n 4 []
  else if l'.alarmHi = 4 then d.setF (LNK_LSTAT_LQF_ALARM n) 0 else d

/-- One LQF update of a lane whose receiver is ACTIVE (R78). -/
def lqfUpdate (n h v : Nat) (d : Dev) : Dev :=
  if d.powState n true = 2 then
    let q := lqfOf h v
    let d := ((d.setF (LNK_LQF_LQF n) q).setF (LNK_LQF_H n) h).setF (LNK_LQF_V n) v
    let d := if d.getF (LNK_LCTRL_ADAPT n) = 0 then (d.eqJudge n q).eqTry n q
      else d.setLane n { d.lane n with eqTrial := none }
    d.lqfStatus n q
  else d

/-! ### Block alignment (R82 to R84, R104, R105, R110) -/

/-- The receiver slips one bit (R82, R84). -/
def Dev.slipBit (d : Dev) (n : Nat) : Dev :=
  (d.setF (LNK_SLIP_POS n) ((d.getF (LNK_SLIP_POS n) + 1) % 66)).setF (LNK_LSTAT_HDR_RUN n) 0

/-- A frame in progress is aborted and counted (R110). -/
def Dev.abortFrame (d : Dev) (n : Nat) : Dev :=
  if (d.lane n).frameLeft = 0 then d
  else ((d.setLane n { d.lane n with frameLeft := 0 }).bump TWL_BAD_FRAME |>.bump TWL_ABORTS).evt TWL_EVT_BAD_FRAME

/-- A block accepted in LOCKED: frame assembly and control types (R86, R104, R105, R110). Ordered sets pass between blocks of a
frame; BUOY, HORN and CROSS probes received on a cell lane are discarded. -/
def Dev.rxBlock (d : Dev) (n hdr payload : Nat) : Dev :=
  if hdr = 1 then
    let l := d.lane n
    if l.frameLeft = 0 then d else d.setLane n { l with frameLeft := l.frameLeft - 1 }
  else
    let t := payload % 256
    if t = 0x2D ∨ t = 0x33 ∨ t = 0x4B then d
    else if t = 0x1E then d.abortFrame n
    else if t = 0x78 then
      let d := d.abortFrame n
      d.setLane n { d.lane n with frameLeft := payload / 2 ^ 24 % 32 }
    else ((d.abortFrame n).bump TWL_BAD_FRAME).evt TWL_EVT_BAD_FRAME

/-- One received header in the alignment state machine of R82. -/
def Dev.header (d : Dev) (n hdr payload : Nat) : Dev :=
  let ok : Bool := decide (hdr = 1 ∨ hdr = 2)
  let auto := d.bit (LNK_LCTRL_BLK_AUTO n)
  let st := d.getF (LNK_LSTAT_BLK_ST n)
  let run := d.getF (LNK_LSTAT_HDR_RUN n)
  if st = 0 then
    if ok then (d.setF (LNK_LSTAT_BLK_ST n) 1).setF (LNK_LSTAT_HDR_RUN n) 1
    else if auto then d.slipBit n else d.setF (LNK_LSTAT_HDR_RUN n) 0
  else if st = 1 then
    if ok then
      let d := d.setF (LNK_LSTAT_HDR_RUN n) (min 64 (run + 1))
      if 64 ≤ run + 1 then
        ((d.setF (LNK_LSTAT_BLK_ST n) 2).levt n 1).setLane n { d.lane n with hdrs := [], frameLeft := 0 }
      else d
    else
      let d := (d.setF (LNK_LSTAT_BLK_ST n) 0).setF (LNK_LSTAT_HDR_RUN n) 0
      if auto then d.slipBit n else d
  else
    let l := d.lane n
    let hs := (ok :: l.hdrs).take 64
    let d := d.setLane n { l with hdrs := hs }
    if ok then (d.setF (LNK_LSTAT_HDR_RUN n) (min 64 (run + 1))).rxBlock n hdr payload
    else
      let d := ((d.setF (LNK_LSTAT_HDR_RUN n) 0).bump (LNK_HDR_ERR n)).abortFrame n
      if 16 ≤ (hs.filter (! ·)).length then
        (((d.setF (LNK_LSTAT_BLK_ST n) 0).levt n 2).bump (LNK_BLK_LOSS n)).setLane n
          { d.lane n with hdrs := [], frameLeft := 0, skews := [] }
      else d

/-- The receiver delivers: ACTIVE, LOCKED and not in test (R83, R93). -/
def Dev.rxUp (d : Dev) (n : Nat) : Bool :=
  decide (d.powState n true = 2) && decide (d.getF (LNK_LSTAT_BLK_ST n) = 2) && decide (d.getF (LNK_LCTRL_TEST n) = 0)

/-- A write of LNK_SLIP: SLIP is refused while BLK_AUTO is 1 (R84). -/
def slipEffect (n : Nat) (v : Word) : WEff := fun d =>
  if fldGet 31 1 v = 0 then (true, d)
  else if d.bit (LNK_LCTRL_BLK_AUTO n) then (false, d)
  else (true, ((d.slipBit n).setF (LNK_LSTAT_BLK_ST n) 0).setLane n { d.lane n with hdrs := [], frameLeft := 0 })

/-! ### Mooring bond (R88) -/

def Dev.bondState (d : Dev) : Nat := d.getF LNK_STAT_BOND_ST

def Dev.clearSkews (d : Dev) : Dev := forN 4 (fun m d => d.setLane (64 + m) { d.lane (64 + m) with skews := [] }) d

/-- The bond after a change of a mooring receiver's lock state. -/
def Dev.bondLocks (d : Dev) : Dev :=
  let all := (List.range 4).all fun m => d.rxUp (64 + m)
  if all then (if d.bondState = 0 then (d.setF LNK_STAT_BOND_ST 1).clearSkews else d)
  else if d.bondState = 0 then d else (d.setF LNK_STAT_BOND_ST 0).clearSkews

/-- The bond leaves UP for a wrong or missing BUOY. -/
def Dev.bondDown (d : Dev) : Dev :=
  (((d.setF LNK_STAT_BOND_ST 0).evt LNK_EVT_BOND_DOWN).bump LNK_BOND_DOWN).clearSkews

/-- A BUOY on mooring lane `m` at a skew. -/
def mooringBuoy (m skew : Nat) (d : Dev) : Dev :=
  if d.bondState = 1 then
    let n := 64 + m
    let old := (d.lane n).skews
    let bad := 16 < skew ∨ (∃ o ∈ old.head?, o ≠ skew)
    let d := d.setLane n { d.lane n with skews := (skew :: old).take 2 }
    if bad then (d.evt LNK_EVT_DESKEW_FAIL).bump LNK_DESKEW_FAIL
    else if (List.range 4).all (fun k => match (d.lane (64 + k)).skews with
        | [a, b] => a == b && decide (a ≤ 16)
        | _ => false) then
      let s (k : Nat) := ((d.lane (64 + k)).skews.headD 0)
      ((d.setF LNK_STAT_BOND_ST 2).wrN addr_LNK_BOND_SKEW
        (s 0 + s 1 * 2 ^ 8 + s 2 * 2 ^ 16 + s 3 * 2 ^ 24)).evt LNK_EVT_BOND_UP
    else d
  else if d.bondState = 2 then
    if (d.rd addr_LNK_BOND_SKEW).toNat / 2 ^ (8 * m) % 256 = skew then d else d.bondDown
  else d

/-- No BUOY on mooring lane `m` for 2 × BUOY_INT. -/
def buoyMiss (m : Nat) (d : Dev) : Dev :=
  if d.bondState = 2 then d.bondDown.bump (LNK_BUOY_MISS (64 + m)) else d

/-! ### Sending (R85, R105, R106, R111, R113) -/

/-- The 8 payload bytes of a block in transmission order. -/
def blockBytes (b : Nat) : List Nat := leBytes 8 b

/-- The frame check goes into bits [63:32] of the first data block (R111, R113). -/
def withCheck (blocks : List Nat) : List Nat :=
  match blocks with
  | b0 :: b1 :: t =>
    let b1 := b1 % 2 ^ 32
    b0 :: (b1 + crc32c ((b0 :: b1 :: t).flatMap blockBytes) * 2 ^ 32) :: t
  | _ => blocks

/-- A frame-start block (R111). -/
def frameStart (w0 seq len flags pos type ver : Nat) : Nat :=
  0x78 + ver % 16 * 2 ^ 8 + type % 16 * 2 ^ 12 + pos % 4 * 2 ^ 16 + flags % 64 * 2 ^ 18 + len % 32 * 2 ^ 24 +
    seq % 256 * 2 ^ 32 + w0 % 2 ^ 24 * 2 ^ 40

/-- An INVITE's check is formed with its POS field as zero (R113); POS is sent as 0 by the device, so both agree. -/
def buoyBlock (bseq disp launch : Nat) : Nat := 0x33 + launch % 2 ^ 41 * 2 ^ 8 + disp % 16 * 2 ^ 49 + bseq % 256 * 2 ^ 53

/-- The transmitter can send: not OFF and not in test (R76, R77, R93). -/
def Dev.txUp (d : Dev) (n : Nat) : Bool := decide (d.powState n false ≠ 0) && decide (d.getF (LNK_LCTRL_TEST n) = 0)

/-- A BUOY on every ACTIVE transmitter (R85, R87). -/
def buoySend (disp launch : Nat) (d : Dev) : Dev :=
  forN 72 (fun n d =>
    if d.powState n false = 2 ∧ d.getF (LNK_LCTRL_TEST n) = 0 then
      let l := d.lane n
      (d.setLane n { l with bseq := (l.bseq + 1) % 256 }).emit .buoy n [buoyBlock l.bseq disp (edgeOf launch)]
    else d) d

/-! ### Fault injection (R94 to R97) -/

/-- Injection stops for a reason (0–7, in the order of R97's list; log entry 12): EN clears, held frames are released, the flag is
set and a record written. -/
def Dev.fiStop (d : Dev) (n reason : Nat) : Dev :=
  if d.bit (LNK_FI_CTRL_EN n) then
    let l := d.lane n
    let d := { d with sent := match l.heldTx with | some o => o :: d.sent | none => d.sent,
                      rxReady := match l.heldRx with | some i => d.rxReady ++ [i] | none => d.rxReady }
    let d := (d.setLane n { l with heldTx := none, heldRx := none }).setF (LNK_FI_CTRL_EN n) 0
    (d.levt n 5).logLane n 5 [reason]
  else d

/-- Injection stops on every lane that meets `c`. -/
def Dev.fiStopAll (d : Dev) (reason : Nat) (c : Nat → Dev → Bool) : Dev :=
  forN 72 (fun n d => if c n d then d.fiStop n reason else d) d

/-- Whether an eligible frame is injected (R95), and the device with its counts. -/
def Dev.fiPick (d : Dev) (n : Nat) : Bool × Dev :=
  let l := d.lane n
  let nn := d.getF (LNK_FI_PARAM_N n)
  let seen := l.fiSeen + 1
  let pat := d.getF (LNK_FI_CTRL_PATTERN n)
  let (hit, d) :=
    if pat = 0 then (decide (l.fiDone = 0), d)
    else if pat = 1 then (decide (seen % nn = 0), d)
    else if pat = 2 then (let r := d.free (2 ^ nn); (decide (r.1 = 0), r.2))
    else (decide (l.fiDone < nn), d)
  let l := { d.lane n with fiSeen := seen, fiDone := if hit then l.fiDone + 1 else l.fiDone }
  let d := d.setLane n l
  (hit, if hit then d.bump (LNK_FI_COUNT n) else d)

/-- A frame of type bit `ty` in one direction is eligible (R95); mooring frames always are. -/
def Dev.fiEligible (d : Dev) (n : Nat) (rx : Bool) (ty : Nat) : Bool :=
  let dir := d.getF (LNK_FI_CTRL_DIR n)
  d.bit (LNK_FI_CTRL_EN n) && (decide (dir = 2) || decide (dir = (if rx then 1 else 0))) &&
    (decide (64 ≤ n ∧ n < 68) || decide (d.getF (LNK_FI_CTRL_TYPES n) / 2 ^ ty % 2 = 1))

/-- COUNT reached stops the injection (R97). -/
def Dev.fiCount (d : Dev) (n : Nat) : Dev :=
  let c := d.getF (LNK_FI_PARAM_COUNT n)
  if c ≠ 0 ∧ c ≤ (d.lane n).fiDone then d.fiStop n 0 else d

/-- The frame with one payload bit inverted, so that it fails its check (R95). -/
def corruptFrame (ws : List Nat) : List Nat :=
  match ws with
  | a :: b :: t => a :: Nat.xor b 1 :: t
  | _ => ws

/-- What fault injection on lane `n` lets through in place of frame `x`, in order: `held` is the frame it holds in that direction,
`hold` stores one, `bad` damages one (R95). A frame that is to be held while one is held passes, and the held one follows it. -/
def Dev.fiPass {α : Type} (d : Dev) (n : Nat) (rx : Bool) (ty : Nat) (held : LaneSt → Option α) (hold : LaneSt → Option α → LaneSt)
    (bad : α → α) (x : α) : List α × Dev :=
  if !d.fiEligible n rx ty then ([x], d)
  else
    let (hit, d) := d.fiPick n
    let act := d.getF (LNK_FI_CTRL_ACTION n)
    let l := d.lane n
    if hit ∧ act = 2 ∧ (held l).isNone then ([], (d.setLane n (hold l (some x))).fiCount n)
    else
      let own := if hit ∧ act = 0 then [] else if hit ∧ act = 1 then [bad x] else [x]
      let d := d.setLane n (hold l none)
      (own ++ (held l).toList, if hit then d.fiCount n else d)

/-- Fault injection of lane `n` in the transmit direction. -/
def Dev.fiTx (d : Dev) (n ty : Nat) (o : Out) : List Out × Dev :=
  d.fiPass n false ty (·.heldTx) (fun l x => { l with heldTx := x }) (fun o => { o with words := corruptFrame o.words }) o

/-- A frame of type bit `ty` leaves on physical lane `n`, through fault injection (R95). -/
def Dev.sendPhys (d : Dev) (k : OutKind) (n ty : Nat) (ws : List Nat) : Dev :=
  if d.txUp n then
    let r := d.fiTx n ty ⟨k, n, ws⟩
    { r.2 with sent := r.1.reverse ++ r.2.sent }
  else d

/-- A frame leaves on the physical lane that carries cell lane `n`. -/
def Dev.sendLane (d : Dev) (k : OutKind) (n ty : Nat) (ws : List Nat) : Dev := d.sendPhys k (d.phys n) ty ws

/-- The live-injection permission switch: SW11 among the switch values in use (R281). -/
def liveInject (isl : Island) : Bool := decide (isl.getF SAF_SW_USE / 2 ^ 11 % 2 = 1)

/-- A refused start (R94). -/
def Dev.fiRefused (d : Dev) : Dev := ((d.evt LNK_EVT_FI_REFUSED).bump LNK_FI_REFUSED).logEvt 9 6 []

/-- A write to LNK_FI_CTRL (R94, R95, R97): EN := 1 starts, EN := 0 stops, other fields change while EN stays. -/
def fiEffect (isl : Island) (pn n : Nat) (v : Word) : WEff := fun d =>
  let en := fldGet 31 1 v = 1
  let was := d.bit (LNK_FI_CTRL_EN n)
  if en ∧ !was then
    let pat := fldGet 6 2 v
    let nn := d.getF (LNK_FI_PARAM_N n)
    let bad := (!d.noArm && !liveInject isl) || decide (d.getF (LNK_LCTRL_TEST n) = 1) || decide (fldGet 10 2 v = 3) ||
      decide (fldGet 8 2 v = 3) || decide (nn = 0) || (decide (pat = 2) && (decide (16 < nn) ||
        decide ((d.rd (addr_LNK_FI_SEED n)).toNat = 0)))
    if bad then (false, d.fiRefused)
    else
      let d := (plainWrite (addr_LNK_FI_CTRL n) v d).2
      let d := d.setLane n { d.lane n with fiSeen := 0, fiDone := 0, fiPath := pn }
      (true, d.logReg 9 (0x400 * n + 0x40)
        [n, v.toNat, (d.rd (addr_LNK_FI_PARAM n)).toNat, (d.rd (addr_LNK_FI_SEED n)).toNat])
  else if !en ∧ was then (true, (plainWrite (addr_LNK_FI_CTRL n) v (d.fiStop n 1)).2)
  else (true, (plainWrite (addr_LNK_FI_CTRL n) v d).2)

/-- The frame held for reordering is released after 20 µs (R95). -/
def fiRelease (n : Nat) (rx : Bool) (d : Dev) : Dev :=
  let l := d.lane n
  if rx then match l.heldRx with
    | some i => { d.setLane n { l with heldRx := none } with rxReady := d.rxReady ++ [i] }
    | none => d
  else match l.heldTx with
    | some o => { d.setLane n { l with heldTx := none } with sent := o :: d.sent }
    | none => d

/-! ### PRBS diagnostics (R93) -/

/-- One received bit against the pattern x^31 + x^28 + 1, inverted, of IEEE 802.3: register after it, errors counted. -/
def prbsBit (acc : Nat × Nat) (b : Nat) : Nat × Nat :=
  let want := (acc.1 / 2 ^ 27 + acc.1 / 2 ^ 30 + 1) % 2
  ((acc.1 * 2 + want) % 2 ^ 31, if b = want then acc.2 else acc.2 + 1)

/-- 66 bits received on a lane in test: the first 66 set the checker in step (log entry 18), later ones are checked. -/
def Dev.prbsCheck (d : Dev) (n bits : Nat) : Dev :=
  let bs := (List.range 66).map fun i => bits / 2 ^ i % 2
  match (d.lane n).prbs with
  | none => d.setLane n { d.lane n with prbs := some (bs.foldl (fun r b => (r * 2 + b) % 2 ^ 31) 0) }
  | some r =>
    let x := bs.foldl prbsBit (r, 0)
    (d.setLane n { d.lane n with prbs := some x.1 }).bumpBy (LNK_PRBS_ERR n) x.2

/-! ### Register writes -/

/-- A write to LNK_LQF_THR: ALARM above WARN is refused (R81). -/
def lqfThrEffect (n : Nat) (v : Word) : WEff := fun d =>
  if fldGet 8 8 v < fldGet 0 8 v then (false, d) else plainWrite (addr_LNK_LQF_THR n) v d

/-- A write to LNK_EQ0 or LNK_EQ1: only in MANUAL mode, no reserved tap value (R79, R98). -/
def eqEffect (n : Nat) (one : Bool) (v : Word) : WEff := fun d =>
  if d.getF (LNK_LCTRL_ADAPT n) ≠ 2 then (false, d)
  else if one ∧ (fldGet 26 6 v = 32 ∨ fldGet 21 5 v = 16 ∨ fldGet 16 5 v = 16 ∨ fldGet 11 5 v = 16 ∨ fldGet 6 5 v = 16) then
    (false, d)
  else plainWrite (if one then addr_LNK_EQ1 n else addr_LNK_EQ0 n) v d

end Sys2Proof.Machine
end

