-- ==== Sys2Proof/Machine/Trip.lean ====
section
/-! DEFINITION. The trip matrix (spec/09_trip_matrix.md) with the two paths it drives: the local bridge pins (R175 to R177,
R268) and HORN (R108, R109). -/

namespace Sys2Proof.Machine

/-! ### Local bridge pins -/

def Dev.latched16 (d : Dev) : Nat := d.getF TRP_STAT_LATCH

/-- Groups in common. -/
def groupsMeet (a b : Nat) : Bool := decide (Nat.land a b ≠ 0)

/-- Both pins of output `j` are held low: not in use, no control period, a latched group, or the safety island
(R29, R179, R181, R268, R289). -/
def Dev.lbHeld (d : Dev) (j : Nat) : Bool :=
  !d.bit (CBK_LB_CFG_EN j) || !d.per.running || d.saf || groupsMeet d.latched16 (d.getF (TRP_LBG_GROUPS j))

/-- The two pin levels after override, interlock and forcing, and whether the interlock acts (R177, R180, R268). -/
def Dev.lbPins (d : Dev) (j : Nat) : Bool × Bool × Bool :=
  let l := d.lbOut j
  let (a, b) := if l.ovr % 2 = 1 then (l.b, l.a) else (l.a, l.b)
  let a := xor a (decide (l.ovr / 2 % 2 = 1))
  let b := xor b (decide (l.ovr / 4 % 2 = 1))
  let act := d.bit (CBK_LB_CFG_FORM j) && a && b
  if d.lbHeld j then (false, false, act && d.per.running && d.bit (CBK_LB_CFG_EN j))
  else if act then (false, false, true) else (a, b, false)

/-- The pins of output `j` take their present levels (R177, R181). -/
def Dev.lbShow (d : Dev) (j : Nat) : Dev :=
  let (a, b, act) := d.lbPins j
  let d := if act && !d.bit (CBK_LB_STAT_INTLK_ACT j) then (d.evt CBK_EVT_LB_INTLK).bump CBK_LB_INTLK else d
  let d := d.setB (CBK_LB_STAT_INTLK_ACT j) act
  let d := if d.bit (CBK_LB_STAT_PIN_A j) = a then d else (d.setB (CBK_LB_STAT_PIN_A j) a).emit .pin (2 * j) [b2n a]
  if d.bit (CBK_LB_STAT_PIN_B j) = b then d else (d.setB (CBK_LB_STAT_PIN_B j) b).emit .pin (2 * j + 1) [b2n b]

/-- A leg held at a code from the start of the interval being built (R163). -/
def LegHist.held (h : LegHist) (t0 code : Nat) : LegHist :=
  if h.code = code then h else { h with code := code, t := t0, prev := h.code, th := 0 }

/-- Every held output drops its code, its pending turn-on and the rest of its interval (R176); of the interval being built only
schedules computed after a clear drive it again (R163, R274). -/
def Dev.lbForce (d : Dev) : Dev :=
  forN 16 (fun j d =>
    if d.lbHeld j then
      let t0 := (d.cbk.iv.map (·.t0)).getD 0
      let h := (spGet {} d.cbk.lbHist j).held t0 0
      let d := { d with cbk := { d.cbk with lbCand := spSet (0, [], {}, []) d.cbk.lbCand j (0, [], h, []) } }
      (d.setLb j { ovr := (d.lbOut j).ovr }).lbShow j
    else d) d

/-! ### HORN (R77, R108, R109) -/

/-- A transmitter in DOZE returns to ACTIVE (R76, R77). -/
def Dev.wakeTx (d : Dev) (n : Nat) : Dev :=
  if d.powState n false = 1 then (d.setPow n false 2).bump (LNK_WAKES n) else d

def hornBlock (hseq mask : Nat) : Nat :=
  0x2D + mask % 2 ^ 16 * 2 ^ 8 + hseq % 256 * 2 ^ 24 + (65535 - mask % 2 ^ 16) * 2 ^ 32 + (255 - hseq % 256) * 2 ^ 48

/-- A HORN with the latched groups on every cell lane whose transmitter is not OFF, in four consecutive slots. -/
def Dev.sendHorn (d : Dev) : Dev :=
  let h := (d.getF TWL_HORN_HSEQ + 1) % 256
  let m := d.latched16
  let d := ((d.setF TWL_HORN_HSEQ h).setF TWL_HORN_MASK m)
  let d := (d.evt TWL_EVT_HORN_SENT).bump TWL_HORNS
  forN 64 (fun n d =>
    let p := d.phys n
    if d.txUp p then (d.wakeTx p).emit .horn p (List.replicate 4 (hornBlock h m)) else d) d

/-! ### Sources (R263, R264) -/

/-- The register that holds a source's bit, low sources first. -/
def srcWord (lo hi s : Nat) : Nat := if s < 32 then lo else hi

def Dev.srcBit (d : Dev) (lo hi s : Nat) : Bool := d.maskBit (srcWord lo hi s) (s % 32)
def Dev.setSrcBit (d : Dev) (lo hi s : Nat) (b : Bool) : Dev := d.setMaskBit (srcWord lo hi s) (s % 32) b

/-- A pin that is KNOWN (R271). -/
def Dev.pinKnown (d : Dev) (p : Nat) : Bool := decide (d.getF TRP_STAT_KNOWN / 2 ^ p % 2 = 1)

/-- The live level of a source (R263): an UNKNOWN pin is active, source 61 is the island's line. -/
def Dev.srcActive (d : Dev) (s : Nat) : Bool :=
  if s = 61 then d.saf
  else (decide (24 ≤ s ∧ s < 40) && !d.pinKnown (s - 24)) || d.srcBit addr_TRP_LEVEL0 addr_TRP_LEVEL1 s

/-- A source enabled in the matrix; source 61 always is (R264). -/
def Dev.srcEnabled (d : Dev) (s : Nat) : Bool := decide (s = 61) || d.srcBit addr_TRP_EN0 addr_TRP_EN1 s

/-- The groups a source drives (R265). -/
def Dev.srcGroups (d : Dev) (s : Nat) : Nat :=
  if s = 61 then 0xFFFF else if s < 61 then d.getF (TRP_MAP_GROUPS s) else d.getF (TRP_MAPHI_GROUPS (s - 62))

/-- The lowest-numbered active enabled source mapped to group `g`. -/
def Dev.groupSource (d : Dev) (g : Nat) : Option Nat :=
  (List.range 64).find? fun s => d.srcActive s && d.srcEnabled s && decide (d.srcGroups s / 2 ^ g % 2 = 1)

/-! ### Latching and trip events (R266 to R268) -/

def Dev.isLatched (d : Dev) (g : Nat) : Bool := decide (d.latched16 / 2 ^ g % 2 = 1)

/-- What is recorded when group `g` latches by source `s` (R267). -/
def Dev.latchGroup (d : Dev) (g s : Nat) : Dev :=
  let d := ((d.setF (TRP_GRP_FIRST_SRC g) s).wrN (addr_TRP_GRP_TLO g) (timeLo d.time)).wrN (addr_TRP_GRP_THI g) (timeHi d.time)
  let d := (d.bump (TRP_TRIPS g)).evt TRP_EVT_TRIP
  d.logEvt 18 0 (g :: s :: timeWords d.time)

/-- The clear groups that have an active enabled source, each with the source it latches by. -/
def Dev.newTrips (d : Dev) : List (Nat × Nat) :=
  (List.range 16).filterMap fun g => if d.isLatched g then none else (d.groupSource g).map fun s => (g, s)

/-- Every clear group with an active enabled source latches, all in the same instant; they form one trip event
(R266 to R268). -/
def Dev.evalTrips (d : Dev) : Dev :=
  let hits := d.newTrips
  let new := (hits.map fun x => 2 ^ x.1).sum
  let d := d.setF TRP_STAT_LATCH (d.latched16 + new)
  let d := hits.foldl (fun d x => d.latchGroup x.1 x.2) d
  let d := if d.saf then forN 16 (fun g d => if d.isLatched g then d.setF (TRP_GRP_REARM_SAFSEEN g) 1 else d) d else d
  if new = 0 then d
  else (d.lbForce.sendHorn).mftTrigger 0 new

/-- A source's level changes at the matrix (R263, R264). -/
def Dev.setSource (d : Dev) (s : Nat) (on : Bool) : Dev :=
  let d := d.setSrcBit addr_TRP_LEVEL0 addr_TRP_LEVEL1 s on
  if on then (d.setSrcBit addr_TRP_SEEN0 addr_TRP_SEEN1 s true).evalTrips else d

/-- The safety island's line changes (R263, R289). -/
def Dev.setSaf (d : Dev) (on : Bool) : Dev :=
  let d := ({ d with saf := on }).setSource 61 on
  forN 16 (fun j d => if on then d else d.lbShow j) (if on then d.lbForce else d)

/-- Several sources become active in one TBC cycle; one that is active already changes nothing (R266, R267). -/
def sourcesActive (ss : List Nat) (d : Dev) : Dev :=
  let ss := ss.filter fun s => s < 64 && s ≠ 61 && !d.srcActive s
  let d := ss.foldl (fun d s => (d.setSrcBit addr_TRP_LEVEL0 addr_TRP_LEVEL1 s true).setSrcBit addr_TRP_SEEN0 addr_TRP_SEEN1 s
    true) d
  d.evalTrips

/-! ### TRIP pins (R270, R271) -/

/-- The filtered level of a KNOWN pin changes (R270). -/
def tripPin (p : Nat) (active : Bool) (d : Dev) : Dev :=
  if p < 16 ∧ d.pinKnown p ∧ d.srcBit addr_TRP_LEVEL0 addr_TRP_LEVEL1 (24 + p) ≠ active then d.setSource (24 + p) active else d

/-- A pin becomes KNOWN at a level (R271). -/
def pinBecomesKnown (p : Nat) (active : Bool) (d : Dev) : Dev :=
  if p < 16 ∧ !d.pinKnown p then
    let d := d.setF TRP_STAT_KNOWN (d.getF TRP_STAT_KNOWN + 2 ^ p)
    d.setSource (24 + p) active
  else d

/-- The bank monitor of the TRIP pins (VDDIO2) reports low: every pin becomes UNKNOWN (R271). -/
def bankLow (d : Dev) : Dev :=
  let d := (d.setF TRP_STAT_KNOWN 0).evt TRP_EVT_UNKNOWN
  let d := d.bumpBy TRP_UNKNOWN 16
  let d := forN 16 (fun p d => (d.setSrcBit addr_TRP_LEVEL0 addr_TRP_LEVEL1 (24 + p) true).setSrcBit addr_TRP_SEEN0
    addr_TRP_SEEN1 (24 + p) true) d
  d.evalTrips

/-! ### Gate-drive fault counts (R272) -/

/-- Cell `c` belongs to arm `a`. -/
def Dev.inArm (d : Dev) (a c : Nat) : Bool := d.bit (BLS_CELL_CFG_IN_ARM c) && decide (d.getF (BLS_CELL_CFG_ARM c) = a)

def Dev.armCells (d : Dev) (a : Nat) : List Nat := (List.range 256).filter (d.inArm a)

/-- The counts of every arm and the levels of GD0–GD7. A cell counts while it is boarded, in a membership state other than OUT,
and its last accepted TLM reports a latched fault. -/
def Dev.gdUpdate (d : Dev) : Dev :=
  forN 8 (fun a d =>
    let n := ((d.armCells a).filter fun c => decide (d.getF (TWL_CST_STATE c) = 2) && decide (2 ≤ d.getF (BLS_CELL_ST_STATE c)) &&
      decide (d.getF (TWL_CELL_TLMF_GD_LAT c) ≠ 0)).length
    let d := d.setF (TRP_GDAGG_COUNT a) (min 255 n)
    let on : Bool := decide (d.getF (TRP_GDAGG_GD_N a) ≠ 0 ∧ d.getF (TRP_GDAGG_GD_N a) ≤ n)
    if on = d.srcBit addr_TRP_LEVEL0 addr_TRP_LEVEL1 (48 + a) then d else d.setSource (48 + a) on) d

/-! ### Clearing and re-arm (R273 to R277) -/

/-- The latch of group `g` is cleared and its local pins are released (R274). -/
def Dev.unlatch (d : Dev) (g : Nat) : Dev :=
  let d := d.setF TRP_STAT_LATCH (d.latched16 - 2 ^ g)
  forN 16 (fun j d => d.lbShow j) d

/-- A clear of the groups in `mask` (R273). -/
def Dev.clearGroups (d : Dev) (mask : Nat) : Dev :=
  let d := d.wrN addr_TRP_CLR_STAT 0
  forN 16 (fun g d =>
    if mask / 2 ^ g % 2 = 1 ∧ d.isLatched g then
      match d.groupSource g with
      | none =>
        let d := (((d.unlatch g).setF (TRP_GRP_REARM_COUNT g) 0).setF (TRP_GRP_REARM_EXH g) 0).setF (TRP_GRP_REARM_SAFSEEN g) 0
        let d := d.setF TRP_CLR_STAT_CLEARED (d.getF TRP_CLR_STAT_CLEARED + 2 ^ g)
        (d.evt TRP_EVT_CLR_DONE).logEvt 18 2 []
      | some s =>
        let d := d.setF TRP_CLR_STAT_REFUSED (d.getF TRP_CLR_STAT_REFUSED + 2 ^ g)
        ((d.evt TRP_EVT_CLR_REFUSED).bump TRP_CLR_REFUSED).logEvt 18 1 [g, s]
    else d) d

/-- Accepted clears go to the standby of a pair (R277). -/
def Dev.carryClear (d : Dev) (mask : Nat) : Dev :=
  if d.paired then { d with mor := { d.mor with out := d.mor.out ++ [(addr_TRP_CLR, BitVec.ofNat 32 mask)] } } else d

/-- A write to TRP_CLR (R273). -/
def trpClrEffect (v : Word) : WEff := fun d =>
  let d := d.clearGroups (fldGet 0 16 v)
  (true, d.carryClear (d.getF TRP_CLR_STAT_CLEARED))

/-- The quiet time of a group has passed (R275). -/
def rearm (g : Nat) (d : Dev) : Dev :=
  if g < 16 ∧ d.drives ∧ d.bit (TRP_GRP_REARM_EN g) ∧ d.isLatched g ∧ d.groupSource g = none ∧
      !d.bit (TRP_GRP_REARM_SAFSEEN g) ∧ d.getF (TRP_GRP_FIRST_SRC g) ≠ 0x7F then
    if d.getF (TRP_GRP_REARM_TRIES g) ≤ d.getF (TRP_GRP_REARM_COUNT g) then
      if d.bit (TRP_GRP_REARM_EXH g) then d
      else ((d.setF (TRP_GRP_REARM_EXH g) 1).evt TRP_EVT_REARM_EXH).logEvt 18 4 []
    else
      let d := (d.unlatch g).setF (TRP_GRP_REARM_COUNT g) (d.getF (TRP_GRP_REARM_COUNT g) + 1)
      (((d.bump TRP_REARMS).evt TRP_EVT_REARM).logEvt 18 3 [g]).carryClear (2 ^ g)
  else d

/-- A group has stayed clear for 60 s (R275). -/
def rearmReset (g : Nat) (d : Dev) : Dev :=
  if g < 16 ∧ !d.isLatched g then (d.setF (TRP_GRP_REARM_COUNT g) 0).setF (TRP_GRP_REARM_EXH g) 0 else d

/-- Reading Gg_TLO latches Gg_THI for the path (R278, R460). -/
def tloRead (pn g : Nat) (d : Dev) : Word × Dev :=
  (d.rd (addr_TRP_GRP_TLO g), d.setLatch pn (addr_TRP_GRP_THI g) (d.rd (addr_TRP_GRP_THI g)).toNat)

/-! ### The commands -/

/-- TRIP_SOURCE_ACTIVE (R266 to R268). -/
def execTripSourceActive (ss : List Nat) (s : State) : Host.Outcome State Fault Refusal := .next (s.onDev (sourcesActive ss))

/-- TRIP_PIN (R270). -/
def execTripPin (p : Nat) (active : Bool) (s : State) : Host.Outcome State Fault Refusal := .next (s.onDev (tripPin p active))

/-- PIN_KNOWN (R271). -/
def execPinKnown (p : Nat) (active : Bool) (s : State) : Host.Outcome State Fault Refusal :=
  .next (s.onDev (pinBecomesKnown p active))

/-- BANK_MONITOR_LOW (R271). -/
def execBankMonitorLow (s : State) : Host.Outcome State Fault Refusal := .next (s.onDev bankLow)

/-- TRP_CLR (R273, R277). -/
def execTrpClr (p : Path) (v : Word) (s : State) : Host.Outcome State Fault Refusal :=
  .next (s.writeRow p addr_TRP_CLR v id (trpClrEffect v))

/-- REARM (R275). -/
def execRearm (g : Nat) (s : State) : Host.Outcome State Fault Refusal := .next (s.onDev (rearm g))

/-- REARM_COUNT_RESET (R275). -/
def execRearmCountReset (g : Nat) (s : State) : Host.Outcome State Fault Refusal := .next (s.onDev (rearmReset g))

/-- TLO_READ (R278, R460). -/
def execTloRead (p : Path) (g : Nat) (s : State) : Host.Outcome State Fault Refusal :=
  .next (s.inst (decide (g < 16)) fun s => s.readRow p (addr_TRP_GRP_TLO g) (tloRead (pathNo p) g))

end Sys2Proof.Machine
end

