-- ==== Sys2Proof/Machine/Towline.lean ====
section
/-! DEFINITION. Towline (spec/04_towline.md): boarding and departure, crossing times, transactions. The telemetry frames and the
rows whose frames pass through fault injection stand in Frames.lean. -/

namespace Sys2Proof.Machine

def Dev.cell (d : Dev) (c : Nat) : CellSt := spGet {} d.twl.cells c
def Dev.setCell (d : Dev) (c : Nat) (x : CellSt) : Dev := { d with twl := { d.twl with cells := spSet {} d.twl.cells c x } }

/-- States of R138, as CST.STATE codes them. -/
def cellEmpty : Nat := 0
def cellBoarding : Nat := 1
def cellBoarded : Nat := 2
def cellRefused : Nat := 3

def Dev.cellState (d : Dev) (c : Nat) : Nat := d.getF (TWL_CST_STATE c)

/-- A cell takes a boarding state; TWL_STAT.BOARDED counts the boarded cells. -/
def Dev.setCellState (d : Dev) (c st : Nat) : Dev :=
  let was := d.cellState c
  let n := d.getF TWL_STAT_BOARDED
  let d := d.setF (TWL_CST_STATE c) st
  if was ≠ cellBoarded ∧ st = cellBoarded then d.setF TWL_STAT_BOARDED (n + 1)
  else if was = cellBoarded ∧ st ≠ cellBoarded then d.setF TWL_STAT_BOARDED (n - 1)
  else d

/-- Towline version of a lane (R71, R143). -/
def Dev.laneVer (d : Dev) (n : Nat) : Nat := if d.getF (LNK_LCTRL_RATE n) = 1 then 1 else 2

/-! ### Frames sent (R111, R113, R135, R144) -/

/-- A BOARD frame to a position of a cell lane. -/
def Dev.sendBoard (d : Dev) (n pos kind w0 seq : Nat) (k : OutKind) : Dev :=
  d.sendLane k n 3 (withCheck [frameStart w0 seq 1 kind pos 5 (d.laneVer n), 0])

/-- An ACCEPT or REFUSE to a configured cell. -/
def Dev.sendBoardCell (d : Dev) (c kind arg : Nat) : Dev :=
  match d.placeOf c with
  | none => d
  | some (n, pos) =>
    let x := d.cell c
    (d.setCell c { x with seqBoard := (x.seqBoard + 1) % 256 }).sendBoard n pos kind
      (d.getF (TWL_CELL_BEP_BEPOCH c) * 2 ^ 8 + arg) x.seqBoard .board

/-- A TXN request to a cell. -/
def Dev.sendTxn (d : Dev) (c op addr tag data : Nat) : Dev :=
  match d.placeOf c with
  | none => d
  | some (n, pos) =>
    let x := d.cell c
    (d.setCell c { x with seqTxn := (x.seqTxn + 1) % 256 }).sendLane .txn n 2
      (withCheck [frameStart (addr * 2 ^ 8 + tag) x.seqTxn 1 op pos 3 (d.laneVer n), data % 2 ^ 32])

/-! ### Transactions (R146, R150) -/

/-- Completion status codes of TWL_TXC_ID. -/
def txLaneReset : Nat := 4
def txStaleEpoch : Nat := 5
def txTimeout : Nat := 6

/-- The head of the completion queue and the slot count, as the registers show them. -/
def Dev.showTxn (d : Dev) : Dev :=
  let d := d.setF TWL_STAT_INFLIGHT (d.twl.fly.length + d.twl.doneQ.length)
  match d.twl.doneQ with
  | [] => ((d.wrN addr_TWL_TXC_ID 0).wrN addr_TWL_TXC_ADDR 0).wrN addr_TWL_TXC_DATA 0
  | h :: _ =>
    let d := (((d.setF TWL_TXC_ID_VALID 1).setF TWL_TXC_ID_STATUS h.status).setF TWL_TXC_ID_COUNT d.twl.doneQ.length).setF
      TWL_TXC_ID_SLOT h.txn.slot
    let d := ((d.setF TWL_TXC_ADDR_OP h.txn.op).setF TWL_TXC_ADDR_CELL h.txn.cell).setF TWL_TXC_ADDR_ADDR h.txn.addr
    d.wrN addr_TWL_TXC_DATA h.data

/-- A transaction in flight completes. -/
def Dev.txnComplete (d : Dev) (t : Txn) (status data : Nat) : Dev :=
  let done : TxnDone := ⟨t, status, if status = 0 ∧ t.op = 0 then data else 0⟩
  { d with twl := { d.twl with fly := d.twl.fly.erase t, doneQ := d.twl.doneQ ++ [done] } }.showTxn

/-- Every outstanding transaction of a cell completes. -/
def Dev.txnEndAll (d : Dev) (c status : Nat) : Dev :=
  (d.twl.fly.filter fun t => t.cell = c).foldl (fun d t => d.txnComplete t status 0) d

/-- TAGs not in use at a cell. -/
def Dev.freeTags (d : Dev) (c : Nat) : List Nat :=
  (List.range 8).filter fun g => !(d.twl.fly.any fun t => decide (t.cell = c ∧ t.tag = g)) && decide ((d.cell c).wtag ≠ some g)

/-- Slots not in use. -/
def Dev.freeSlots (d : Dev) : List Nat :=
  (List.range 512).filter fun k => !(d.twl.fly.any fun t => decide (t.slot = k)) && !(d.twl.doneQ.any fun t => decide (t.txn.slot = k))

/-- One element of a list, not said which. -/
def Dev.freeOf (d : Dev) (l : List Nat) : Nat × Dev :=
  let r := d.free l.length
  (l.getD r.1 0, r.2)

/-- The reason for which a submission is refused, 0 for none (R146, R150). -/
def Dev.txnReason (d : Dev) (cls op c addr : Nat) : Nat :=
  if 1 ≤ op ∧ op ≤ 2 ∧ addr < 0x100 ∧ addr ≠ 0x8C ∧ cls < 3 then 4
  else if 2 < op then 5
  else if d.cellState c ≠ cellBoarded ∧ d.cellState c ≠ cellBoarding then 1
  else if op ≠ 2 ∧ (d.freeTags c).isEmpty then 2
  else if op ≠ 2 ∧ 512 ≤ d.twl.fly.length + d.twl.doneQ.length then 3
  else 0

/-- An accepted submission: it takes a slot and a TAG unless it is posted. -/
def Dev.submit (d : Dev) (op c addr data : Nat) : Nat × Dev :=
  if op = 2 then
    let r := d.free 8
    (0, r.2.sendTxn c op addr r.1 data)
  else
    let s := d.freeOf d.freeSlots
    let g := s.2.freeOf (s.2.freeTags c)
    let d := { g.2 with twl := { g.2.twl with fly := g.2.twl.fly ++ [Txn.mk s.1 c g.1 op addr data] } }
    (s.1, (d.sendTxn c op addr g.1 data).showTxn)

/-- A write to TWL_TXQ_GO (R150). -/
def txqGoEffect (cls : Nat) (v : Word) : WEff := fun d =>
  if fldGet 0 1 v = 0 then (true, d)
  else
    let op := d.getF TWL_TXQ_CMD_OP
    let c := d.getF TWL_TXQ_CMD_CELL
    let addr := d.getF TWL_TXQ_CMD_ADDR
    let data := if op = 0 then 0 else d.getF TWL_TXQ_DATA_DATA
    let reason := d.txnReason cls op c addr
    let d := d.wrN addr_TWL_TXQ_STAT 0
    if reason = 0 then
      let r := d.submit op c addr data
      (true, (r.2.setF TWL_TXQ_STAT_ACCEPTED 1).setF TWL_TXQ_STAT_SLOT r.1)
    else
      let d := if reason = 3 then (d.evt TWL_EVT_TXN_FULL).bump TWL_TXN_FULL else d
      (true, d.setF TWL_TXQ_STAT_REASON reason)

/-- A write to TWL_TXC_POP (R150). -/
def txcPopEffect (v : Word) : WEff := fun d =>
  if fldGet 0 1 v = 1 then (true, { d with twl := { d.twl with doneQ := d.twl.doneQ.drop 1 } }.showTxn) else (true, d)

/-- A submission through the TXQ registers: CMD, DATA for a write, then GO. -/
def State.txnRow (s : State) (p : Path) (op c addr : Nat) (data : Option Word) : State :=
  let cmd : Word := BitVec.ofNat 32 (op % 8 * 2 ^ 29 + c % 256 * 2 ^ 16 + addr % 2 ^ 16)
  let s := s.writeRow p addr_TWL_TXQ_CMD cmd id (plainWrite addr_TWL_TXQ_CMD cmd)
  let s := match data with
    | some v => s.writeRow p addr_TWL_TXQ_DATA v id (plainWrite addr_TWL_TXQ_DATA v)
    | none => s
  s.writeRow p addr_TWL_TXQ_GO 1 id (txqGoEffect (s.classOf p) 1)

/-! ### Boarding (R135 to R142, R151, R357) -/

/-- Configuration written at boarding, in EP address order; a version 1 endpoint has no EP_GDRV registers (R138, R143, R151). -/
def Dev.boardCfg (d : Dev) (c : Nat) : List (Nat × Nat) :=
  let v2 := (d.placeOf c).any fun p => d.laneVer p.1 = 2
  [(0x20, d.getF (TWL_EPDT_DEADT c)), (0x24, d.getF TBS_PHI_PHI), (0x30, d.getF TWL_EPCFG_COAST),
   (0x34, d.getF TWL_EPCFG_LEASE_PERIODS)] ++
  (List.range 7).map (fun l => (0x40 + 4 * l, d.getF (TRP_LEGG_GROUPS c l))) ++
  (if v2 then [(0x60, d.getF (TWL_EPGDA_GDRV0 c)), (0x64, d.getF (TWL_EPGDA_GDRV1 c)), (0x68, d.getF (TWL_EPGDA_GDRV2 c)),
    (0x6C, d.getF (TWL_EPGDA_GDRV3 c)), (0x70, d.getF (TWL_EPGDB_GDRV4 c)), (0x74, d.getF (TWL_EPGDB_GDRV5 c))] else []) ++
  [(0x80, d.getF (TWL_EPGDB_TRIES c) * 2 ^ 8 + d.getF (TWL_EPGDB_WAIT c))]

/-- Boarding variables of a cell as at the start of a boarding. -/
def CellSt.fresh (x : CellSt) : CellSt :=
  { x with probes := 0, await := [], lost := 0, samples := [], xvalid := false, xover := false, cfg := false, writes := 0,
           wtag := none, arrived := false, accepted := false, noTlm := 0 }

/-- Boarding is refused (R138, R140). -/
def Dev.refuseCell (d : Dev) (c reason : Nat) : Dev :=
  let d := (d.setCell c (d.cell c).fresh).setCellState c cellRefused
  let d := (d.setF (TWL_CST_REASON c) reason).sendBoardCell c 3 reason
  ((d.evt TWL_EVT_REFUSED).bump TWL_REFUSALS).logEvt 10 2 []

/-- Every configuration transaction has completed OK: ACCEPT (R138). -/
def Dev.acceptCell (d : Dev) (c : Nat) : Dev :=
  let x := d.cell c
  let d := (d.setCell c { x with cfg := false, wtag := none, noTlm := 0 }).setCellState c cellBoarded
  let d := d.setF (TWL_CST_VER c) (((d.placeOf c).map fun p => d.laneVer p.1).getD 0)
  let d := d.sendBoardCell c 2 c
  ((d.evt TWL_EVT_BOARDED).bump TWL_BOARDS).logEvt 10 0 []

/-- The next configuration transaction, one at a time: a write, or in a device without the Painter a read (R138, R357). It waits
while eight transactions of the cell are in flight. -/
def Dev.cfgNext (d : Dev) (c : Nat) : Dev :=
  let x := d.cell c
  if d.cellState c = cellBoarding ∧ x.cfg ∧ x.wtag = none then
    match (d.boardCfg c)[x.writes]? with
    | none => d.acceptCell c
    | some (a, v) =>
      if (d.freeTags c).isEmpty then d
      else
        let g := d.freeOf (d.freeTags c)
        let d := g.2.setCell c { x with wtag := some g.1 }
        if d.drives then d.sendTxn c 1 a g.1 v else d.sendTxn c 0 a g.1 0
  else d

/-- A configuration transaction of a boarding cell completes; `ok` says OK, and for a read the value the device holds. -/
def Dev.cfgDone (d : Dev) (c : Nat) (ok : Bool) : Dev :=
  let x := d.cell c
  let d := d.setCell c { x with wtag := none }
  if ok then (d.setCell c { x with wtag := none, writes := x.writes + 1 }).cfgNext c else d.refuseCell c 7

/-- Legs and channel codes a cell must declare, and no reserved code (R125, R140, R222). -/
def Dev.capOk (d : Dev) (c cap mch : Nat) : Bool :=
  let codes := (List.range 8).map fun i => mch / 2 ^ (4 * i) % 16
  let arm := d.getF (BLS_CELL_CFG_ARM c)
  let need := if d.bit (BLS_CELL_CFG_IN_ARM c) then
      0x40 + (if d.getF (CBK_CG_CFG_MODE (2 * arm)) ≠ 0 then 0x03 else 0) +
        (if d.getF (CBK_CG_CFG_MODE (2 * arm + 1)) ≠ 0 then 0x3C else 0)
    else 0
  decide (Nat.land cap need = need) && codes.all (fun k => decide (k < 9 ∨ k = 15)) &&
    (!d.bit (BLS_CELL_CFG_IN_ARM c) || codes.contains 1)

/-- The identity is permitted for the configured cell, where the configuration limits it (R140). -/
def Dev.idOk (d : Dev) (c epId serial : Nat) : Bool :=
  let l := d.twl.permit.filter fun e => e.1 = c
  l.isEmpty || l.any fun e => decide (e.2.1 = epId ∧ e.2.2 = serial)

/-- Identity, version and capability checks of a HELLO: the refusal reason, 0 for none (R138, R140, R142). -/
def Dev.helloReason (d : Dev) (c : Nat) (f : HelloFrame) : Nat :=
  if !d.idOk c f.epId f.serial then 2
  else if f.ver ≠ ((d.placeOf c).map fun p => d.laneVer p.1).getD 0 then 3
  else if !d.capOk c f.cap f.mch then 4
  else if d.getF LNK_CTRL_WAKE_BLK < f.cap / 2 ^ 8 % 256 + 8 then 5
  else 0

/-- A cell departs (R138): outstanding transactions complete as said, or go on where no status is given. -/
def Dev.depart (d : Dev) (c : Nat) (status : Option Nat) : Dev :=
  let d := match status with | some st => d.txnEndAll c st | none => d
  let d := (d.setCell c { (d.cell c).fresh with gone := true }).setCellState c cellEmpty
  let d := ((d.evt TWL_EVT_DEPARTED).bump TWL_DEPARTS).logEvt 10 1 []
  d.gdUpdate

/-- Boarding is abandoned (R138). -/
def Dev.abandon (d : Dev) (c : Nat) (status : Option Nat) : Dev :=
  let d := match status with | some st => d.txnEndAll c st | none => d
  (d.setCell c (d.cell c).fresh).setCellState c cellEmpty

/-- Boarding starts as from EMPTY (R138). -/
def Dev.startBoarding (d : Dev) (c : Nat) (f : HelloFrame) : Dev :=
  let d := d.setCell c { (d.cell c).fresh with cap := f.cap, mch := f.mch }
  let d := ((d.wrN (addr_TWL_CELL_EPID c) f.epId).wrN (addr_TWL_CELL_SER_LO c) f.serial).wrN (addr_TWL_CELL_SER_HI c)
    (f.serial / 2 ^ 32)
  let d := (d.setF (TWL_CELL_BEP_BEPOCH c) f.bepoch).setCellState c cellBoarding
  let r := d.helloReason c f
  if r = 0 then d else d.refuseCell c r

/-- A HELLO on cell lane `n` (R138, R140). -/
def Dev.hello (d : Dev) (n : Nat) (f : HelloFrame) : Dev :=
  match d.cellAt n f.pos with
  | none =>
    let l := d.lane n
    let d := (d.setLane n { l with iseq := (l.iseq + 1) % 256 }).sendBoard n f.pos 3 (f.bepoch * 2 ^ 8 + 6) l.iseq .board
    ((d.evt TWL_EVT_REFUSED).bump TWL_REFUSALS).logEvt 10 2 []
  | some c =>
    let st := d.cellState c
    let same := d.getF (TWL_CELL_BEP_BEPOCH c) = f.bepoch
    if st = cellEmpty then d.startBoarding c f
    else if st = cellBoarding then
      if same then d else (d.txnEndAll c txStaleEpoch).startBoarding c f
    else if st = cellBoarded then
      (d.depart c (if same then none else some txStaleEpoch)).startBoarding c f
    else d

/-- A LEAVE on cell lane `n` (R138). -/
def Dev.leave (d : Dev) (n pos : Nat) : Dev :=
  match d.cellAt n pos with
  | none => d
  | some c =>
    if d.cellState c = cellBoarded then d.depart c none
    else if d.cellState c = cellBoarding then d.abandon c none
    else d

/-- A lane reset of cell lane `n` (R138, R146). -/
def Dev.laneReset (d : Dev) (n : Nat) : Dev :=
  let d := if d.paired then { d with mor := { d.mor with laneLost := n :: d.mor.laneLost } } else d
  (d.laneCells n).foldl (fun d c =>
    if d.cellState c = cellBoarded then d.depart c (some txLaneReset)
    else if d.cellState c = cellBoarding then d.abandon c (some txLaneReset)
    else d) d

/-- A TXN response on cell lane `n` (R138, R144, R146, R357). -/
def Dev.txnResponse (d : Dev) (n pos tag a status : Nat) (v : Word) : Dev :=
  match d.cellAt n pos with
  | none => (d.evt TWL_EVT_LATE_RSP).bump TWL_LATE_RSP
  | some c =>
    let x := d.cell c
    let cfg := (d.boardCfg c)[x.writes]?
    if x.wtag = some tag ∧ (∃ e ∈ cfg, e.1 = a) then
      if 4 ≤ status then d
      else d.cfgDone c (decide (status = 0) && (d.drives || decide (cfg.map (·.2) = some v.toNat)))
    else match d.twl.fly.find? fun t => decide (t.cell = c ∧ t.tag = tag ∧ t.addr = a) with
      | some t => if 4 ≤ status then d else (d.txnComplete t status v.toNat).cfgNext c
      | none => (d.evt TWL_EVT_LATE_RSP).bump TWL_LATE_RSP

/-- The timer of a transaction expires (R146). -/
def txnTimeout (c tag : Nat) (d : Dev) : Dev :=
  if (d.cell c).wtag = some tag then (d.bump TWL_TXN_TMO).cfgDone c false
  else match d.twl.fly.find? fun t => decide (t.cell = c ∧ t.tag = tag) with
    | some t => ((d.bump TWL_TXN_TMO).txnComplete t txTimeout 0).cfgNext c
    | none => d

/-! ### Crossing time (R107, R127, R128, R138) -/

def crossBlock (xval id pos : Nat) (valid : Bool) : Nat :=
  0x4B + pos % 4 * 2 ^ 9 + b2n valid * 2 ^ 11 + id % 256 * 2 ^ 16 + xval % 2 ^ 24 * 2 ^ 24

/-- A probe leaves for a cell that boards or is boarded (R127). -/
def crossProbe (c : Nat) (d : Dev) : Dev :=
  let x := d.cell c
  let st := d.cellState c
  match d.placeOf c with
  | none => d
  | some (n, pos) =>
    if (st = cellBoarding ∧ x.probes < 16 ∧ !x.cfg) ∨ st = cellBoarded then
      let d := d.setCell c { x with probes := x.probes + 1, probeId := (x.probeId + 1) % 256,
                                    await := x.probeId :: x.await.filter (· ≠ x.probeId) }
      if d.txUp (d.phys n) then
        d.emit .crossProbe (d.phys n) [crossBlock (d.getF (TWL_XT_XVAL c)) x.probeId pos x.xvalid]
      else d
    else d

/-- The mean of the samples exceeds the lane's allowance (R28, R128); a sample is RTT - TURN, twice the crossing time. -/
def Dev.xOver (d : Dev) (c : Nat) : Bool :=
  let x := d.cell c
  match d.placeOf c with
  | none => false
  | some (n, _) => decide ((d.getF (TWL_XALLOW_ALLOW n) * 2 * x.samples.length : Int) < x.samples.foldl (· + ·) 0)

/-- Every probe of a boarding has its echo or has gone without (R138). -/
def Dev.probesDone (d : Dev) (c : Nat) : Dev :=
  let x := d.cell c
  if d.cellState c = cellBoarding ∧ !x.cfg ∧ 16 ≤ x.probes ∧ x.samples.length + x.lost = 16 then
    if d.xOver c then d.refuseCell c 1
    else (d.setCell c { x with cfg := true, writes := 0, wtag := none }).cfgNext c
  else d

/-- An echo that answers a probe still waiting (R127, R128). The rounding of the mean to 1/32 ns is open: a free value. -/
def crossEcho (n pos id turn rtt : Nat) (d : Dev) : Dev :=
  match (d.logical n).bind fun m => d.cellAt m pos with
  | none => d
  | some c =>
    let x := d.cell c
    if d.rxUp n ∧ x.await.contains id then
      let samples := (((rtt : Int) - turn) :: x.samples).take 16
      let r := d.free (2 * samples.length)
      let mean := (samples.foldl (· + ·) 0 + (r.1 : Int)) / (2 * samples.length : Nat)
      let d := r.2.setCell c { x with await := x.await.erase id, samples := samples, xvalid := true }
      let d := d.setF (TWL_XT_XVAL c) (min (2 ^ 24 - 1) mean.toNat)
      if d.cellState c = cellBoarded then
        let exceeds := d.xOver c
        let d := if exceeds && !x.xover then ((d.evt TWL_EVT_XALLOW).bump TWL_XALLOW_CNT).logEvt 10 3 [] else d
        d.setCell c { d.cell c with xover := exceeds }
      else d.probesDone c
    else d

/-- A probe counts as without echo (R127, R138). -/
def echoTimeout (c id : Nat) (d : Dev) : Dev :=
  let x := d.cell c
  if x.await.contains id then
    let d := d.setCell c { x with await := x.await.erase id, lost := x.lost + 1 }
    if d.cellState c = cellBoarding then (if 4 ≤ x.lost + 1 then d.refuseCell c 8 else d.probesDone c)
    else d.setCell c { d.cell c with lost := 0 }
  else d

def boardingTimeout (c : Nat) (d : Dev) : Dev := if d.cellState c = cellBoarding then d.refuseCell c 8 else d

def refusedExpiry (c : Nat) (d : Dev) : Dev := if d.cellState c = cellRefused then d.setCellState c cellEmpty else d

def departTimeout (c : Nat) (d : Dev) : Dev :=
  if d.cellState c = cellBoarded ∧ d.per.running ∧ d.getF TWL_CTRL_DEPART ≤ (d.cell c).noTlm then d.depart c none else d

/-- An INVITE, while a configured position of the lane is not boarded (R136). -/
def invite (n : Nat) (d : Dev) : Dev :=
  if n < 64 ∧ (d.laneCells n).any (fun c => decide (d.cellState c ≠ cellBoarded)) then
    let l := d.lane n
    (d.setLane n { l with iseq := (l.iseq + 1) % 256 }).sendBoard n 0 0 (n * 2 ^ 16) l.iseq .invite
  else d

/-! ### The commands -/

/-- INVITE (R136). -/
def execInvite (n : Nat) (s : State) : Host.Outcome State Fault Refusal := .next (s.onDev (invite n))

/-- CROSS_PROBE (R127). -/
def execCrossProbe (c : Nat) (s : State) : Host.Outcome State Fault Refusal := .next (s.onDev (crossProbe c))

/-- CROSS_ECHO (R127, R128, R138). -/
def execCrossEcho (n pos id turn rtt : Nat) (s : State) : Host.Outcome State Fault Refusal :=
  .next (s.onDev (crossEcho n pos id turn rtt))

/-- ECHO_TIMEOUT (R127, R138). -/
def execEchoTimeout (c id : Nat) (s : State) : Host.Outcome State Fault Refusal := .next (s.onDev (echoTimeout c id))

/-- BOARDING_TIMEOUT (R138). -/
def execBoardingTimeout (c : Nat) (s : State) : Host.Outcome State Fault Refusal := .next (s.onDev (boardingTimeout c))

/-- REFUSED_EXPIRY (R138). -/
def execRefusedExpiry (c : Nat) (s : State) : Host.Outcome State Fault Refusal := .next (s.onDev (refusedExpiry c))

/-- DEPART_TIMEOUT (R138, R272). -/
def execDepartTimeout (c : Nat) (s : State) : Host.Outcome State Fault Refusal := .next (s.onDev (departTimeout c))

/-- TXN_READ (R144, R146, R150). -/
def execTxnRead (p : Path) (c a : Nat) (s : State) : Host.Outcome State Fault Refusal := .next (s.txnRow p 0 c a none)

/-- TXN_WRITE (R144, R146, R150). -/
def execTxnWrite (p : Path) (c a : Nat) (v : Word) (s : State) : Host.Outcome State Fault Refusal :=
  .next (s.txnRow p 1 c a (some v))

/-- TXN_WRITE_POSTED (R144, R146, R150). -/
def execTxnWritePosted (p : Path) (c a : Nat) (v : Word) (s : State) : Host.Outcome State Fault Refusal :=
  .next (s.txnRow p 2 c a (some v))

/-- TXN_TIMEOUT (R146). -/
def execTxnTimeout (c tag : Nat) (s : State) : Host.Outcome State Fault Refusal := .next (s.onDev (txnTimeout c tag))

/-- TXC_POP (R150). -/
def execTxcPop (p : Path) (s : State) : Host.Outcome State Fault Refusal :=
  .next (s.writeRow p addr_TWL_TXC_POP 1 id (txcPopEffect 1))

end Sys2Proof.Machine
end

