-- ==== Sys2Proof/Machine/Waveform.lean ====
section
/-! DEFINITION. The arithmetic of the carrier bank (R156 to R160, R164, R169, R170, R172): reference carrier, leg waveforms,
minimum pulse and gap, refresh. Times are naturals in 31.25 ps since the PTP epoch; a position is an integer in 2^-24 of a carrier
period, counted from the reference valley at or before the interval start. Codes: 0, 2 and 3 (R114). -/

namespace Sys2Proof.Machine

/-- The reference carrier over one interval: the valley at or before its start, the period from it, the period before it, and the
first valley at or after the interval start, from which the period of the interval runs (R157). -/
structure Carrier where
  v0 : Nat
  tc : Nat
  tcPrev : Nat
  v1 : Nat
  tcNew : Nat
  deriving DecidableEq, Repr

/-- The carrier of a group for an interval that starts at `t0` with carrier period `tcNew`. -/
def CbkGrp.carrier (g : CbkGrp) (t0 tcNew : Nat) : Carrier :=
  if g.v0 = t0 ∨ g.tc = 0 then ⟨t0, tcNew, if g.tc = 0 then tcNew else g.tcPrev, t0 + tcNew, tcNew⟩
  else ⟨g.v0, g.tc, g.tcPrev, g.v0 + g.tc, tcNew⟩

/-- The group's reference valley at or before `t1`, after an interval with carrier `c` (R157). -/
def CbkGrp.advance (g : CbkGrp) (c : Carrier) (t1 : Nat) : CbkGrp :=
  if t1 < c.v1 then { g with v0 := c.v0, tc := c.tc, tcPrev := c.tcPrev }
  else
    let n := (t1 - c.v1) / c.tcNew
    { g with v0 := c.v1 + n * c.tcNew, tc := c.tcNew, tcPrev := if n = 0 then c.tc else c.tcNew }

/-- Device time of a position (R156). -/
def Carrier.time (c : Carrier) (p : Int) : Int :=
  let r := p / 16777216
  let f := p % 16777216
  let at_ (v : Int) (tc : Nat) : Int := v + (f * tc + 8388608) / 16777216
  if r < 0 then at_ (c.v0 + r * c.tcPrev) c.tcPrev
  else if r = 0 then at_ c.v0 c.tc
  else at_ (c.v1 + (r - 1) * c.tcNew) c.tcNew

/-- The index of the carrier period that holds a time. -/
def Carrier.index (c : Carrier) (t : Nat) : Int :=
  if t < c.v0 then -1 else if t < c.v1 then 0 else 1 + ((t - c.v1) / c.tcNew : Nat)

/-- A waveform: carrier-compare with a duty, square with a phase, or a constant code. -/
inductive Wave
  | cc (d : Nat)
  | sq (th : Nat)
  | const (code : Nat)
  deriving DecidableEq, Repr

/-- Positions at which the high pulse of leg period `m` starts and ends, for shift `s` (R159, R160). -/
def Wave.pulse (w : Wave) (s m : Int) : Int × Int :=
  match w with
  | .cc d => (m * 16777216 + s + 8388608 - d, m * 16777216 + s + 8388608 + d)
  | .sq th => (m * 16777216 + s + th % 16777216, m * 16777216 + s + th % 16777216 + 8388608)
  | .const _ => (0, 0)

/-- The code at a time with one value in force. -/
def Wave.codeAt (w : Wave) (c : Carrier) (s : Int) (t : Nat) : Nat :=
  match w with
  | .const code => code
  | w =>
    let i := c.index t
    if [i - 2, i - 1, i, i + 1].any (fun m => let p := w.pulse s m; decide (c.time p.1 ≤ t ∧ (t : Int) < c.time p.2)) then 3 else 2

/-- Leg periods that can have an edge in an interval up to `tEnd`. -/
def Carrier.periods (c : Carrier) (t0 tEnd : Nat) : List Int :=
  let lo := c.index t0 - 2
  (List.range (c.index tEnd - lo + 2).toNat).map fun (i : Nat) => lo + (i : Int)

/-- Latch points (R164, R165): 0 valleys, 1 valleys and peaks, 2 the interval start. The first at or after `t0`, before `tEnd`. -/
def firstLatch (c : Carrier) (s : Int) (latch t0 tEnd : Nat) : Option Nat :=
  if latch = 2 then some t0
  else
    let ps := c.periods t0 tEnd
    let ts := ps.flatMap fun m => c.time (m * 16777216 + s) :: (if latch = 1 then [c.time (m * 16777216 + s + 8388608)] else [])
    (ts.find? fun t => decide ((t0 : Int) ≤ t ∧ t < tEnd)).map (·.toNat)

/-- Insert into a rising list of times, without repeats. -/
def insTime (t : Nat) (l : List Nat) : List Nat :=
  match l with
  | [] => [t]
  | a :: r => if t < a then t :: a :: r else if t = a then a :: r else a :: insTime t r

/-- Natural changes of a leg in `[t0, tEnd]`, the first entry being the code at `t0`: `old` is in force until the first latch
point, `new` from it on (R159, R160, R164). -/
def naturalEdges (c : Carrier) (s : Int) (latch t0 tEnd : Nat) (old new : Wave) : List (Nat × Nat) :=
  let sw := firstLatch c s latch t0 (tEnd + 1)
  let code (t : Nat) : Nat := match sw with
    | some x => if x ≤ t then new.codeAt c s t else old.codeAt c s t
    | none => old.codeAt c s t
  let times := match new with
    | .const _ => []
    | _ => (c.periods t0 tEnd).flatMap fun m =>
        [(old.pulse s m).1, (old.pulse s m).2, (new.pulse s m).1, (new.pulse s m).2].map c.time
  let ts := (times.filter fun t => decide ((t0 : Int) < t ∧ t ≤ tEnd)).foldl (fun l t => insTime t.toNat l) []
  let ts := match sw with | some x => if t0 < x then insTime x ts else ts | none => ts
  (ts.foldl (fun (acc : Nat × List (Nat × Nat)) t =>
    let k := code t
    if k = acc.1 then acc else (k, acc.2 ++ [(t, k)])) (code t0, [(t0, code t0)])).2

/-- Result of the minima: changes kept, and counts of drops, merges and deferrals (R169). -/
structure Minima where
  kept : List (Nat × Nat)
  minp : Nat
  ming : Nat
  defer : Nat

/-- R169 over changes in rising order. The state in force began at `st` with code `c`, after code `p`; changes of states that begin
at or after `t1` belong to the next interval. -/
def minima (minp ming t0 t1 : Nat) (st c p : Nat) : List (Nat × Nat) → Minima
  | [] => ⟨[], 0, 0, 0⟩
  | [(t, n)] =>
    let need := if st < t0 then (if c = 3 then minp else if c = 2 ∧ p ≠ 0 ∧ n = 3 then ming else 0) else 0
    let t' := max t (st + need)
    ⟨[(t', n)], 0, 0, if t < t' ∧ t' < t1 then 1 else 0⟩
  | (t, n) :: (t2, n2) :: rest =>
    let need := if st < t0 then (if c = 3 then minp else if c = 2 ∧ p ≠ 0 ∧ n = 3 then ming else 0) else 0
    let t' := max t (st + need)
    if t' < t1 ∧ n = 3 ∧ t2 - t' < minp then
      let r := minima minp ming t0 t1 st c p rest
      { r with minp := r.minp + 1 }
    else if t' < t1 ∧ n = 2 ∧ c = 3 ∧ n2 = 3 ∧ t2 - t' < ming then
      let r := minima minp ming t0 t1 st c p rest
      { r with ming := r.ming + 1 }
    else
      let r := minima minp ming t0 t1 t' n c ((t2, n2) :: rest)
      { r with kept := (t', n) :: r.kept, defer := r.defer + (if t < t' ∧ t' < t1 then 1 else 0) }

/-- R170 over the changes left by R169: each change with the `th` it leaves in the history. `code` is in force from `start`; the
first argument bounds the number of steps. -/
def refresh (hold bmin minp t1 : Nat) : Nat → Nat → Nat → List (Nat × Nat) → List (Nat × Nat × Nat) × Nat
  | 0, _, _, l => (l.map fun e => (e.1, e.2, e.1), 0)
  | fuel + 1, code, start, l =>
    let tr := start + hold
    match l with
    | [] =>
      if code = 3 ∧ tr < t1 then
        let r := refresh hold bmin minp t1 fuel 3 (tr + bmin) []
        ((tr, 2, tr + bmin) :: (tr + bmin, 3, tr + bmin) :: r.1, r.2 + 1)
      else ([], 0)
    | (tf, n) :: rest =>
      if code = 3 ∧ tr < t1 ∧ tr < tf then
        if tf < tr + bmin + minp then
          let r := refresh hold bmin minp t1 fuel n tr rest
          ((tr, n, tf) :: r.1, r.2 + 1)
        else
          let r := refresh hold bmin minp t1 fuel 3 (tr + bmin) ((tf, n) :: rest)
          ((tr, 2, tr + bmin) :: (tr + bmin, 3, tr + bmin) :: r.1, r.2 + 1)
      else
        let r := refresh hold bmin minp t1 fuel n tf rest
        ((tf, n, tf) :: r.1, r.2)

/-- Limits of a group in 31.25 ps (R169, R170): MINP, MING, HOLD, BSR_MIN; refresh on. -/
structure Limits where
  minp : Nat
  ming : Nat
  hold : Nat
  bmin : Nat
  bsr : Bool

/-- The last code of a list of changes at or before a time, and the code given where there is none. -/
def codeUpTo (c : Nat) (l : List (Nat × Nat)) (t : Nat) : Nat := l.foldl (fun k e => if e.1 ≤ t then e.2 else k) c

/-- The history after the changes before `t1`. -/
def LegHist.after (h : LegHist) (l : List (Nat × Nat × Nat)) (t1 : Nat) : LegHist :=
  l.foldl (fun h e => if e.1 < t1 ∧ e.2.1 ≠ h.code then { h with prev := h.code, code := e.2.1, t := e.1, th := e.2.2 } else h) h

/-- One leg of one schedule that is not forced (R172): code at `t0`, changes after it and before `t1`, history, counts. -/
def buildLeg (c : Carrier) (s : Int) (latch t0 t1 : Nat) (old new : Wave) (lim : Limits) (h : LegHist) :
    Nat × List (Nat × Nat) × LegHist × List Nat :=
  let nat := naturalEdges c s latch t0 (t1 + max lim.minp lim.ming) old new
  -- a refresh, or a pulse ended at its refresh, holds the leg low until `th`
  let nat := if lim.bsr ∧ h.code = 2 ∧ t0 < h.th then
      (t0, 2) :: (if codeUpTo 2 nat h.th = 3 then [(h.th, 3)] else []) ++ nat.filter (fun e => decide (h.th < e.1))
    else nat
  let nat := (nat.foldl (fun (acc : Nat × List (Nat × Nat)) e => if e.2 = acc.1 then acc else (e.2, acc.2 ++ [e])) (h.code, [])).2
  let m := minima lim.minp lim.ming t0 t1 h.t h.code h.prev nat
  let r := if lim.bsr then refresh lim.hold lim.bmin lim.minp t1 (m.kept.length + (t1 - t0) / (lim.hold + lim.bmin + 1) + 4) h.code h.th m.kept
    else (m.kept.map fun e => (e.1, e.2, e.1), 0)
  let init := codeUpTo h.code (r.1.map fun e => (e.1, e.2.1)) t0
  let ents := (r.1.filter fun e => decide (t0 < e.1 ∧ e.1 < t1)).map fun e => (e.1, e.2.1)
  let lat := match firstLatch c s latch t0 t1, new with
    | some _, .cc d => d
    | some _, .sq th => th
    | _, _ => h.lat
  (init, ents, { h.after r.1 t1 with lat := lat }, [m.minp, m.ming, m.defer, r.2])

/-- A forced leg (R163): its code for the whole interval. The latched value still follows the latch points. -/
def forcedLeg (c : Carrier) (s : Int) (latch t0 t1 : Nat) (new : Wave) (code : Nat) (h : LegHist) : LegHist :=
  let lat := match firstLatch c s latch t0 t1, new with
    | some _, .cc d => d
    | some _, .sq th => th
    | _, _ => h.lat
  if h.code = code then { h with lat := lat } else { code := code, t := t0, prev := h.code, th := 0, lat := lat }

/-- The base shift of rank `i` among `n` cells (R158). -/
def baseShift (i n : Nat) : Nat := if n = 0 then 0 else (i * 16777216 + n / 2) / n

end Sys2Proof.Machine
end

