-- ==== Sys2Proof/Machine/Carrier.lean ====
section
/-! DEFINITION. The carrier bank (spec/05_carrier_bank.md): conversion of the Helm outputs, manual sets, fallback and final
schedules, the values applied, local bridge outputs. The arithmetic of one leg stands in Waveform.lean. -/

namespace Sys2Proof.Machine

/-! ### Refusals, group state (R165 to R167, R180, R181) -/

/-- A write refused under R10 or under the chapter (R181). -/
def Dev.cbkRef (d : Dev) : Dev := (d.evt CBK_EVT_WRITE_REFUSED).bump CBK_WRITE_REFUSED

def Dev.cgMode (d : Dev) (g : Nat) : Nat := d.getF (CBK_CG_CFG_MODE g)
def modeCC : Nat := 1
def modeSQ : Nat := 2
def modeNL : Nat := 3
def modeBAND : Nat := 4

def Dev.grp (d : Dev) (g : Nat) : CbkGrp := spGet {} d.cbk.grps g
def Dev.setGrp (d : Dev) (g : Nat) (x : CbkGrp) : Dev := { d with cbk := { d.cbk with grps := spSet {} d.cbk.grps g x } }

/-- What a value of a group means (R153, R165): 1 duty, 2 phase, 3 level reference, 0 nothing. -/
def Dev.valKind (d : Dev) (g i : Nat) : Nat :=
  let m := d.cgMode g
  if 16 ≤ g then (if 5 ≤ i then 0 else if m = modeCC then 1 else if m = modeSQ then 2 else 0)
  else if g % 2 = 0 then (if m = modeCC ∧ i < 2 then 1 else if m = modeNL ∧ i = 0 then 3 else 0)
  else if m = modeSQ then (if i = 2 then 2 else if i = 3 ∨ i = 4 then 1 else 0)
  else 0

/-- A manual value lies in the range of R154. -/
def Dev.manualOk (d : Dev) (g i v : Nat) : Bool :=
  match d.valKind g i with
  | 1 => decide (v ≤ 8388608)
  | 2 => decide (-4194304 ≤ toSigned 24 v ∧ toSigned 24 v < 4194304)
  | _ => true

/-- PEND of a group, with its bit of CBK_STAT.PENDING. -/
def Dev.setPend (d : Dev) (g : Nat) (b : Bool) : Dev :=
  let d := d.setB (CBK_CG_STAT_PEND g) b
  d.setF CBK_STAT_PENDING ((fldPut g 1 (b2n b) (BitVec.ofNat 32 (d.getF CBK_STAT_PENDING))).toNat)

/-- A write of a shadow register: `i` 0 is CG_SH_PER, 1 to 6 are CG_SH_U0 to U5 (R165, R167, R181). -/
def shadowEffect (g i : Nat) (v : Word) : WEff := fun d =>
  let ok := if i = 0 then decide (32000 ≤ fldGet 0 26 v ∧ fldGet 0 26 v ≤ 64000000) else d.manualOk g (i - 1) (fldGet 0 24 v)
  if !ok then (false, d.cbkRef)
  else
    let d := if i = 0 then d.setF (CBK_CG_SH_PER_TC g) (fldGet 0 26 v) else d.setF (CBK_CG_SH_U g (i - 1)) (fldGet 0 24 v)
    (true, if d.bit (CBK_CG_STAT_PEND g) then d else (d.setPend g true).setGrp g { d.grp g with pendN := 0 })

/-- A write of CG_CTRL (R165, R166, R180). -/
def cgCtrlEffect (g : Nat) (v : Word) : WEff := fun d =>
  let commit := fldGet 2 1 v = 1
  let man := fldGet 1 1 v = 1
  let x := d.grp g
  if man ∧ (d.cgMode g = modeBAND ∨ (x.set = none ∧ !x.commit ∧ !commit)) then (false, d.cbkRef)
  else
    let d := (d.setB (CBK_CG_CTRL_MAN g) man).setF (CBK_CG_CTRL_DIS g) (fldGet 0 1 v)
    (true, if commit then d.setGrp g { x with commit := true } else d)

/-- A write of LB_OVR: only while the output's group is disabled or OFF (R180). -/
def lbOvrEffect (j : Nat) (v : Word) : WEff := fun d =>
  let g := 16 + d.getF (CBK_LB_CFG_GROUP j)
  if d.bit (CBK_CG_STAT_DIS g) || decide (d.cgMode g = 0) then plainWrite (addr_CBK_LB_OVR j) v d
  else (false, ((d.evt CBK_EVT_OVR_REFUSED).bump CBK_OVR_REFUSED).cbkRef)

/-- At S(k): commits first, then changes of MAN and DIS, then sets left pending (R165 to R167). -/
def Dev.cgSample (d : Dev) (g : Nat) : Dev :=
  let x := d.grp g
  let d := if x.commit then
      let was := d.bit (CBK_CG_STAT_PEND g)
      let d := (d.setPend g false).setF (CBK_CG_STAT_PSTALE g) 0
      let d := d.setGrp g { x with commit := false, pendN := 0, set := some (d.getF (CBK_CG_SH_PER_TC g),
        (List.range 6).map fun i => d.getF (CBK_CG_SH_U g i)) }
      if was then d.evt CBK_EVT_COMMIT_DONE else d
    else d
  let d := (d.setF (CBK_CG_STAT_MAN g) (d.getF (CBK_CG_CTRL_MAN g))).setF (CBK_CG_STAT_DIS g) (d.getF (CBK_CG_CTRL_DIS g))
  if d.bit (CBK_CG_STAT_PEND g) then
    let x := d.grp g
    let d := d.setGrp g { x with pendN := min 2 (x.pendN + 1) }
    if x.pendN = 1 then
      ((d.setF (CBK_CG_STAT_PSTALE g) 1).evt CBK_EVT_PENDING_STALE).bump CBK_PENDING_STALE
    else d
  else d

/-! ### Conversion (R154, R155) -/

/-- Limit an integer, counting each limiting. -/
def Dev.cbkLimit (d : Dev) (lo hi i : Int) : Int × Dev :=
  if i < lo then (lo, (d.bump CBK_CLAMP).evt CBK_EVT_CLAMP)
  else if hi < i then (hi, (d.bump CBK_CLAMP).evt CBK_EVT_CLAMP)
  else (i, d)

def Dev.cbkNanSeen (d : Dev) : Dev := (d.bump CBK_NAN).evt CBK_EVT_NAN

/-- A value rounded to `lo … hi`; a NaN takes the previous value. -/
def Dev.cbkConv (d : Dev) (lo hi prev : Int) (v : FV) (k : Int) : Int × Dev :=
  match v with
  | .nan => (prev, d.cbkNanSeen)
  | .inf s => ((if s then lo else hi), (d.bump CBK_CLAMP).evt CBK_EVT_CLAMP)
  | .fin s m e => d.cbkLimit lo hi ((fvToIntRne (.fin s m e) k).getD 0)

/-- A duty, phase or level reference of kind `kd` (R154) as CELL_U and the manual registers hold it; a level stays binary32. -/
def Dev.convVal (d : Dev) (kd prev : Nat) (w : Word) : Nat × Dev :=
  let v := fdec f32 w.toNat
  if kd = 1 then
    let r := d.cbkConv 0 8388608 prev v 23
    (r.1.toNat, r.2)
  else if kd = 2 then
    let r := d.cbkConv (-4194304) 4194303 (toSigned 24 prev) v 23
    (ofSigned 24 r.1, r.2)
  else if kd = 3 then
    if fvIsNan v then (prev, d.cbkNanSeen)
    else if fvLt (fvOfInt 1) v then (0x3F800000, (d.bump CBK_CLAMP).evt CBK_EVT_CLAMP)
    else if fvLt v (fvOfInt (-1)) then (0xBF800000, (d.bump CBK_CLAMP).evt CBK_EVT_CLAMP)
    else (w.toNat, d)
  else (prev, d)

/-- Output words of R184. -/
def outU (c i : Nat) : Nat := 0x70000 + 8 * c + i
def outG (g i : Nat) : Nat := 0x70800 + 8 * g + i

/-- A manual value as the schedules use it: a level reference m in signed Q1.23 becomes its binary32 (R165). -/
def manVal (kd v : Nat) : Nat := if kd = 3 then fofScaled f32 (toSigned 24 v) (-23) else v

/-- The group takes its values from the committed set (R165). -/
def Dev.manual (d : Dev) (g : Nat) : Option (Nat × List Nat) := if d.bit (CBK_CG_STAT_MAN g) then (d.grp g).set else none

/-- Values g0 to g4 and period of a group, as applied in the last interval. -/
def Dev.grpPrev (d : Dev) (g : Nat) : List Nat :=
  if (d.grp g).vals = [] then [0, 0, 0, 0, 0, d.getF (CBK_CG_PER_TC g)] else (d.grp g).vals

/-- Group values of the fallback schedules (R20, R157, R166). -/
def Dev.grpFallback (d : Dev) (g : Nat) : List Nat :=
  match d.manual g with
  | some (per, us) => (List.range 5).map (fun i => manVal (d.valKind g i) (us.getD i 0)) ++ [per]
  | none => if d.getF (CBK_CG_CFG_PSRC g) = 1 then d.grpPrev g else (d.grpPrev g).take 5 ++ [d.getF (CBK_CG_PER_TC g)]

/-- Group values of the final schedules (R153, R154, R157). -/
def Dev.grpFinal (d : Dev) (g : Nat) : List Nat × Dev :=
  match d.manual g with
  | some (per, us) => ((List.range 5).map (fun i => manVal (d.valKind g i) (us.getD i 0)) ++ [per], d)
  | none =>
    let prev := d.grpPrev g
    let r := (List.range 5).foldl (fun (acc : List Nat × Dev) i =>
      let kd := if 16 ≤ g ∨ i = 0 ∧ d.valKind g i = 3 then d.valKind g i else 0
      let x := acc.2.convVal kd (prev.getD i 0) (d.mw (outG g i))
      (acc.1 ++ [x.1], x.2)) ([], d)
    if d.getF (CBK_CG_CFG_PSRC g) = 1 then
      let x := r.2.cbkConv (d.getF (CBK_CG_PMIN_TC g)) (d.getF (CBK_CG_PMAX_TC g)) (prev.getD 5 0)
        (fvMul (fdec f32 (d.mw (outG g 5)).toNat) (fvOfInt 32000000000)) 0
      (r.1 ++ [x.1.toNat], x.2)
    else (r.1 ++ [d.getF (CBK_CG_PER_TC g)], r.2)

/-- Values u0 to u4 of a cell for the fallback schedule. -/
def Dev.cellFallback (d : Dev) (iv : CbkIv) (c : Nat) : List Nat :=
  let a := d.getF (BLS_CELL_CFG_ARM c)
  let reg (i : Nat) := (d.rd (addr_CBK_CELL_U0 c + 4 * i)).toNat
  (List.range 5).map fun i =>
    let g := if i < 2 then 2 * a else 2 * a + 1
    if d.bit (BLS_CELL_CFG_IN_ARM c) ∧ (d.manual g).isSome ∧ (d.valKind g i = 1 ∨ d.valKind g i = 2) then (iv.gv.getD g []).getD i 0
    else reg i

/-- A band of R143: WIDTH that is NaN, zero or negative counts as a NaN (R154). -/
def Dev.bandFinal (d : Dev) (c : Nat) : Nat × Nat × Dev :=
  let one (f : Nat) (prev : Word) (bad : Bool) (d : Dev) : Nat × Dev := if bad then (prev.toNat, d.cbkNanSeen) else (f, d)
  let uc := (d.mw (outU c 0)).toNat
  let uw := (d.mw (outU c 1)).toNat
  let r := one uc (d.rd (addr_CBK_CELL_U0 c)) (fvIsNan (fdec f32 uc)) d
  let s := one uw (d.rd (addr_CBK_CELL_U1 c)) (!fvLt fvZero (fdec f32 uw)) r.2
  (r.1, s.1, s.2)

/-- Values of a cell for the final schedule: conversion, then the Ballast trims (R154, R155, R230). -/
def Dev.cellFinal (d : Dev) (iv : CbkIv) (c : Nat) : List Nat × Dev :=
  let a := d.getF (BLS_CELL_CFG_ARM c)
  let prev := d.cellFallback iv c
  if !d.bit (BLS_CELL_CFG_IN_ARM c) then (prev, d)
  else if d.cgMode (2 * a) = modeBAND then
    let r := d.bandFinal c
    ([r.1, r.2.1] ++ prev.drop 2, r.2.2)
  else
    let r := (List.range 5).foldl (fun (acc : List Nat × Dev) i =>
      let g := if i < 2 then 2 * a else 2 * a + 1
      let kd := if (d.manual g).isSome then 0 else if d.valKind g i = 3 then 0 else d.valKind g i
      let x := acc.2.convVal kd (prev.getD i 0) (d.mw (outU c i))
      (acc.1 ++ [x.1], x.2)) ([], d)
    let ta := toSigned 24 (d.getF (BLS_CELL_TA c))
    let td := toSigned 24 (d.getF (BLS_CELL_TD c))
    let u (i : Nat) := r.1.getD i 0
    let ac : Nat × Nat × Dev :=
      if d.cgMode (2 * a) = modeCC ∧ d.manual (2 * a) = none then
        let x := r.2.cbkLimit 0 8388608 ((u 0 : Int) + ta)
        let y := x.2.cbkLimit 0 8388608 ((u 1 : Int) - ta)
        (x.1.toNat, y.1.toNat, y.2)
      else (u 0, u 1, r.2)
    let ph : Nat × Dev :=
      if d.cgMode (2 * a + 1) = modeSQ ∧ d.manual (2 * a + 1) = none then
        let x := ac.2.2.cbkLimit (-4194304) 4194303 (toSigned 24 (u 2) + td)
        (ofSigned 24 x.1, x.2)
      else (u 2, ac.2.2)
    ([ac.1, ac.2.1, ph.1, u 3, u 4], ph.2)

/-! ### Building one schedule (R158 to R164, R172, R173) -/

/-- Active cells of an arm, in increasing number (R225). -/
def Dev.activeOf (d : Dev) (a : Nat) : List Nat := (d.armCells a).filter fun c => decide (d.getF (BLS_CELL_ST_STATE c) = 5)

/-- The level of R161. -/
def nlLevel (m n : Nat) : Int :=
  match fdec f32 m with
  | .fin s x e =>
    let q := (fvFloor (fvAdd (fvMul (.fin false x e) (fvOfInt n)) (.fin false 1 (-1))) 0).getD 0
    let q := min q n
    if s then -q else q
  | _ => 0

/-- The interval of period k, with the group values, levels and orders of its fallback schedules. -/
def Dev.fallbackIv (d : Dev) : CbkIv :=
  let t0 := ticksOf125 (d.per.sk + d.getF TBS_PHI_PHI)
  let act := (List.range 8).map d.activeOf
  let gv := (List.range 24).map d.grpFallback
  let nl := (List.range 8).map fun a =>
    let al := act.getD a []
    let ap := spGet (0, []) d.cbk.applied a
    let n : Int := al.length
    let lvl := if (d.manual (2 * a)).isSome then nlLevel ((gv.getD (2 * a) []).getD 0 0) al.length else clampInt (-n) n ap.1
    (lvl, ap.2.filter al.contains)
  { k := d.per.k, t0 := t0, t1 := t0 + ticksOf125 d.per.len, per := d.per.len, perNext := (d.per.nextA.getD d.per.len), act := act,
    gv := gv, nl := nl }

/-- The order of Ballast's last run of an arm: cell by cell, by CELL_ST.PLACE (R229, R230). -/
def Dev.blsOrder (d : Dev) (al : List Nat) : List Nat :=
  (List.range al.length).filterMap fun p => al.find? fun c => decide (d.getF (BLS_CELL_ST_PLACE c) = p)

/-- The interval with the values of its final schedules. -/
def Dev.finalIv (d : Dev) (iv : CbkIv) : CbkIv × Dev :=
  let r := (List.range 24).foldl (fun (acc : List (List Nat) × Dev) g =>
    let x := acc.2.grpFinal g
    (acc.1 ++ [x.1], x.2)) ([], d)
  let nl := (List.range 8).map fun a =>
    let al := iv.act.getD a []
    (if d.cgMode (2 * a) = modeNL then nlLevel ((r.1.getD (2 * a) []).getD 0 0) al.length else 0, d.blsOrder al)
  ({ iv with gv := r.1, nl := nl }, r.2)

/-- Limits of a group (R169, R170); `bsr`: refresh applies to the leg. -/
def Dev.limits (d : Dev) (g : Nat) (bsr : Bool) : Limits :=
  ⟨ticksOf125 (d.getF (CBK_CG_MIN_MINP g)), ticksOf125 (d.getF (CBK_CG_MIN_MING g)), 32000 * d.getF (CBK_CG_BSR_HOLD g),
   ticksOf125 (d.getF (CBK_CG_BSR_MIN g)), bsr && d.bit (CBK_CG_CFG_BSR_EN g)⟩

/-- Latch points of a group (R164, R165). -/
def Dev.latchOf (d : Dev) (g : Nat) : Nat := if (d.manual g).isSome then 0 else d.getF (CBK_CG_CFG_LATCH g)

def CbkIv.carrier (iv : CbkIv) (d : Dev) (g : Nat) : Carrier := (d.grp g).carrier iv.t0 ((iv.gv.getD g []).getD 5 0)

/-- The forced code of a leg (R163), `none` where the waveform of its mode applies. -/
def Dev.forcedCode (d : Dev) (iv : CbkIv) (c l : Nat) : Option Nat :=
  let a := d.getF (BLS_CELL_CFG_ARM c)
  let inArm := d.bit (BLS_CELL_CFG_IN_ARM c)
  let g := if l < 2 then 2 * a else 2 * a + 1
  if groupsMeet d.latched16 (d.getF (TRP_LEGG_GROUPS c l)) then some 0
  else if !inArm || !decide (d.getF BOT_ARM_EN / 2 ^ a % 2 = 1) then some (if l = 6 then d.getF CBK_CTRL_IDLE_L6 else 0)
  else if !(iv.act.getD a []).contains c then some (if l = 6 then 3 else 0)
  else if l = 6 then none
  else if d.cgMode g = 0 ∨ d.bit (CBK_CG_STAT_DIS g) then some 0
  else none

/-- The wave a leg follows, from its latched value (`old`) and from the interval's (R159 to R161). -/
def Dev.legWave (d : Dev) (iv : CbkIv) (c l : Nat) (vals : List Nat) (h : LegHist) : Wave × Wave :=
  let a := d.getF (BLS_CELL_CFG_ARM c)
  let g := if l < 2 then 2 * a else 2 * a + 1
  let m := d.cgMode g
  if l < 2 ∧ m = modeCC then (.cc h.lat, .cc (vals.getD l 0))
  else if l < 2 ∧ m = modeNL then
    let nl := iv.nl.getD a (0, [])
    let ins := (nl.2.take nl.1.natAbs).contains c
    let code := if ins ∧ (l = 0) = (0 < nl.1) then 3 else 2
    (.const code, .const code)
  else if 2 ≤ l ∧ l < 6 ∧ m = modeSQ then
    let phi := vals.getD 2 0
    let th := if l = 2 then 0 else if l = 3 then vals.getD 3 0 else if l = 4 then 2 * phi else 2 * phi + vals.getD 4 0
    (.sq h.lat, .sq (th % 16777216))
  else (.const 0, .const 0)

/-- Shift of a leg (R158). -/
def Dev.legShift (d : Dev) (iv : CbkIv) (c l : Nat) : Nat :=
  let a := d.getF (BLS_CELL_CFG_ARM c)
  let g := if l < 2 then 2 * a else 2 * a + 1
  let al := iv.act.getD a []
  let psi := if d.bit (CBK_CG_CFG_SPREAD g) ∧ al.contains c then baseShift (al.idxOf c) al.length else 0
  if l = 1 ∧ d.bit (CBK_CG_CFG_L1SHIFT g) then psi + 8388608 else psi

/-- Insert an entry by offset, then leg. -/
def insEntry (e : Nat × Nat × Nat) (l : List (Nat × Nat × Nat)) : List (Nat × Nat × Nat) :=
  match l with
  | [] => [e]
  | x :: r => if e.1 < x.1 ∨ (e.1 = x.1 ∧ e.2.1 < x.2.1) then e :: x :: r else x :: insEntry e r

def addCounts (a b : List Nat) : List Nat := (List.range 5).map fun i => a.getD i 0 + b.getD i 0

/-- One leg of a schedule: code at t0, entries, history, counts. -/
def Dev.buildOneLeg (d : Dev) (iv : CbkIv) (c l : Nat) (vals : List Nat) (h : LegHist) :
    Nat × List (Nat × Nat) × LegHist × List Nat :=
  let a := d.getF (BLS_CELL_CFG_ARM c)
  let g := if l < 2 then 2 * a else 2 * a + 1
  let w := d.legWave iv c l vals h
  let car := iv.carrier d g
  let s : Int := d.legShift iv c l
  match d.forcedCode iv c l with
  | some code =>
    if l = 6 then (code, [], h.held iv.t0 code, []) else (code, [], forcedLeg car s (d.latchOf g) iv.t0 iv.t1 w.2 code h, [])
  | none =>
    if l = 6 then (0, [], h.held iv.t0 0, [])
    else if d.cgMode g = modeBAND then
      let code := if l = 0 then 3 else 0
      (code, [], h.held iv.t0 code, [])
    else buildLeg car s (d.latchOf g) iv.t0 iv.t1 w.1 w.2 (d.limits g (decide (l < 2))) h

/-- The schedule of a cell (R172, R173). -/
def Dev.buildCell (d : Dev) (iv : CbkIv) (kind c : Nat) (vals : List Nat) : Built :=
  let hist := (spGet {} d.cbk.cells c).hist
  let legs := (List.range 7).map fun l => d.buildOneLeg iv c l vals (hist.getD l {})
  let ents := ((List.range 7).flatMap fun l => ((legs.getD l (0, [], {}, [])).2.1.map fun e => (e.1 - iv.t0, l, e.2))).foldl
    (fun acc e => insEntry e acc) []
  let a := d.getF (BLS_CELL_CFG_ARM c)
  { kind := kind, init := legs.map (·.1), ents := ents.take 58, hist := legs.map (·.2.2.1),
    cnt := addCounts (legs.foldl (fun acc x => addCounts acc x.2.2.2) [])
      [0, 0, 0, 0, if 58 < ents.length then 1 else 0],
    forced := ((List.range 7).map fun l => if (d.forcedCode iv c l).isSome then 2 ^ l else 0).foldl (· + ·) 0,
    vals := vals, psi := d.legShift iv c (if d.cgMode (2 * a) ≠ 0 then 0 else 2) }

/-- The schedule of a local output (R175, R179): code at t0, changes, history, counts. -/
def Dev.buildLocal (d : Dev) (iv : CbkIv) (j : Nat) : Nat × List (Nat × Nat) × LegHist × List Nat :=
  let g := 16 + d.getF (CBK_LB_CFG_GROUP j)
  let m := d.cgMode g
  let h := spGet {} d.cbk.lbHist j
  let v := (iv.gv.getD g []).getD (d.getF (CBK_LB_CFG_SLOT j)) 0
  let w : Wave × Wave := if m = modeCC then (.cc h.lat, .cc v) else (.sq h.lat, .sq (2 * v % 16777216))
  let car := iv.carrier d g
  if m = 0 ∨ d.bit (CBK_CG_STAT_DIS g) ∨ groupsMeet d.latched16 (d.getF (TRP_LBG_GROUPS j)) then
    (0, [], forcedLeg car 0 (d.latchOf g) iv.t0 iv.t1 w.2 0 h, [])
  else buildLeg car 0 (d.latchOf g) iv.t0 iv.t1 w.1 w.2 (d.limits g (decide (m = modeCC))) h

/-! ### SCHED frames (R111, R116, R117, R143, R162, R172) -/

def initField (codes : List Nat) : Nat := ((List.range 7).map fun l => codes.getD l 0 % 4 * 4 ^ l).foldl (· + ·) 0

def entryWord (e : Nat × Nat × Nat) : Nat := e.1 * 64 + e.2.1 * 8 + e.2.2 * 2

/-- Entries in data blocks, the unused half of the last one all ones. -/
def entryBlocks (l : List Nat) : List Nat :=
  match l with
  | [] => []
  | [a] => [a + 0xFFFFFFFF * 2 ^ 32]
  | a :: b :: r => (a + b * 2 ^ 32) :: entryBlocks r

/-- The blocks of a SCHED frame before its check. -/
def Dev.schedBlocks (d : Dev) (iv : CbkIv) (b : Built) (c pos ver : Nat) : List Nat :=
  let final := b.kind - 1
  let x := d.cell c
  let head (n : Nat) (ne : Nat) := frameStart (initField b.init * 2 ^ 8 + ne) x.seqSched (n - 1) final pos 1 ver
  let b1 := d.getF TWL_HORN_HSEQ * 2 ^ 20 + iv.per % 2 ^ 20
  let b2 := iv.perNext % 2 ^ 20 * 2 ^ 41 + edgeOfTicks iv.t0
  if ver = 1 then
    let band := if b.init.getD 0 0 = 3 then (b.vals.getD 0 0, b.vals.getD 1 0) else (spGet {} d.cbk.cells c).band
    [head 4 0, b1, b2, band.1 % 2 ^ 32 + band.2 % 2 ^ 32 * 2 ^ 32]
  else
    let es := entryBlocks (b.ents.map entryWord)
    head (3 + es.length) b.ents.length :: b1 :: b2 :: es

/-- A schedule goes out, and is the cell's schedule of the interval unless a later one replaces it. -/
def Dev.sendSched (d : Dev) (iv : CbkIv) (c : Nat) (b : Built) : Dev :=
  let k := spGet {} d.cbk.cells c
  let d1 := if d.sends then
      match d.placeOf c with
      | some (n, pos) => d.sendLane .sched n 0 (withCheck (d.schedBlocks iv b c pos (d.laneVer n)))
      | none => d
    else d
  let band := if b.init.getD 0 0 = 3 then (b.vals.getD 0 0, b.vals.getD 1 0) else k.band
  { d1 with cbk := { d1.cbk with cells := spSet {} d1.cbk.cells c { k with cand := some b, band := band } } }

/-- Configured cells, lane by lane in increasing position (R174). -/
def Dev.cells (d : Dev) : List Nat := d.twl.map.map fun e => e.2 - 1

/-! ### The period (R20, R21, R23, R174, R508) -/

/-- Candidate of a local output for the interval being built. -/
def Dev.setLbCand (d : Dev) (j : Nat) (x : Nat × List (Nat × Nat) × LegHist × List Nat) : Dev :=
  { d with cbk := { d.cbk with lbCand := spSet (0, [], {}, []) d.cbk.lbCand j x } }

/-- A group at the start of the control period (R156): the manual set and requests stay. -/
def CbkGrp.restart (g : CbkGrp) : CbkGrp :=
  { v0 := 0, tc := 0, tcPrev := 0, set := g.set, commit := g.commit, pendN := g.pendN, vals := [] }

/-- At S(k) (R20): requests take effect, the lanes that were late are shown, the fallback schedules are built and sent. -/
def Dev.cbkSample (d : Dev) : Dev :=
  let d := if d.per.k = 0 then
      let grps := (List.range 24).foldl (fun m g => spSet {} m g (d.grp g).restart) []
      { d with cbk := { grps := grps } }
    else d
  let late := d.cbk.late
  let mask (lo : Nat) := (late.map fun n => if lo ≤ n ∧ n < lo + 32 then 2 ^ (n - lo) else 0).foldl (· + ·) 0
  let d := ((d.wrN addr_CBK_LATE0 (mask 0)).wrN addr_CBK_LATE1 (mask 32)).setF CBK_STAT_LATE_LANES late.length
  let d := forN 24 (fun g d => d.cgSample g) { d with cbk := { d.cbk with late := [] } }
  let d := forN 16 (fun g d => d.setF (CBK_CG_STAT_NACT g) (d.activeOf (g / 2)).length) d
  let iv := d.fallbackIv
  let d := { d with cbk := { d.cbk with iv := some iv } }
  let d := d.cells.foldl (fun d c =>
    let d := d.setCell c { d.cell c with seqSched := ((d.cell c).seqSched + 1) % 256 }
    d.sendSched iv c (d.buildCell iv 1 c (d.cellFallback iv c))) d
  forN 16 (fun j d =>
    if d.bit (CBK_LB_CFG_EN j) then
      d.setLbCand j (d.buildLocal iv j)
    else d) d

/-- The Helm run has completed before its deadline (R21, R179, R508): final schedules on every lane but those in `late`. -/
def Dev.cbkFinal (d : Dev) (late : List Nat) : Dev :=
  match d.cbk.iv with
  | none => d
  | some iv =>
    let r := d.finalIv iv
    let iv := r.1
    let d := { r.2 with cbk := { r.2.cbk with iv := some iv } }
    let lanes := (List.range 64).filter fun n => !(d.laneCells n).isEmpty
    let d := lanes.foldl (fun d n =>
      let r := (d.laneCells n).foldl (fun (acc : List Built × Dev) c =>
        let v := acc.2.cellFinal iv c
        (acc.1 ++ [v.2.buildCell iv 2 c v.1], v.2)) ([], d)
      let d := r.2
      if late.contains n then
        let d := (d.evt CBK_EVT_LATE_LANE).bump CBK_LATE_LANE
        { d with cbk := { d.cbk with late := d.cbk.late ++ [n] } }
      else ((d.laneCells n).zip r.1).foldl (fun d cb => d.sendSched iv cb.1 cb.2) d) d
    forN 16 (fun j d =>
      if d.bit (CBK_LB_CFG_EN j) then
        d.setLbCand j (d.buildLocal iv j)
      else d) d

/-- Counts of the schedule applied (R169, R170, R173). -/
def Dev.cbkCounts (d : Dev) (cnt : List Nat) : Dev :=
  let one (f e : Fld) (n : Nat) (d : Dev) : Dev := if n = 0 then d else (d.bumpBy f n).evt e
  let n (i : Nat) := cnt.getD i 0
  one CBK_EDGE_OVF CBK_EVT_EDGE_OVF (n 4) (one CBK_BSR_INS CBK_EVT_BSR (n 3) (one CBK_MIN_DEFER CBK_EVT_MIN_DEFER (n 2)
    (one CBK_MING_MERGE CBK_EVT_MING_MERGE (n 1) (one CBK_MINP_DROP CBK_EVT_MINP_DROP (n 0) d))))

/-- Applied words of a cell (R185). -/
def Dev.cellApplied (d : Dev) (c : Nat) (b : Built) : Dev :=
  let a := d.getF (BLS_CELL_CFG_ARM c)
  let band : Bool := d.bit (BLS_CELL_CFG_IN_ARM c) && decide (d.cgMode (2 * a) = modeBAND)
  let word (i : Nat) : Nat :=
    let v := b.vals.getD i 0
    if band ∧ i < 2 then v else if i = 2 then fofScaled f32 (toSigned 24 v) (-23) else fofScaled f32 v (-23)
  let d := forN 5 (fun i d => d.setMwN (0x78000 + 8 * c + i) (word i)) d
  let flag (p : Bool) := if p then 0x3F800000 else 0
  let d := d.setMwN (0x78000 + 8 * c + 6) (flag (decide (b.forced % 4 = 3)))
  let d := d.setMwN (0x78000 + 8 * c + 7) (flag (decide (b.forced / 4 % 16 ≠ 0)))
  let d := forN 5 (fun i d => d.wrN (addr_CBK_CELL_U0 c + 4 * i) (b.vals.getD i 0)) d
  (((d.setF (CBK_CELL_SH_PSI c) b.psi).setF (CBK_CELL_ST_KIND c) b.kind).setF (CBK_CELL_ST_NEDGE c) b.ents.length).setF
    (CBK_CELL_ST_FORCED c) b.forced

/-- Applied words of a group (R185); the period is written in seconds, rounded to the nearest binary32. -/
def Dev.grpApplied (d : Dev) (g : Nat) (vals : List Nat) : Dev :=
  let word (i : Nat) : Nat :=
    let v := vals.getD i 0
    match d.valKind g i with
    | 1 => fofScaled f32 v (-23)
    | 2 => fofScaled f32 (toSigned 24 v) (-23)
    | 3 => v
    | _ => 0
  let d := forN 5 (fun i d => d.setMwN (0x78800 + 8 * g + i) (if 16 ≤ g ∨ d.valKind g i = 3 then word i else 0)) d
  let per := vals.getD 5 0
  (d.setMwN (0x78800 + 8 * g + 5) (fround f32 false per 32000000000 0)).setF (CBK_CG_APER_TC g) per

/-! ### Local bridge pins (R175 to R178) -/

/-- Where an edge at `t` (2^-32 ns) is placed: TBC cycles from now, and the tap nearest to the remainder; between two taps at
equal distance the tap is a free value (R178). -/
def Dev.placeEdge (d : Dev) (j t : Nat) : (Nat × Nat) × Dev :=
  let n := (t - d.time) / d.tbs.incr
  let r := (t - d.time) % d.tbs.incr
  let taps := if d.bit (CBK_LB_STAT_DLCAL_FAIL j) then 0 else d.getF (CBK_LB_STAT_TAPS j)
  let q := qDiv (r * taps) (if d.tbs.incr = 0 then 1 else d.tbs.incr) 0
  if q.2 = 2 then
    let f := d.free 2
    ((n, q.1 + f.1), f.2)
  else ((n, if q.2 = 3 then q.1 + 1 else q.1), d)

/-- The code of a local output changes (R175, R176). -/
def Dev.lbCode (d : Dev) (j code : Nat) : Dev :=
  let l := d.lbOut j
  if d.lbHeld j ∨ code = l.code then d
  else if d.bit (CBK_LB_CFG_FORM j) then
    let wa : Bool := decide (code = 3)
    let wb : Bool := decide (code = 2)
    let a := l.a && wa
    let b := l.b && wb
    let pend := if wa && !a then some false else if wb && !b then some true else none
    (d.setLb j { l with code := code, a := a, b := b, pend := pend }).lbShow j
  else (d.setLb j { l with code := code, a := decide (code = 3), b := decide (code ≠ 0), pend := none }).lbShow j

/-- The next change of code of an output, or the end of its dead time (R176). -/
def lbEdge (j : Nat) (on : Bool) (d : Dev) : Dev :=
  if 16 ≤ j then d
  else
    let l := d.lbOut j
    if on then
      match l.pend with
      | some p => (d.setLb j { l with a := l.a || !p, b := l.b || p, pend := none }).lbShow j
      | none => d
    else match l.sched with
      | (t, code) :: rest =>
        let r := (d.setLb j { l with sched := rest }).placeEdge j (t * 2 ^ 27)
        (r.2.emit .edge j [r.1.1, r.1.2, code]).lbCode j code
      | [] => d

/-- The replica of a delay line is measured; 0 taps: it cannot cover a full cycle (R178). -/
def dlCalibration (j taps : Nat) (d : Dev) : Dev :=
  if 16 ≤ j then d
  else if taps = 0 then ((d.setF (CBK_LB_STAT_DLCAL_FAIL j) 1).evt CBK_EVT_DLCAL).bump CBK_DLCAL_FAIL
  else (d.setF (CBK_LB_STAT_DLCAL_FAIL j) 0).setF (CBK_LB_STAT_TAPS j) taps

/-- S(k) + phi_out (R23, R174, R508): the schedules sent last are applied and become the history. -/
def Dev.cbkApply (d : Dev) : Dev :=
  match d.cbk.iv with
  | none => d
  | some iv =>
    let d := d.cells.foldl (fun d c =>
      let k := spGet {} d.cbk.cells c
      match k.cand with
      | none => d
      | some b =>
        let d := { d with cbk := { d.cbk with cells := spSet {} d.cbk.cells c { k with hist := b.hist, cand := none } } }
        (d.cellApplied c b).cbkCounts b.cnt) d
    let d := forN 24 (fun g d =>
      let vals := iv.gv.getD g []
      let x := d.grp g
      let y := x.advance (iv.carrier d g) iv.t1
      (d.setGrp g { y with vals := vals }).grpApplied g vals) d
    let d := forN 8 (fun a d =>
      let nl := iv.nl.getD a (0, [])
      let d := { d with cbk := { d.cbk with applied := spSet (0, []) d.cbk.applied a nl } }
      (d.setF (CBK_ARM_NACT a) (iv.act.getD a []).length).setF (CBK_ARM_LEVEL a) (ofSigned 9 nl.1)) d
    let d := forN 16 (fun j d =>
      if d.bit (CBK_LB_CFG_EN j) then
        let (init, ents, h, cnt) := spGet (0, [], {}, []) d.cbk.lbCand j
        let g := 16 + d.getF (CBK_LB_CFG_GROUP j)
        let d := { d with cbk := { d.cbk with lbHist := spSet {} d.cbk.lbHist j h } }
        let l := d.lbOut j
        let ovr := if d.cgMode g ≠ 0 ∧ !d.bit (CBK_CG_STAT_DIS g) then (d.rd (addr_CBK_LB_OVR j)).toNat % 8 else l.ovr
        let d := (d.setLb j { l with ovr := ovr, sched := if d.lbHeld j then [] else ents }).cbkCounts cnt
        (d.lbCode j init).lbShow j
      else d) d
    { d with cbk := { d.cbk with iv := none, lbCand := [] } }

/-! ### The commands -/

/-- SHADOW_WRITE (R165, R167). -/
def execShadowWrite (p : Path) (n i : Nat) (v : Word) (s : State) : Host.Outcome State Fault Refusal :=
  .next (s.inst (decide (n < 24 ∧ i < 7)) fun s =>
    s.writeRow p (if i = 0 then addr_CBK_CG_SH_PER n else addr_CBK_CG_SH_U n (i - 1)) v Dev.cbkRef (shadowEffect n i v))

/-- COMMIT (R166). -/
def execCommit (p : Path) (n : Nat) (v : Word) (s : State) : Host.Outcome State Fault Refusal :=
  .next (s.inst (decide (n < 24)) fun s => s.writeRow p (addr_CBK_CG_CTRL n) v Dev.cbkRef (cgCtrlEffect n v))

/-- MAN_WRITE (R165). -/
def execManWrite (p : Path) (n : Nat) (v : Word) (s : State) : Host.Outcome State Fault Refusal :=
  .next (s.inst (decide (n < 24)) fun s => s.writeRow p (addr_CBK_CG_CTRL n) v Dev.cbkRef (cgCtrlEffect n v))

/-- DIS_WRITE (R180). -/
def execDisWrite (p : Path) (n : Nat) (v : Word) (s : State) : Host.Outcome State Fault Refusal :=
  .next (s.inst (decide (n < 24)) fun s => s.writeRow p (addr_CBK_CG_CTRL n) v Dev.cbkRef (cgCtrlEffect n v))

/-- LB_OVR_WRITE (R180). -/
def execLbOvrWrite (p : Path) (j : Nat) (v : Word) (s : State) : Host.Outcome State Fault Refusal :=
  .next (s.inst (decide (j < 16)) fun s => s.writeRow p (addr_CBK_LB_OVR j) v Dev.cbkRef (lbOvrEffect j v))

/-- LB_EDGE (R176, R178). -/
def execLbEdge (j : Nat) (on : Bool) (s : State) : Host.Outcome State Fault Refusal := .next (s.onDev (lbEdge j on))

/-- DELAY_LINE_CALIBRATION (R178). -/
def execDelayLineCalibration (j taps : Nat) (s : State) : Host.Outcome State Fault Refusal := .next (s.onDev (dlCalibration j taps))

end Sys2Proof.Machine
end

