-- ==== Sys2Proof/Machine/Ballast.lean ====
section
/-! DEFINITION. Ballast (spec/07_ballast.md): arm membership, admission, insertion order and trims. -/

namespace Sys2Proof.Machine

/-- Membership states, as CELL_ST.STATE codes them (R222). -/
def blsOut : Nat := 1
def blsBypassed : Nat := 2
def blsSpare : Nat := 3
def blsCheck : Nat := 4
def blsActive : Nat := 5

def Dev.member (d : Dev) (c : Nat) : Nat := d.getF (BLS_CELL_ST_STATE c)

/-- READY (R227). -/
def Dev.blsReady (d : Dev) (c : Nat) : Bool :=
  let st := d.member c
  decide (blsBypassed ≤ st ∧ st ≤ blsCheck) &&
    decide (d.getF (BLS_ARM_ADM_HOLD (d.getF (BLS_CELL_CFG_ARM c))) ≤ d.getF (BLS_CELL_ST_CNT c))

/-- A cell takes a membership state; OUT and ACTIVE have an admission count of 0 (R227). -/
def Dev.setMember (d : Dev) (c st : Nat) : Dev :=
  let d := d.setF (BLS_CELL_ST_STATE c) st
  let d := if st = blsOut ∨ st = blsActive then d.setF (BLS_CELL_ST_CNT c) 0 else d
  d.setB (BLS_CELL_ST_READY c) (d.blsReady c)

/-- The record of a transition that has no event flag: the change of value of CELL_ST (R223, R430). -/
def Dev.blsNote (d : Dev) (c : Nat) : Dev := d.logReg 14 (0x1004 + 0x10 * c) []

def Dev.startAdm (d : Dev) (c : Nat) : Dev :=
  { d with bls := { d.bls with timer := spSet 0 d.bls.timer c d.per.sk, expired := d.bls.expired.filter (· ≠ c) } }

/-- The state a command asks for from a state (R223); OP 1 BYPASS, 2 ADMIT, 3 SPARE. -/
def blsTarget (op st : Nat) : Option Nat :=
  if op = 1 then (if st = blsActive ∨ st = blsCheck ∨ st = blsSpare then some blsBypassed else none)
  else if op = 2 then (if st = blsBypassed ∨ st = blsSpare then some blsCheck else none)
  else if op = 3 then (if st = blsActive ∨ st = blsBypassed ∨ st = blsCheck then some blsSpare else none)
  else none

/-- Step 1: departures and boardings (R223). -/
def Dev.blsStep1 (d : Dev) (c : Nat) : Dev :=
  let x := d.cell c
  let st := d.member c
  let d := d.setCell c { x with gone := false }
  if st ≠ blsOut then (if x.gone ∨ d.cellState c ≠ cellBoarded then d.setMember c blsOut else d)
  else if d.cellState c = cellBoarded then
    if d.getF (BLS_CELL_CFG_ROLE c) = 1 then d.setMember c blsSpare
    else if d.bit (BLS_CELL_CFG_READM c) then (d.setMember c blsCheck).startAdm c
    else d.setMember c blsBypassed
  else d

/-- Step 2: automatic bypass. -/
def Dev.blsStep2 (d : Dev) (a c : Nat) : Dev :=
  if d.member c ≠ blsActive then d
  else
    let lim := d.getF (BLS_ARM_CFG_BYP_STALE a)
    let why := if d.bit (BLS_ARM_CFG_GDBYP a) ∧ d.getF (TWL_CELL_TLMF_GD_LAT c) ≠ 0 then 2
      else if lim ≠ 0 ∧ lim ≤ (d.cell c).stale then 3 else 0
    if why = 0 then d
    else
      let d := (d.setMember c blsBypassed).setF (BLS_CELL_ST_LASTBYP c) why
      ((d.evt BLS_EVT_AUTO_BYPASS).bump BLS_AUTO_BYP).logEvt 14 0 []

/-- Step 3: commands; one whose transition is gone is lost. -/
def Dev.blsStep3 (d : Dev) (c : Nat) : Dev :=
  let op := spGet 0 d.bls.cmds c
  if op = 0 then d
  else
    let d := { d with bls := { d.bls with cmds := spSet 0 d.bls.cmds c 0 } }
    match blsTarget op (d.member c) with
    | none => d.bump BLS_CMD_LOST
    | some st =>
      let d := d.setMember c st
      if st = blsCheck then d.startAdm c
      else if st = blsBypassed then (d.setF (BLS_CELL_ST_LASTBYP c) 1).blsNote c
      else d.blsNote c

/-- Step 4: admission and its timeout. -/
def Dev.blsStep4 (d : Dev) (a c : Nat) : Dev :=
  if d.member c ≠ blsCheck then d
  else if d.blsReady c then (((d.setMember c blsActive).evt BLS_EVT_ADMITTED).bump BLS_ADMITS).logEvt 14 1 []
  else if d.bls.expired.contains c ∨ d.getF (BLS_ARM_ADM_TMO a) * 800000 ≤ d.per.sk - spGet 0 d.bls.timer c then
    (((((d.setMember c blsBypassed).setF (BLS_CELL_ST_LASTBYP c) 4).evt BLS_EVT_ADM_TIMEOUT).bump BLS_ADM_TMO).logEvt 14 2 [])
  else d

/-- Step 5: READY spares are promoted while the arm is below its target. -/
def Dev.blsStep5 (d : Dev) (a c : Nat) : Dev :=
  if (d.activeOf a).length < d.getF (BLS_ARM_CFG_NTGT a) ∧ d.member c = blsSpare ∧ d.blsReady c then
    (((d.setMember c blsActive).evt BLS_EVT_PROMOTED).bump BLS_PROMOTE).logEvt 14 3 []
  else d

/-- The arm's status after steps 1 to 6, or after the admission checks. -/
def Dev.armStat (d : Dev) (a : Nat) : Dev :=
  let cs := d.armCells a
  let sp := cs.filter fun c => decide (d.member c = blsSpare)
  ((d.setF (BLS_ARM_STAT_N a) (d.activeOf a).length).setF (BLS_ARM_STAT_NSPARE a) sp.length).setF (BLS_ARM_STAT_NREADY a)
    (sp.filter d.blsReady).length

/-- Membership of an arm at S(k) (R224, R228). -/
def Dev.blsArm (d : Dev) (a : Nat) : Dev :=
  let cs := d.armCells a
  let d := cs.foldl (fun d c => d.blsStep1 c) d
  let d := cs.foldl (fun d c => d.blsStep2 a c) d
  let d := cs.foldl (fun d c => d.blsStep3 c) d
  let d := cs.foldl (fun d c => d.blsStep4 a c) d
  let d := cs.foldl (fun d c => d.blsStep5 a c) d
  let n := (d.activeOf a).length
  let below := decide (n < d.getF (BLS_ARM_CFG_NTGT a))
  let was := decide (d.bls.below / 2 ^ a % 2 = 1)
  let d := if below && !was then (d.evt BLS_EVT_NOSPARE).bump BLS_NOSPARE else d
  let d := { d with bls := { d.bls with below := (fldPut a 1 (b2n below) (BitVec.ofNat 32 d.bls.below)).toNat } }
  let low := decide (n < d.getF (BLS_ARM_CFG_NMIN a))
  let d := if low && !d.bit (BLS_ARM_STAT_NLOW a) then (d.evt BLS_EVT_NMIN).bump BLS_NMIN else d
  let d := (d.setB (BLS_ARM_STAT_NLOW a) low).armStat a
  d.setF BLS_STAT_NLOW ((fldPut a 1 (b2n low) (BitVec.ofNat 32 (d.getF BLS_STAT_NLOW))).toNat)

/-- Every configured arm at S(k) (R224). -/
def Dev.blsSample (d : Dev) : Dev := forN 8 (fun a d => if d.bit (BLS_ARM_CFG_EN a) then d.blsArm a else d) d

/-! ### The run at S(k) + TLM_DUE (R227, R229, R232) -/

/-- The measurement a cell declares with channel code 1, lowest-numbered first (R222). -/
def Dev.vcWord (d : Dev) (c : Nat) : Nat :=
  let m := ((List.range 8).find? fun i => decide ((d.cell c).mch / 2 ^ (4 * i) % 16 = 1)).getD 0
  (d.mw (0x60000 + 8 * c + m)).toNat

def Dev.vc (d : Dev) (c : Nat) : FV := fdec f32 (d.vcWord c)

/-- A register that holds a binary32, as a value. -/
def Dev.regF (d : Dev) (a : Nat) : FV := fdec f32 (d.rd a).toNat

/-- The exact sum of a list (R195). -/
def fvSum (l : List FV) : FV :=
  match l with
  | [] => fvZero
  | x :: r => r.foldl fvAdd x

/-- The exact sum divided by a count, rounded once. -/
def fvMean (l : List FV) : Nat :=
  match fvSum l with
  | .fin s m e => fround f32 s m l.length e
  | v => fenc f32 v

/-- Insert after the elements that are not to come later. -/
def insBy (before : Nat → Nat → Bool) (c : Nat) (l : List Nat) : List Nat :=
  match l with
  | [] => [c]
  | x :: r => if before c x then c :: x :: r else x :: insBy before c r

/-- A trim (R229): `gain * e * sgn * 2^23` to the nearest integer, limited; a product the spec gives no integer for is a free
value. -/
def Dev.trim (d : Dev) (gain e : FV) (sgn : Int) (max : Nat) : Int × Dev :=
  let lim (d : Dev) : Dev := (d.bump BLS_TRIM_CLAMP).evt BLS_EVT_TRIM_CLAMP
  match fvMul (fvMul gain e) (fvOfInt sgn) with
  | .nan => let r := d.free (2 * max + 1); ((r.1 : Int) - max, r.2)
  | .inf s => ((if s then -(max : Int) else max), lim d)
  | .fin s m x =>
    let i := (fvToIntRne (.fin s m x) 23).getD 0
    if i < -(max : Int) then (-(max : Int), lim d) else if (max : Int) < i then (max, lim d) else (i, d)

/-- Order windows (R233): arms 6 and 7 have none, their offsets hold the Manifest copies and the counters. -/
def Dev.showOrder (d : Dev) (a : Nat) (order : List Nat) : Dev :=
  if 6 ≤ a ∨ d.bit BLS_CTRL_ORD_FRZ then d
  else forN 64 (fun w d =>
    let e (p : Nat) : Nat := match order[p]? with | some c => 0x8000 + c | none => 0
    d.wrN (addr_BLS_ORD a w) (e (2 * w) + e (2 * w + 1) * 65536)) d

/-- The run of one arm (R229, R232). -/
def Dev.blsRunArm (d : Dev) (a : Nat) : Dev :=
  let act := d.activeOf a
  let fresh := act.filter fun c => (d.cell c).accepted && fvIsFin (d.vc c)
  let base := if fresh.isEmpty then act else fresh
  let vbar := if act.isEmpty then 0 else fvMean (base.map d.vc)
  let i := fdec f32 (d.mw (d.getF (BLS_ARM_ISRC_W a))).toNat
  let idb := d.regF (addr_BLS_ARM_IDB a)
  let s : Int := if fvLt idb i then 1 else if fvLt i (fvNeg idb) then -1 else 0
  let ap := spGet (0, []) d.cbk.applied a
  let dir : Int := if s ≠ 0 then s * (if ap.1 < 0 then -1 else 1) else if d.bit (BLS_ARM_STAT_DIR a) then -1 else 1
  let prev := (ap.2.take ap.1.natAbs).filter act.contains
  let swap := fvMul (d.regF (addr_BLS_ARM_VSWAP a)) (fvOfInt (-dir))
  let key (c : Nat) : FV := if prev.contains c then fdec f32 (fenc f32 (fvAdd (d.vc c) swap)) else d.vc c
  let before (c x : Nat) : Bool := if 0 < dir then fvLt (key c) (key x) else fvLt (key x) (key c)
  let order := act.foldl (fun l c => insBy before c l) []
  let fv := fdec f32 vbar
  let err (c : Nat) : FV := if fresh.contains c && fvIsFin fv then fdec f32 (fenc f32 (fvAdd (d.vc c) (fvNeg fv))) else fvZero
  let cc := decide (d.cgMode (2 * a) = modeCC)
  let sq := decide (d.cgMode (2 * a + 1) = modeSQ)
  let g : Int := if d.bit (BLS_ARM_CFG_DSGN a) then -1 else 1
  let ka := d.regF (addr_BLS_ARM_KA a)
  let kd := d.regF (addr_BLS_ARM_KD a)
  let ta := d.getF (BLS_ARM_TLIM_TAMAX a) * 128
  let td := d.getF (BLS_ARM_TLIM_TDMAX a) * 128
  let d1 := (d.armCells a).foldl (fun d' c =>
    if act.contains c then
      let x := if cc then d'.trim ka (err c) (-s) ta else (0, d')
      let y := if sq then x.2.trim kd (err c) g td else (0, x.2)
      ((y.2.setF (BLS_CELL_TA c) (ofSigned 24 x.1)).setF (BLS_CELL_TD c) (ofSigned 24 y.1)).setF (BLS_CELL_ST_PLACE c)
        (order.idxOf c)
    else ((d'.setF (BLS_CELL_TA c) 0).setF (BLS_CELL_TD c) 0).setF (BLS_CELL_ST_PLACE c) 0xFF) d
  let lo (l : List Nat) := l.foldl (fun m c => if fvLt (d.vc c) (d.vc m) then c else m) (l.headD 0)
  let hi (l : List Nat) := l.foldl (fun m c => if fvLt (d.vc m) (d.vc c) then c else m) (l.headD 0)
  let vmin := if fresh.isEmpty then fnan f32 else d.vcWord (lo fresh)
  let vmax := if fresh.isEmpty then fnan f32 else d.vcWord (hi fresh)
  let w := d.regF (addr_BLS_ARM_SPRDW a)
  let exceeds := !fresh.isEmpty && fvCmp w fvZero != some .eq && fvLt w (fvAdd (fdec f32 vmax) (fvNeg (fdec f32 vmin)))
  let d2 := if exceeds && !d.bit (BLS_ARM_STAT_SPRD a) then (d1.evt BLS_EVT_SPREAD).bump BLS_SPREAD else d1
  let d2 := ((d2.setB (BLS_ARM_STAT_SPRD a) exceeds).setB (BLS_ARM_STAT_SVALID a) (decide (s ≠ 0))).setB (BLS_ARM_STAT_DIR a)
    (decide (dir < 0))
  (((d2.wrN (addr_BLS_ARM_VMEAN a) vbar).wrN (addr_BLS_ARM_VMIN a) vmin).wrN (addr_BLS_ARM_VMAX a) vmax).showOrder a order

/-- The four conditions of the admission check (R227). -/
def Dev.admissible (d : Dev) (a c : Nat) : Bool :=
  let fl := d.getF (TWL_CELL_TLMF_FLAGS c)
  let v := d.vc c
  let dev := fvAbs (fvAdd v (fvNeg (d.regF (addr_BLS_ARM_VMEAN a))))
  (d.cell c).accepted && decide (fl / 4 % 8 = 0) && decide (d.getF (TWL_CELL_TLMF_GD_ACT c) = 0) &&
    fvLe (d.regF (addr_BLS_ARM_ADM_VLO a)) v && fvLe v (d.regF (addr_BLS_ARM_ADM_VHI a)) &&
    ((d.activeOf a).isEmpty || fvLe dev (d.regF (addr_BLS_ARM_ADM_VDEV a)))

def Dev.admCheck (d : Dev) (a c : Nat) : Dev :=
  if blsBypassed ≤ d.member c ∧ d.member c ≤ blsCheck then
    let d := d.setF (BLS_CELL_ST_CNT c) (if d.admissible a c then min 255 (d.getF (BLS_CELL_ST_CNT c) + 1) else 0)
    d.setB (BLS_CELL_ST_READY c) (d.blsReady c)
  else d

/-- The Ballast run and the admission checks of period k (R19, R227, R229). -/
def Dev.blsDue (d : Dev) : Dev :=
  forN 8 (fun a d =>
    if d.bit (BLS_ARM_CFG_EN a) then (((d.armCells a).foldl (fun d c => d.admCheck a c) (d.blsRunArm a)).armStat a) else d) d

/-! ### BLS_CMD (R226) -/

/-- A refused BLS_CMD write with its reason. -/
def Dev.blsRefuse (d : Dev) (reason c : Nat) : Dev :=
  let d := ((d.setF BLS_CMD_STAT_ACCEPTED 0).setF BLS_CMD_STAT_REASON reason).setF BLS_CMD_STAT_CELL c
  (d.evt BLS_EVT_CMD_REFUSED).bump BLS_CMD_REFUSED

/-- What a BLS_CMD write refused for its class, or by a standby, sets. -/
def blsRef (cls : Nat) (v : Word) (d : Dev) : Dev := d.blsRefuse (if cls < 2 then 3 else 5) (fldGet 0 8 v)

/-- A write of BLS_CMD. -/
def blsCmdEffect (v : Word) : WEff := fun d =>
  let op := fldGet 28 4 v
  let c := fldGet 0 8 v
  if op = 0 ∨ 3 < op then (false, d.blsRefuse 4 c)
  else if !d.bit (BLS_CELL_CFG_IN_ARM c) then (false, d.blsRefuse 1 c)
  else if (blsTarget op (d.member c)).isNone then (false, d.blsRefuse 2 c)
  else
    let d := ((d.setF BLS_CMD_STAT_ACCEPTED 1).setF BLS_CMD_STAT_REASON 0).setF BLS_CMD_STAT_CELL c
    (true, { d with bls := { d.bls with cmds := spSet 0 d.bls.cmds c op } })

/-- The admission timer of a cell reaches ADM_TMO; the next sampling instant judges it (R223). -/
def admissionTimeout (c : Nat) (d : Dev) : Dev :=
  if d.member c = blsCheck ∧ d.per.running ∧ !d.bls.expired.contains c then
    { d with bls := { d.bls with expired := c :: d.bls.expired } }
  else d

/-- A command about a cell, through BLS_CMD. -/
def State.blsRow (s : State) (p : Path) (op c : Nat) : State :=
  let v : Word := BitVec.ofNat 32 (op * 2 ^ 28 + c % 256)
  s.writeRow p addr_BLS_CMD v (blsRef (s.classOf p) v) (blsCmdEffect v)

/-! ### The commands -/

/-- BYPASS (R226). -/
def execBypass (p : Path) (c : Nat) (s : State) : Host.Outcome State Fault Refusal := .next (s.blsRow p 1 c)

/-- ADMIT (R226). -/
def execAdmitCell (p : Path) (c : Nat) (s : State) : Host.Outcome State Fault Refusal := .next (s.blsRow p 2 c)

/-- SPARE (R226). -/
def execSpare (p : Path) (c : Nat) (s : State) : Host.Outcome State Fault Refusal := .next (s.blsRow p 3 c)

/-- ADMISSION_TIMEOUT (R223). -/
def execAdmissionTimeout (c : Nat) (s : State) : Host.Outcome State Fault Refusal := .next (s.onDev (admissionTimeout c))

end Sys2Proof.Machine
end

