-- ==== Sys2Proof/Machine/Helm.lean ====
section
/-! DEFINITION. The Helm engine (spec/06_helm_engine.md): stage table, the four operations, loop groups and coefficient banks,
grid angle and compensation tables, check and deadline lines, the coefficient window. -/

namespace Sys2Proof.Machine

/-! ### Stage descriptors (R186 to R192) -/

/-- Descriptor `i` of the stage table, 128 bits. -/
def Dev.desc (d : Dev) (i : Nat) : Nat :=
  ((List.range 4).map fun j => (spGet 0 d.hlm.stage (4 * i + j)).toNat * 2 ^ (32 * j)).foldl (· + ·) 0

def bitsOf (lo width x : Nat) : Nat := x / 2 ^ lo % 2 ^ width

def descOp (x : Nat) : Nat := bitsOf 124 4 x
def descClass (x : Nat) : Nat := bitsOf 122 2 x
def descOwner (x : Nat) : Nat := bitsOf 114 8 x
def descLoop (x : Nat) : Nat := bitsOf 110 4 x
def descRows (x : Nat) : Nat := bitsOf 104 6 x + 1
def descDst (x : Nat) : Nat := bitsOf 75 19 x
def descSrc (x : Nat) : Nat := bitsOf 56 19 x

/-- The value of a word of state memory. -/
def Dev.mwF (d : Dev) (w : Nat) : FV := fdec f32 (d.mw w).toNat

/-- A loop group is OPEN (R204). -/
def Dev.loopOpen (d : Dev) (n : Nat) : Bool := decide (d.getF HLM_LOOPST_OPEN / 2 ^ n % 2 = 1)

/-- First word of a loop group's active bank (R203). -/
def Dev.bankBase (d : Dev) (n : Nat) : Nat := d.getF HLM_LOOPST_BANK / 2 ^ n % 2 * 0x20000

/-- Write a vector of bit patterns. -/
def Dev.putVec (d : Dev) (dst : Nat) (l : List Nat) : Dev :=
  (l.zipIdx).foldl (fun d x => d.setMwN (dst + x.2) x.1) d

def Dev.getVec (d : Dev) (src n : Nat) : List Nat := (List.range n).map fun i => (d.mw (src + i)).toNat

/-- One row of an MVM: the terms of R189 in one exact sum, rounded once (R195). -/
def mvmRow (old bias : Option FV) (neg : Bool) (row src : List FV) : Nat :=
  let ps := (row.zip src).map fun x => let p := fvMul x.1 x.2; if neg then fvNeg p else p
  fenc f32 (fvSum (old.toList ++ bias.toList ++ ps))

/-- The MVM operation (R189, R201, R208). -/
def Dev.runMvm (d : Dev) (x : Nat) (stale : Bool) : Dev :=
  let r := descRows x
  let c := bitsOf 98 6 x + 1
  let acc := bitsOf 97 1 x = 1
  let dst := descDst x
  let src := descSrc x
  if bitsOf 94 1 x = 1 ∧ stale then (if acc then d else d.putVec dst (d.getVec src r))
  else
    let alt := bitsOf 19 1 x = 1 ∧ d.per.len ≠ d.getF HLM_TNOM_PER
    let mat := d.bankBase (descLoop x) + bitsOf 39 17 x + (if alt then r * c else 0)
    let sv := (List.range c).map fun j => d.mwF (src + j)
    d.putVec dst ((List.range r).map fun i =>
      mvmRow (if acc then some (d.mwF (dst + i)) else none)
        (if bitsOf 95 1 x = 1 then some (d.mwF (bitsOf 20 19 x + i)) else none) (bitsOf 96 1 x = 1)
        ((List.range c).map fun j => d.mwF (mat + i * c + j)) sv)

/-- One element of a CLAMP (R190): the result, whether it was changed, whether a NaN was replaced. A limit that is a NaN gives a
result the spec does not state: a free value. -/
def Dev.clampElem (d : Dev) (nanv v lo hi : Nat) : Nat × Bool × Bool × Dev :=
  let fv := fdec f32 v
  let fl := fdec f32 lo
  let fh := fdec f32 hi
  if fvIsNan fv then
    if nanv = 3 then (v, false, false, d) else (if nanv = 0 then lo else if nanv = 1 then hi else 0, false, true, d)
  else if fvIsNan fl || fvIsNan fh then
    let r := d.free (2 ^ 32)
    (r.1, decide (r.1 ≠ v), false, r.2)
  else
    let m := if fvLt fv fl then lo else v
    let w := if fvLt fh (fdec f32 m) then hi else m
    (w, decide (w ≠ v), false, d)

/-- The trip source of a check line, and of the deadline line (R263). -/
def srcHt (line : Nat) : Nat := 56 + line
def srcHdl : Nat := 60

/-- A check line becomes active (R198). -/
def Dev.raiseHt (d : Dev) (line : Nat) : Dev :=
  let d := { d with hlm := { d.hlm with fails := Nat.lor d.hlm.fails (2 ^ line) } }
  if d.getF HLM_STAT_HT / 2 ^ line % 2 = 1 then d
  else (d.setF HLM_STAT_HT (d.getF HLM_STAT_HT + 2 ^ line)).setSource (srcHt line) true

/-- The LIM operation (R190, R198). -/
def Dev.runLim (d : Dev) (x : Nat) : Dev :=
  let r := descRows x
  let mode := bitsOf 102 2 x
  let base := d.bankBase (descLoop x)
  let scal := bitsOf 97 1 x = 1
  let lim (lo i : Nat) : Nat := (d.mw (base + bitsOf lo 17 x + (if scal then 0 else i))).toNat
  let src := d.getVec (descSrc x) r
  if mode = 0 then
    let out := (src.zipIdx).foldl (fun (acc : List Nat × Nat × Nat × Dev) e =>
      let y := acc.2.2.2.clampElem (bitsOf 98 2 x) e.1 (lim 39 e.2) (lim 22 e.2)
      (acc.1 ++ [y.1], acc.2.1 + b2n y.2.1, acc.2.2.1 + b2n y.2.2.1, y.2.2.2)) ([], 0, 0, d)
    let d := out.2.2.2.putVec (descDst x) out.1
    let d := if out.2.1 = 0 then d else (d.bumpBy HLM_CLAMPS out.2.1).evt HLM_EVT_CLAMP
    if out.2.2.1 = 0 then d else (d.bumpBy HLM_NAN out.2.2.1).evt HLM_EVT_NAN
  else
    let d' := d.putVec (descDst x) src
    let bad := (src.zipIdx).any fun e =>
      let v := fdec f32 e.1
      fvIsNan v || fvLt v (fdec f32 (lim 39 e.2)) || fvLt (fdec f32 (lim 22 e.2)) v
    if bad then
      let d' := (d'.bump HLM_CHK_FAIL).evt HLM_EVT_CHK_FAIL
      if mode = 2 then d'.raiseHt (bitsOf 100 2 x) else d'
    else d'

/-- The SEL operation (R191). -/
def Dev.runSel (d : Dev) (x : Nat) : Dev :=
  let ctl := d.mwF (bitsOf 18 19 x)
  let cond := bitsOf 102 2 x
  let take : Bool :=
    if cond = 0 then fvLt fvZero ctl
    else if cond = 1 then fvLe fvZero ctl
    else if cond = 2 then !fvIsNan ctl && fvCmp ctl fvZero != some .eq
    else fvIsNan ctl
  d.putVec (descDst x) (d.getVec (if take then bitsOf 56 19 x else bitsOf 37 19 x) (descRows x))

/-- Interpolation of R192 and R211: one rounding, by the rules of R195. -/
def interp (e0 e1 fq : Nat) : Nat :=
  let s := fvAdd (fvMul (fdec f32 e0) (fvOfInt (65536 - fq : Nat))) (fvMul (fdec f32 e1) (fvOfInt fq))
  fenc f32 (fvMul s (.fin false 1 (-16)))

/-- The LUT operation on one element (R192): table words by index, number of entries. -/
def lutElem (word : Nat → Nat) (n v : Nat) : Nat :=
  match fvMul (fvAdd (fdec f32 v) (fvNeg (fdec f32 (word 0)))) (fdec f32 (word 1)) with
  | .nan => fnan f32
  | .inf neg => if neg ∧ 1 < n then interp (word 2) (word 3) 0 else word (2 + (n - 1))
  | .fin s m e =>
    let q := (fvFloor (.fin s m e) 16).getD 0
    let q : Nat := min q.toNat ((n - 1) * 65536)
    let idx := q / 65536
    if n - 1 ≤ idx then word (2 + (n - 1)) else interp (word (2 + idx)) (word (3 + idx)) (q % 65536)

/-- The LUT operation (R192). -/
def Dev.runLut (d : Dev) (x : Nat) : Dev :=
  let base := d.bankBase (descLoop x) + bitsOf 39 17 x
  let word (i : Nat) : Nat := (d.mw (base + i)).toNat
  d.putVec (descDst x) ((d.getVec (descSrc x) (descRows x)).map fun v => lutElem word (bitsOf 94 10 x + 1) v)

/-- One descriptor, unless its loop group is OPEN (R188, R204). -/
def Dev.runDesc (d : Dev) (x : Nat) (stale : Bool) : Dev :=
  if d.loopOpen (descLoop x) then d
  else if descOp x = 1 then d.runMvm x stale
  else if descOp x = 2 then d.runLim x
  else if descOp x = 3 then d.runSel x
  else if descOp x = 4 then d.runLut x
  else d

/-- The stages of a class, and for cells and arms of an owner, in table order (R187, R193); an uncorrectable descriptor is left out
(R441). -/
def Dev.runStages (d : Dev) (cls : Nat) (owner : Option Nat) (stale : Bool) : Dev :=
  (List.range (d.getF HLM_NDESC_N)).foldl (fun d i =>
    let x := d.desc i
    if descClass x = cls ∧ (∀ o ∈ owner, descOwner x = o) ∧ !d.hlm.bad.contains i then d.runDesc x stale else d) d

/-! ### Loop groups and banks (R203 to R206) -/

/-- At S(k): swaps first, judged against the OPEN state in force, then changes of OPEN (R205). -/
def Dev.hlmLoops (d : Dev) : Dev :=
  let req := d.getF HLM_SWPEND_REQ
  let d := forN 16 (fun n d =>
    if req / 2 ^ n % 2 = 0 then d
    else if d.loopOpen n then
      let b := d.getF HLM_LOOPST_BANK
      let d := d.setF HLM_LOOPST_BANK (if b / 2 ^ n % 2 = 1 then b - 2 ^ n else b + 2 ^ n)
      ((d.evt HLM_EVT_SWAP_DONE).bump HLM_SWAPS).logEvt 12 5 []
    else (d.evt HLM_EVT_SWAP_REFUSED).bump HLM_SWAP_REFUSED) d
  (d.setF HLM_SWPEND_REQ 0).setF HLM_LOOPST_OPEN (d.getF HLM_LOOP_OPEN)

/-- A write of HLM_BANKSW: a request per set bit, pending until S(k+1) (R205). -/
def bankswEffect (v : Word) : WEff := fun d => (true, d.setF HLM_SWPEND_REQ (Nat.lor (d.getF HLM_SWPEND_REQ) (fldGet 0 16 v)))

/-- The loop group whose region holds a bank-relative word (R203). -/
def Dev.groupOfWord (d : Dev) (w : Nat) : Option Nat :=
  (List.range 16).find? fun n => decide (d.getF (HLM_GRP_BASE_W n) ≤ w ∧ w ≤ d.getF (HLM_GRP_LIM_W n))

/-- A word of bank `w / 0x20000` may be written: outside every region, not in its group's active bank, or the group OPEN (R206). -/
def Dev.coefOk (d : Dev) (w : Nat) : Bool :=
  match d.groupOfWord (w % 0x20000) with
  | some n => decide (d.bankBase n ≠ w / 0x20000 * 0x20000) || d.loopOpen n
  | none => true

/-- A refused window write (R206). -/
def Dev.windowRefuse (d : Dev) (c : Fld) (w : Nat) : Dev := ((d.evt HLM_EVT_COEF_REFUSED).bump c).setF HLM_REFADDR_W w

/-- A write through the coefficient window (R206). -/
def windowEffect (w : Nat) (v : Word) : WEff := fun d =>
  if w < 0x40000 then (if d.coefOk w then (true, d.setMw w v) else (false, d.windowRefuse HLM_COEF_REFUSED w))
  else if (w < 0x60000 ∨ 0x70000 ≤ w ∧ w < 0x78000) ∧ d.noArm then (true, d.setMw w v)
  else (false, d.windowRefuse HLM_WIN_REFUSED w)

/-! ### Grid angle and compensation tables (R210, R211) -/

/-- The fractional part of a finite binary64, exact, in 0 ≤ x < 1. -/
def f64Frac (x : Nat) : Nat := fsub f64 x (match fvFloor (fdec f64 x) 0 with | some i => fofInt f64 i | none => x)

/-- The value of compensation table `t` at angle `th` (R211). -/
def Dev.compValue (d : Dev) (t th : Nat) : Nat :=
  if !d.bit (HLM_CT_EN t) then 0
  else
    let phi := fadd f64 (fmul f64 (fofInt f64 (d.getF (HLM_CT_H t))) th) (fofScaled f64 (d.getF (HLM_CT_OFS t)) (-16))
    let phi := f64Frac phi
    let pos := fmul f64 phi (fofInt f64 1024)
    let q := ((fvFloor (fdec f64 pos) 16).getD 0).toNat
    let base := 0x1C000 + 0x400 * t
    let bank := match d.groupOfWord base with | some n => d.bankBase n | none => 0
    let e (i : Nat) : Nat := (d.mw (bank + base + i % 1024)).toNat
    interp (e (q / 65536)) (e (q / 65536 + 1)) (q % 65536)

/-- The prediction at S(k) (R210), and the compensation values (R211). -/
def Dev.hlmAngle (d : Dev) : Dev :=
  let d := if d.per.k = 0 then { d with hlm := { d.hlm with theta := 0, omega := 0, prev := 0 } } else d
  let tw := (d.mw 0x708C0).toNat
  let ow := (d.mw 0x708C1).toNat
  let ok := fvIsFin (fdec f32 tw) && fvIsFin (fdec f32 ow)
  let d := if ok then d else (d.evt HLM_EVT_ANG_NAN).bump HLM_ANG_NAN
  let th0 := if ok then f32to64 tw else d.hlm.theta
  let om := if ok then f32to64 ow else d.hlm.omega
  let tPrev := fround f64 false d.hlm.prev 800000000 0
  let th := f64Frac (fadd f64 th0 (fmul f64 om tPrev))
  let d := { d with hlm := { d.hlm with theta := th, omega := om, prev := d.per.len } }
  let d := (d.setMwN 0x60AD2 (f64to32 th)).setMwN 0x60AD3 (f64to32 om)
  let d := (d.wrN addr_HLM_ANG (f64to32 th)).wrN addr_HLM_OMG (f64to32 om)
  forN 16 (fun t d => d.setMwN (0x60AC0 + t) (d.compValue t th)) d

/-! ### The run (R18, R24, R25, R197 to R202) -/

def f32One : Nat := 0x3F800000

/-- The deadline line (R199). -/
def Dev.hlmLine (d : Dev) : Dev :=
  let n := d.getF HLM_CTRL_DL_TRIP
  let on : Bool := decide (n ≠ 0 ∧ n ≤ d.getF HLM_STAT_DL_CONSEC)
  if on = d.bit HLM_STAT_HDL then d
  else
    let d := (d.setB HLM_STAT_HDL on).setSource srcHdl on
    if on then d.evt HLM_EVT_HDL else d

/-- The Helm deadline with the run not complete (R24, R199). -/
def Dev.hlmMiss (d : Dev) : Dev :=
  let d := d.setF HLM_STAT_DL_CONSEC (min 255 (d.getF HLM_STAT_DL_CONSEC + 1))
  ((d.evt HLM_EVT_DL_MISS).bump HLM_DL_MISS).hlmLine

/-- The end of a run (R25, R197 to R199): arm and global stages, then the lines and the run's outcome. `ns` is the completion time
after S(k). With an uncorrectable descriptor the run counts as a miss (R441). -/
def Dev.hlmFinish (d : Dev) (ns : Nat) : Dev :=
  let d := forN 8 (fun a d => d.runStages 1 (some a) false) d
  let d := d.runStages 2 none false
  let d := forN 4 (fun l d =>
    if d.getF HLM_STAT_HT / 2 ^ l % 2 = 1 ∧ d.hlm.fails / 2 ^ l % 2 = 0 then
      (d.setF HLM_STAT_HT (d.getF HLM_STAT_HT - 2 ^ l)).setSource (srcHt l) false
    else d) d
  let n := min 65535 ns
  let d := (d.setF HLM_RUN_NS n).setF HLM_RUNMAX_NS (max (d.getF HLM_RUNMAX_NS) n)
  let d := d.setF HLM_STAT_RUNNING 0
  if !d.hlm.bad.isEmpty then (d.setF HLM_STAT_LAST_MISS 1).hlmMiss
  else if d.per.deadlinePassed then d.setF HLM_STAT_LAST_MISS 1
  else ((d.setF HLM_STAT_LAST_MISS 0).setF HLM_STAT_DL_CONSEC 0).hlmLine

/-- At S(k): a run that is still open ends late; requests are applied; the input words of the period are written and the run of
period k begins (R183, R205, R210). -/
def Dev.hlmSample (d : Dev) : Dev :=
  let d := d.hlmLoops.hlmAngle
  let t := d.per.len
  let d := (d.setMwN 0x60AD0 (fround f32 false t 800000000 0)).setMwN 0x60AD1 (fround f32 false 800000000 t 0)
  let d := d.setMwN 0x60AD4 (if d.bit HLM_STAT_LAST_MISS then f32One else 0)
  let d := d.setMwN 0x60AD5 (if t ≠ d.getF HLM_TNOM_PER then f32One else 0)
  let d := forN 8 (fun a d => d.setMwN (0x60AD8 + a) (fofInt f32 (d.activeOf a).length)) d
  { d.setF HLM_STAT_RUNNING 1 with hlm := { d.hlm with fails := 0 } }

/-- The cell stages of a cell whose TLM frame is accepted, or that is stale (R18). -/
def Dev.hlmCell (d : Dev) (c : Nat) (stale : Bool) : Dev := if d.bit HLM_STAT_RUNNING then d.runStages 0 (some c) stale else d

/-- The stale count of a cell at TLM_DUE (R15, R200, R202). -/
def Dev.hlmStale (d : Dev) (c : Nat) : Dev :=
  let x := d.cell c
  let n := if x.accepted then 0 else min 65535 (x.stale + 1)
  let d := (d.setCell c { x with stale := n }).setMwN (0x60800 + c) (fofInt f32 n)
  let a := d.getF (BLS_CELL_CFG_ARM c)
  let lim := d.getF HLM_CTRL_STALE_LIM
  if n = 0 then { d with hlm := { d.hlm with slim := d.hlm.slim.filter (· ≠ c) } }
  else if lim ≠ 0 ∧ lim ≤ n ∧ !d.hlm.slim.contains c ∧ (d.activeOf a).contains c ∧ d.getF BOT_ARM_EN / 2 ^ a % 2 = 1 then
    let d := { d with hlm := { d.hlm with slim := c :: d.hlm.slim } }
    ((d.evt HLM_EVT_STALE_LIM).bump HLM_STALE_LIM).logEvt 12 7 [c]
  else d

/-- A read of HLM_RUNMAX (R8, R197). -/
def runmaxRead (d : Dev) : Word × Dev := d.readClear addr_HLM_RUNMAX

/-! ### The commands -/

/-- LOOP_WRITE (R205). -/
def execLoopWrite (p : Path) (v : Word) (s : State) : Host.Outcome State Fault Refusal :=
  .next (s.writeRow p addr_HLM_LOOP v id (plainWrite addr_HLM_LOOP v))

/-- BANKSW (R205). -/
def execBanksw (p : Path) (v : Word) (s : State) : Host.Outcome State Fault Refusal :=
  .next (s.writeRow p addr_HLM_BANKSW v id (bankswEffect v))

/-- COEF_WRITE (R206): word address and value. -/
def execCoefWrite (p : Path) (w : Nat) (v : Word) (s : State) : Host.Outcome State Fault Refusal :=
  .next (s.inst (decide (w < 0x80000)) fun s => s.writeRow p (0x200000 + 4 * w) v id (windowEffect w v))

/-- RUNMAX_READ (R197). -/
def execRunmaxRead (p : Path) (s : State) : Host.Outcome State Fault Refusal := .next (s.readRow p addr_HLM_RUNMAX runmaxRead)

end Sys2Proof.Machine
end

