-- ==== Sys2Proof/Machine/Gangway.lean ====
section
/-! DEFINITION. The Gangway profile generator (spec/06_helm_engine.md, R212 to R218): binary64 arithmetic in the order of the
spec's procedure, every operation rounded. -/

namespace Sys2Proof.Machine

/-- Operations of the procedure of R214 on binary64 patterns. -/
def gAdd (a b : Nat) : Nat := fadd f64 a b
def gSub (a b : Nat) : Nat := fsub f64 a b
def gMul (a b : Nat) : Nat := fmul f64 a b
def gDiv (a b : Nat) : Nat := fdiv f64 a b
def gInt (i : Int) : Nat := fofInt f64 i
def gAbs (a : Nat) : Nat := a % 2 ^ 63
def gLe (a b : Nat) : Bool := fvLe (fdec f64 a) (fdec f64 b)
def gLt (a b : Nat) : Bool := fvLt (fdec f64 a) (fdec f64 b)

/-- The sign of a value: -1, 0 or 1. -/
def gSign (a : Nat) : Int := if gLt a 0 then -1 else if gLt 0 a then 1 else 0

/-- Limits V, A, J of a channel and the step T. -/
structure GwyLim where
  v : Nat
  a : Nat
  j : Nat
  t : Nat

/-- stop_pos of R214. -/
def stopPos (l : GwyLim) (p v a : Nat) : Nat :=
  let t := gDiv (gAbs a) l.j
  let s := gInt (gSign a)
  let p := gSub (gAdd (gAdd p (gMul v t)) (gDiv (gMul (gMul a t) t) (gInt 2)))
    (gDiv (gMul (gMul (gMul (gMul s l.j) t) t) t) (gInt 6))
  let v := gSub (gAdd v (gMul a t)) (gDiv (gMul (gMul (gMul s l.j) t) t) (gInt 2))
  if gLe (gAbs v) (gDiv (gMul l.a l.a) l.j) then gAdd p (gMul v (fsqrt f64 (gDiv (gAbs v) l.j)))
  else gAdd p (gMul v (gAdd (gDiv (gAbs v) (gMul (gInt 2) l.a)) (gDiv l.a (gMul (gInt 2) l.j))))

/-- step of R214: constant jerk `j` for T. -/
def jerkStep (l : GwyLim) (p v a j : Nat) : Nat × Nat × Nat :=
  let t := l.t
  (gAdd (gAdd (gAdd p (gMul v t)) (gDiv (gMul (gMul a t) t) (gInt 2))) (gDiv (gMul (gMul (gMul j t) t) t) (gInt 6)),
   gAdd (gAdd v (gMul a t)) (gDiv (gMul (gMul j t) t) (gInt 2)), gAdd a (gMul j t))

/-- One advance of a channel towards `x` (R214). -/
def gwyAdvance (l : GwyLim) (x p v a : Nat) : Nat × Nat × Nat :=
  let jt := gMul l.j l.t
  let jtt := gMul jt l.t
  if gLe (gAbs (gSub x p)) (gMul jtt l.t) && gLe (gAbs v) jtt && gLe (gAbs a) jt then (x, 0, 0)
  else
    let d := gSign (gSub x (stopPos l p v a))
    let d := if d = 0 then -(gSign v) else d
    let d := if d = 0 then gSign (gSub x p) else d
    let dj := gMul (gInt d) l.j
    let mdj := gMul (gInt (-d)) l.j
    let ok (j : Nat) (last : Bool) : Bool :=
      let n := jerkStep l p v a j
      gLe (gAbs n.2.2) l.a &&
        gLe (gAbs (gAdd n.2.1 (gDiv (gMul n.2.2 (gAbs n.2.2)) (gMul (gInt 2) l.j)))) l.v &&
        (last || gLe 0 (gMul (gInt d) (gSub x (stopPos l n.1 n.2.1 n.2.2))))
    let chosen :=
      if ok dj (decide (dj = mdj)) then dj
      else if ok 0 (decide (0 = mdj)) then 0
      else if ok mdj true then mdj
      else if gLt l.a (gAbs (gAdd a (gMul mdj l.t))) then
        gDiv (gSub (gMul (gInt (gSign mdj)) l.a) a) l.t
      else mdj
    jerkStep l p v a chosen

def Dev.gw (d : Dev) (n : Nat) : GwyCh := spGet {} d.gwy n
def Dev.setGw (d : Dev) (n : Nat) (x : GwyCh) : Dev := { d with gwy := spSet {} d.gwy n x }

/-- A binary32 value limited to MIN–MAX of a channel (R213, R218), and whether it was limited. -/
def Dev.gwyLimit (d : Dev) (n v : Nat) : Nat × Bool :=
  let lo := (d.rd (addr_GWY_CH_MIN n)).toNat
  let hi := (d.rd (addr_GWY_CH_MAX n)).toNat
  if fvLt (fdec f32 v) (fdec f32 lo) then (lo, true)
  else if fvLt (fdec f32 hi) (fdec f32 v) then (hi, true)
  else (v, false)

/-- The target in force at S(k) (R213). -/
def Dev.gwyTarget (d : Dev) (n : Nat) : Dev :=
  let raw := if d.bit (GWY_CH_CFG_TSRC n) then (d.mw (d.getF (GWY_CH_CFG_TADDR n))).toNat else (d.rd (addr_GWY_CH_TGT n)).toNat
  if !fvIsFin (fdec f32 raw) then (d.bump GWY_TGT_NAN).evt GWY_EVT_TGT_NAN
  else
    let r := d.gwyLimit n raw
    let d := if r.2 then (d.bump GWY_TGT_CLAMP).evt GWY_EVT_TGT_CLAMP else d
    d.setGw n { d.gw n with tgt := r.1 }

/-- Hold in force (R216). -/
def Dev.gwyHolding (d : Dev) (n : Nat) : Bool :=
  d.maskBit addr_GWY_HOLD n || groupsMeet d.latched16 (d.getF (GWY_CH_HOLDG_GRP n))

def Dev.gwyLim (d : Dev) (n : Nat) : GwyLim :=
  ⟨f32to64 (d.rd (addr_GWY_CH_V n)).toNat, f32to64 (d.rd (addr_GWY_CH_A n)).toNat, f32to64 (d.rd (addr_GWY_CH_J n)).toNat,
   fround f64 false d.per.len 800000000 0⟩

/-- A channel at S(k): it publishes the state computed for S(k), then computes its state for S(k+1) (R212 to R218). -/
def Dev.gwyChannel (d : Dev) (n : Nat) : Dev :=
  if !d.bit (GWY_CH_CFG_EN n) then (d.setMwN (0x60A80 + n) 0).setMwN (0x60AA0 + n) 0
  else
    let x := d.gw n
    let x := match x.preset with
      | some v => { x with p := f32to64 v, v := 0, a := 0, preset := none }
      | none => if d.per.k = 0 then { x with p := f32to64 (d.rd (addr_GWY_CH_INIT n)).toNat, v := 0, a := 0 }
                else { x with p := x.np, v := x.nv, a := x.na }
    let d := d.setGw n x
    let p32 := f64to32 x.p
    let v32 := f64to32 x.v
    let d := (d.setMwN (0x60A80 + n) p32).setMwN (0x60AA0 + n) v32
    let d := ((d.wrN (addr_GWY_CH_OUT_P n) p32).wrN (addr_GWY_CH_OUT_V n) v32).wrN (addr_GWY_CH_OUT_A n) (f64to32 x.a)
    let d := d.gwyTarget n
    let l := d.gwyLim n
    let hold := d.gwyHolding n
    let y := d.gw n
    let y := if hold && !d.bit (GWY_CH_STAT_HOLDING n) then { y with xh := stopPos l x.p x.v x.a } else y
    let goal := if hold then y.xh else f32to64 y.tgt
    let jt3 := gMul (gMul (gMul l.j l.t) l.t) l.t
    let ovs := decide (gSign x.v ≠ 0) && gLt jt3 (gMul (gInt (gSign x.v)) (gSub (stopPos l x.p x.v x.a) goal))
    let d := if ovs && !d.bit (GWY_CH_STAT_OVS n) then (d.evt GWY_EVT_OVERSHOOT).bump (GWY_OVS n) else d
    let d := ((d.setB (GWY_CH_STAT_OVS n) ovs).setB (GWY_CH_STAT_HOLDING n) hold).setB (GWY_CH_STAT_EN n) true
    let arrived := fvCmp (fdec f64 x.p) (fdec f64 goal) == some .eq && decide (gSign x.v = 0) && decide (gSign x.a = 0)
    let d := d.setB (GWY_CH_STAT_ARRIVED n) arrived
    let d := d.setMaskBit addr_GWY_OVS_SUM n ovs
    let s := gwyAdvance l goal x.p x.v x.a
    d.setGw n { y with np := s.1, nv := s.2.1, na := s.2.2 }

/-- Every channel at S(k). -/
def Dev.gwySample (d : Dev) : Dev := forN 32 (fun n d => d.gwyChannel n) d

/-- A write of GWY_CHn_PRESET (R218). A NaN has no limited value in the spec: the position is then a free value. -/
def presetEffect (n : Nat) (v : Word) : WEff := fun d =>
  if !d.noArm then (false, (d.evt GWY_EVT_PRESET_REFUSED).bump GWY_PRESET_REFUSED)
  else if fvIsNan (fdec f32 v.toNat) then
    let r := d.free (2 ^ 32)
    (true, r.2.setGw n { r.2.gw n with preset := some r.1 })
  else (true, d.setGw n { d.gw n with preset := some (d.gwyLimit n v.toNat).1 })

/-- A preset refused for its class, or by a standby (R218). -/
def gwyRef (d : Dev) : Dev := (d.evt GWY_EVT_PRESET_REFUSED).bump GWY_PRESET_REFUSED

/-- A read of OUT_P latches OUT_V and OUT_A for the path (R220, R460). -/
def outPRead (pn n : Nat) (d : Dev) : Word × Dev :=
  (d.rd (addr_GWY_CH_OUT_P n),
   (d.setLatch pn (addr_GWY_CH_OUT_V n) (d.rd (addr_GWY_CH_OUT_V n)).toNat).setLatch pn (addr_GWY_CH_OUT_A n)
     (d.rd (addr_GWY_CH_OUT_A n)).toNat)

/-! ### The commands -/

/-- PRESET (R218). -/
def execPreset (p : Path) (n : Nat) (v : Word) (s : State) : Host.Outcome State Fault Refusal :=
  .next (s.inst (decide (n < 32)) fun s => s.writeRow p (addr_GWY_CH_PRESET n) v gwyRef (presetEffect n v))

/-- OUT_P_READ (R220, R460). -/
def execOutPRead (p : Path) (n : Nat) (s : State) : Host.Outcome State Fault Refusal :=
  .next (s.inst (decide (n < 32)) fun s => s.readRow p (addr_GWY_CH_OUT_P n) (outPRead (pathNo p) n))

end Sys2Proof.Machine
end

