-- ==== Sys2Proof/Machine/Acquisition.lean ====
section
/-! DEFINITION. Measurement inputs (spec/08_acquisition.md): modulator inputs with their control and metering filters, dual-range
pairs, the SAR slices with their background calibration, and the window comparators. -/

namespace Sys2Proof.Machine

/-! ### Modulators: clock and capture (R234 to R238) -/

def Dev.modCh (d : Dev) (c : Nat) : ModCh := spGet {} d.mod.chans c
def Dev.setModCh (d : Dev) (c : Nat) (x : ModCh) : Dev := { d with mod := { d.mod with chans := spSet {} d.mod.chans c x } }
def Dev.modPair (d : Dev) (p : Nat) : ModPair := spGet {} d.mod.pairs p
def Dev.setModPair (d : Dev) (p : Nat) (x : ModPair) : Dev := { d with mod := { d.mod with pairs := spSet {} d.mod.pairs p x } }

/-- MOD_STAT.CLK_OK: MCLK present and in range; always so in INT mode (R236). -/
def Dev.modClk (d : Dev) : Dev :=
  d.setB MOD_STAT_CLK_OK (!d.bit MOD_CTRL_SRC || (d.mod.seen && !d.mod.gap && !d.mod.badFreq))

/-- An MCLK fault begins, unless one is present (R236): every filter refills after it. -/
def Dev.mclkOnset (d : Dev) : Dev :=
  let d := forN 32 (fun c d => d.setModCh c { d.modCh c with cnt := 0 }) d
  (((d.setB MOD_STAT_CLK_OK false).evt MOD_EVT_CLK_FAIL).bump MOD_CLK_FAIL).logEvt 15 0 []

def Dev.modFault (d : Dev) : Bool := d.mod.gap || d.mod.badFreq

/-- No edge for 1 µs (R236). -/
def mclkGap (d : Dev) : Dev :=
  if !d.bit MOD_CTRL_SRC || d.mod.gap then d
  else
    let was := d.modFault
    let d := { d with mod := { d.mod with gap := true } }
    if was then d else d.mclkOnset

/-- The frequency of 100 µs (R236). -/
def mckiMeasure (khz : Nat) (d : Dev) : Dev :=
  if !d.bit MOD_CTRL_SRC then d
  else
    let was := d.modFault
    let bad := decide (khz < 4500) || decide (27000 < khz)
    let d := { d.setF MOD_FREQ_KHZ khz with mod := { d.mod with badFreq := bad, seen := true } }
    if bad ∧ !was then d.mclkOnset else d.modClk

/-- One captured bit: length of the run of its level, and onsets of a run over the limit. -/
def feedRun (lim : Nat) (acc : Nat × Bool × Nat) (b : Bool) : Nat × Bool × Nat :=
  let run := if acc.2.1 = b ∧ acc.1 ≠ 0 then acc.1 + 1 else 1
  (run, b, if lim ≠ 0 ∧ run = lim + 1 then acc.2.2 + 1 else acc.2.2)

/-- Captured bits reach their channel (R234, R241). -/
def Dev.capture (d : Dev) (c : Capture) : Dev :=
  if c.ch < 32 ∧ d.bit (MOD_CH_CFG_EN c.ch) ∧ c.bits ≠ [] then
    let d := if d.mod.gap then { d with mod := { d.mod with gap := false } }.modClk else d
    let x := d.modCh c.ch
    let r := c.bits.foldl (feedRun (d.getF (MOD_CH_CFG_STUCK c.ch))) (x.run, x.hist.headD false, 0)
    let n := c.bits.length
    let d := d.setModCh c.ch
      { hist := (c.bits.reverse ++ x.hist).take 4400, num := x.num + n, run := r.1, t := c.t,
        cnt := if d.bit MOD_STAT_CLK_OK then x.cnt + n else 0 }
    if r.2.2 = 0 then d else (d.evt MOD_EVT_STUCK).bumpBy MOD_STUCK r.2.2
  else d

def Dev.captures (d : Dev) (cs : List Capture) : Dev := cs.foldl Dev.capture d

/-! ### The filters (R239, R241, R243) -/

/-- Coefficient i of (1 + z⁻¹ + … + z^−(M−1))³ (R239). -/
def sincCoef (m i : Nat) : Nat :=
  let f : Nat → Int := fun n => (n + 1) * (n + 2) / 2
  let a := f i - (if m ≤ i then 3 * f (i - m) else 0) + (if 2 * m ≤ i then 3 * f (i - 2 * m) else 0)
  a.toNat

/-- The filter output y over the newest 3M − 2 bits (R239). -/
def sincOut (m : Nat) (hist : List Bool) : Nat :=
  ((hist.take (3 * m - 2)).zipIdx.map fun p => if p.1 then sincCoef m p.2 else 0).sum

/-- Consecutive newest bits of one level. -/
def headRun (h : List Bool) : Nat :=
  match h with
  | [] => 0
  | b :: _ => (h.takeWhile (· == b)).length

/-- A filtered sample: validity, x as num / den, the value in SI units (binary32), and the device time of its capture edge. -/
structure Smp where
  ok : Bool
  num : Int
  den : Nat
  val : Nat
  t : Nat
  deriving DecidableEq, Repr

/-- A filter of ratio `m` at the capture edge `o` edges before the newest one (R239, R241). -/
def Dev.sample (d : Dev) (c m o : Nat) : Smp :=
  let x := d.modCh c
  let h := x.hist.drop o
  let lim := d.getF (MOD_CH_CFG_STUCK c)
  let ok := d.bit MOD_STAT_CLK_OK && decide (3 * m - 2 + o ≤ x.cnt) && !(decide (lim ≠ 0) && decide (lim < headRun h))
  let den := m * m * m
  let num : Int := 2 * (sincOut m h : Int) - den
  let ofs := fdec f32 (d.getF (MOD_CH_OFS c))
  let v := fvMul (fdec f32 (d.getF (MOD_CH_GAIN c))) (fvAdd (fvOfInt num) (fvNeg (fvMul ofs (fvOfInt den))))
  ⟨ok, num, den, (match v with
    | .fin s mm e => fround f32 (s && decide (mm ≠ 0)) mm den e
    | .nan => fnan f32
    | .inf s => finf f32 s), x.t⟩

/-- |x| below `a / b`. -/
def Smp.below (s : Smp) (a b : Nat) : Bool := decide (b * s.num.natAbs < a * s.den)

/-! ### Dual-range pairs (R244 to R246) -/

/-- One step of R244: the range after the samples (LOW: true) and the count towards LOW. -/
def pairStep (hold : Nat) (low : Bool) (cnt : Nat) (h l : Smp) : Bool × Nat :=
  if low then
    if (h.ok && !h.below 6 100) || !l.below 95 100 || !l.ok then (false, 0) else (true, 0)
  else if h.ok && h.below 5 100 && l.ok && l.below 95 100 then
    (if hold ≤ cnt + 1 then (true, 0) else (false, cnt + 1))
  else (false, 0)

/-- rnd32(v_h + (v_l − v_h) × j / (B + 1)) (R245). -/
def blendVal (vh vl j b : Nat) : Nat :=
  let v := fvAdd (fvMul (fdec f32 vh) (fvOfInt ((b + 1 - j : Nat) : Int))) (fvMul (fdec f32 vl) (fvOfInt (j : Int)))
  match v with
  | .fin s m e => fround f32 (s && decide (m ≠ 0)) m (b + 1) e
  | .nan => fnan f32
  | .inf s => finf f32 s

/-- The input words of channel `c` for the period: a value, or one more stale period (R24, R183, R200, R241). -/
def Dev.modWord (d : Dev) (c : Nat) (v : Option Nat) : Dev :=
  let n := match v with | some _ => 0 | none => min 65535 (d.getF (MOD_CH_ST_STALE c) + 1)
  let d := (d.setF (MOD_CH_ST_STALE c) n).setMwN (0x60920 + c) (fofInt f32 n)
  match v with
  | some x => d.setMwN (0x60900 + c) x
  | none => d

/-- The channel's own result: validity, over-range, last value (R241, R242). -/
def Dev.modOwn (d : Dev) (c : Nat) (s : Smp) : Dev :=
  let d := (d.setB (MOD_CH_ST_VALID c) s.ok).setMaskBit addr_MOD_VALID c s.ok
  if s.ok then
    let exceeds := fvLt (fvMul (fdec f32 (d.getF (MOD_CH_OR_LIM c))) (fvOfInt s.den)) (fvOfInt s.num.natAbs)
    let d := if exceeds && !d.bit (MOD_CH_ST_OVR c) then (d.evt MOD_EVT_OVR).bump MOD_OVR_CNT else d
    ((d.setB (MOD_CH_ST_OVR c) exceeds).setMaskBit addr_MOD_OVR c exceeds).wrN (addr_MOD_CH_VAL c) s.val
  else d

/-- The selected value of pair `p` (R244 to R246). -/
def Dev.modPairSel (d : Dev) (p : Nat) (h l : Smp) : Dev :=
  let x := d.modPair p
  let low := d.maskBit addr_MOD_RANGE p
  let r := pairStep (d.getF MOD_DRCFG_HOLD) low x.cnt h l
  let d := if r.1 = low then d else ((d.setMaskBit addr_MOD_RANGE p r.1).evt MOD_EVT_DR_SWITCH).bump MOD_DR_SW
  let b := d.getF MOD_DRCFG_BLEND
  let j := if r.1 then (if low then x.bl else 1) else 0
  let j := if j ≤ b then j else 0
  let d := d.setModPair p { x with cnt := r.2, bl := if j = 0 then 0 else j + 1 }
  let vh := if h.ok then h.val else d.getF (MOD_CH_VAL (2 * p))
  d.modWord (2 * p)
    (if r.1 then some (if j = 0 then l.val else blendVal vh l.val j b)
     else if h.ok then some h.val
     else if l.ok && l.below 95 100 then some l.val else none)

/-! ### Control samples at S(k) (R237 to R246) -/

/-- The capture edge of S(k) by count (R238); at S(0) the newest edge. -/
def Dev.modAlign (d : Dev) (prevLen capT : Nat) : Dev :=
  if !d.bit MOD_CTRL_ALIGN then d
  else
    let a := d.mod.acc + prevLen * d.getF MOD_FNOM
    let c0 := (List.range 32).foldl (fun m c => max m (d.modCh c).num) 0
    let c : Int := if d.per.k = 0 then (c0 : Int) else (d.mod.c : Int) + (a / 2 ^ 32 : Nat) + d.mod.corr1
    let d := { d with mod := { d.mod with c := c.toNat, acc := if d.per.k = 0 then 0 else a % 2 ^ 32,
                                          corr1 := d.mod.corr2, corr2 := 0 } }
    if d.drives then
      let dk : Int := (unitsOf125 d.per.sk : Int) - capT
      let f : Int := d.getF MOD_FREQ_KHZ
      let p : Int := 10 ^ 6 * 2 ^ 32
      let d := { d with mod := { d.mod with corr2 := if dk < 0 then -1 else if p ≤ dk * f ∧ f ≠ 0 then 1 else 0 } }
      let err := decide (2 * p < dk.natAbs * f)
      let d := d.setB MOD_STAT_ALIGN_ERR err
      if err then (d.evt MOD_EVT_ALIGN_ERR).bump MOD_ALIGN_ERR else d
    else d

/-- Edges by which the newest edge of a channel lies after c(k); none: c(k) has not been captured. -/
def Dev.modOfs (d : Dev) (c : Nat) : Option Nat :=
  if d.bit MOD_CTRL_ALIGN then (if d.mod.c ≤ (d.modCh c).num then some ((d.modCh c).num - d.mod.c) else none) else some 0

def Dev.ctlSample (d : Dev) (c : Nat) : Smp :=
  match d.modOfs c with
  | some o => d.sample c (d.getF (MOD_CH_CFG_OSR c)) o
  | none => { d.sample c (d.getF (MOD_CH_CFG_OSR c)) 0 with ok := false }

/-- One channel's control sample reaches its registers and words. -/
def Dev.modChan (d : Dev) (c : Nat) : Dev :=
  let pair := d.maskBit addr_MOD_DR (c / 2)
  if !d.bit (MOD_CH_CFG_EN c) then d
  else
    let s := d.ctlSample c
    let d := if pair && c % 2 = 0 then d.modPairSel (c / 2) s (d.ctlSample (c + 1)) else d.modWord c (if s.ok then some s.val else none)
    d.modOwn c s

/-- S(k): bits arrive up to c(k); every enabled channel gives its control sample. -/
def Dev.modSample (d : Dev) (caps : List Capture) (capT prevLen : Nat) : Dev :=
  let d := (d.captures caps).modAlign prevLen capT
  let e := edgeOf capT
  let d := if d.bit MOD_STAT_CLK_OK then (d.wrN addr_MOD_CAPT_LO (e % 2 ^ 32)).wrN addr_MOD_CAPT_HI (e / 2 ^ 32) else d
  forN 32 (fun c d => d.modChan c) d

/-! ### Metering samples (R243, R246) -/

/-- The metering sample of a channel at its newest edge. -/
def Dev.mtrSample (d : Dev) (c : Nat) : Smp := d.sample c (d.getF (MOD_CH_MCFG_MOSR c)) 0

/-- The metering sample of input `c`, taking its pair's range where `c` is the even channel of an enabled pair (R246). -/
def Dev.mtrInput (d : Dev) (c : Nat) : Smp :=
  let h := d.mtrSample c
  if c % 2 = 0 ∧ d.maskBit addr_MOD_DR (c / 2) then
    let l := d.mtrSample (c + 1)
    if (d.modPair (c / 2)).mLow then l
    else if h.ok then h else if l.ok && l.below 95 100 then l else h
  else h

/-- The metering ranges of the pairs move on by one sample (R246). -/
def Dev.mtrRanges (d : Dev) : Dev :=
  forN 16 (fun p d =>
    if d.maskBit addr_MOD_DR p then
      let x := d.modPair p
      let r := pairStep (d.getF MOD_DRCFG_HOLD) x.mLow x.mCnt (d.mtrSample (2 * p)) (d.mtrSample (2 * p + 1))
      d.setModPair p { x with mLow := r.1, mCnt := r.2 }
    else d) d

/-- Reading MOD_CAPT_LO latches MOD_CAPT_HI for the path (R260, R460). -/
def captLoRead (pn : Nat) (d : Dev) : Word × Dev :=
  (d.rd addr_MOD_CAPT_LO, d.setLatch pn addr_MOD_CAPT_HI (d.rd addr_MOD_CAPT_HI).toNat)

/-! ### SAR slices (R247 to R254) -/

def Dev.sarList (d : Dev) (o : Nat) : SarList := spGet {} d.sar.lists o
def Dev.setSarList (d : Dev) (o : Nat) (x : SarList) : Dev := { d with sar := { d.sar with lists := spSet {} d.sar.lists o x } }
def Dev.sarBusy (d : Dev) (x : Nat) : Option SarConv := spGet none d.sar.busy x

def Dev.setSarBusy (d : Dev) (x : Nat) (c : Option SarConv) : Dev :=
  { d with sar := { d.sar with busy := spSet none d.sar.busy x c } }.setB (SAR_SL_SST_BUSY x) c.isSome

/-- The slice that serves the lists and inputs of active slice `o` (R253, R254). -/
def Dev.sarServer (d : Dev) (o : Nat) : Nat := if d.getF SAR_STAT_SUB = o ∨ d.getF SAR_STAT_CAL = o then 4 else o

/-- The active slice whose lists slice `x` serves. -/
def Dev.sarOwner (d : Dev) (x : Nat) : Option Nat := (List.range 4).find? fun o => d.sarServer o = x

/-- The next trigger: S(k+1) while the control period runs, else the next whole multiple of TICK, or S(0) where it comes first
(R248). -/
def Dev.sarNext (d : Dev) : Nat :=
  if d.per.running then unitsOf125 (d.per.sk + d.per.len)
  else
    let tick := nsU (1000 * d.getF SAR_CTRL_TICK)
    let t := if tick = 0 then d.time else (d.time / tick + 1) * tick
    if d.per.started then min t (unitsOf125 d.per.sk) else t

/-- Entry `j` of a list register pair: input `4 bits` within the slice. -/
def listEntry (r0 r1 : Word) (j : Nat) : Nat := if j < 8 then fldGet (4 * j) 4 r0 else fldGet (4 * (j - 8)) 4 r1

/-- A conversion lasts 0.5 µs (R247). -/
def convLen : Nat := nsU 500

/-- Slice `x` chooses its next conversion at device time `t` (R249, R253). -/
def Dev.sarChoose (d : Dev) (x t : Nat) : Dev :=
  let start := fun (d : Dev) (k i : Nat) => d.setSarBusy x (some ⟨k, i, t + convLen⟩)
  let fits := decide (t + convLen < d.sarNext)
  if d.getF SAR_STAT_CAL = x then
    if fits then start d 3 (if d.sar.n0 ≤ d.sar.n1 then 0 else 1) else d.setSarBusy x none
  else match d.sarOwner x with
    | none => d.setSarBusy x none
    | some o =>
      let l := d.sarList o
      let bg := d.getF (SAR_SL_LEN_BGLEN o)
      if l.seq < d.getF (SAR_SL_LEN_SEQLEN o) then
        start (d.setSarList o { l with seq := l.seq + 1 }) 0
          (16 * o + listEntry (d.rd (addr_SAR_SL_SEQ0 o)) (d.rd (addr_SAR_SL_SEQ1 o)) l.seq)
      else if fits ∧ l.bgDone < bg then
        start (d.setSarList o { l with bgDone := l.bgDone + 1, bgPos := (l.bgPos + 1) % bg }) 1
          (16 * o + listEntry (d.rd (addr_SAR_SL_BG0 o)) (d.rd (addr_SAR_SL_BG1 o)) l.bgPos)
      else d.setSarBusy x none

/-- The slice whose window begins next, from the rotation A, B, C, D, E; FAILED slices are left out (R253, R254). -/
def Dev.calNext (d : Dev) : Option Nat :=
  ((List.range 5).map fun i => (d.sar.rot + i) % 5).find? fun x => d.getF SAR_STAT_FAILED / 2 ^ x % 2 = 0

/-- A calibration window begins (R253). -/
def Dev.calBegin (d : Dev) : Dev :=
  if !d.bit SAR_CTRL_CAL_EN ∨ d.getF SAR_STAT_CAL ≠ 7 ∨ d.getF SAR_STAT_SUB ≠ 7 then d
  else match d.calNext with
    | none => d
    | some x =>
      let d := { d with sar := { d.sar with win := 0, s0 := 0, n0 := 0, s1 := 0, n1 := 0, rot := (x + 1) % 5 } }
      (d.setF SAR_STAT_CAL x).setB (SAR_SL_SST_CAL x) true

/-- A trigger: staged coefficients and a takeover start, a window may begin, every idle slice chooses (R248, R249, R253, R254). -/
def Dev.sarTrigger (d : Dev) (t : Nat) : Dev :=
  let d := match d.sar.stage with
    | some (x, so, sg) => (d.wrN (addr_SAR_SL_SOFS x) so).wrN (addr_SAR_SL_SGAIN x) sg
    | none => d
  let d := match d.sar.subst with
    | some x => (d.setF SAR_STAT_SUB x).evt SAR_EVT_SUBST
    | none => d
  let d := { d with sar := { d.sar with stage := none, subst := none } }.calBegin
  let d := if d.getF SAR_STAT_CAL = 7 then d else { d with sar := { d.sar with win := d.sar.win + 1 } }
  let d := forN 4 (fun o d => d.setSarList o { d.sarList o with seq := 0, bgDone := 0 }) d
  forN 5 (fun x d => if (d.sarBusy x).isSome then d else d.sarChoose x t) d

/-- A TICK multiple: a trigger while the control period does not run (R248). -/
def sarTick (d : Dev) : Dev :=
  if d.per.running then d
  else
    let d := d.advanceTo d.sarNext
    d.sarTrigger d.time

/-- rnd32(GAIN × (code − SOFS / 256) × SGAIN / 65,536 + OFS) (R251). -/
def Dev.sarValue (d : Dev) (x s code : Nat) : Nat :=
  let c : Int := (code : Int) * 256 - toSigned 32 (d.getF (SAR_SL_SOFS x))
  let v := fvMul (fvMul (fdec f32 (d.getF (SAR_CH_GAIN s))) (.fin (decide (c < 0)) c.natAbs (-24)))
    (fdec f32 (d.getF (SAR_SL_SGAIN x)))
  let r := fvAdd v (fdec f32 (d.getF (SAR_CH_OFS s)))
  fenc f32 r

/-- A result reaches its registers and the input area (R251, R252); a standby's input words are mirrored. -/
def Dev.sarResult (d : Dev) (x s kind code : Nat) : Dev :=
  let v := d.sarValue x s code
  let d := ((((d.setF (SAR_CH_RES_KIND s) kind).setF (SAR_CH_RES_FAILED s) (d.getF SAR_STAT_FAILED / 2 ^ x % 2)).setF
    (SAR_CH_RES_SRC s) x).setF (SAR_CH_RES_CODE s) code).wrN (addr_SAR_CH_VAL s) v
  if !d.drives then d
  else if d.per.running ∧ !d.per.duePassed then d.setMwN (0x60940 + s) v
  else { d with sar := { d.sar with pend := spSet none d.sar.pend s (some v) } }

/-- Results that ended at or after TLM_DUE enter the input area at S(k+1) (R183, R252). -/
def Dev.sarPending (d : Dev) : Dev :=
  let w := if d.drives then d.sar.pend else []
  let d := w.foldl (fun d p => match p.2 with | some v => d.setMwN (0x60940 + p.1) v | none => d) d
  { d with sar := { d.sar with pend := [] } }

/-- A conversion of slice `x` ends with `code` (R252, R253). -/
def conversionEnd (x code : Nat) (d : Dev) : Dev :=
  match d.sarBusy x with
  | none => d
  | some c =>
    let d := d.advanceTo c.tEnd
    let code := code % 65536
    let d := if c.kind = 3 then
        (if c.inp = 0 then { d with sar := { d.sar with s0 := d.sar.s0 + code, n0 := d.sar.n0 + 1 } }
         else { d with sar := { d.sar with s1 := d.sar.s1 + code, n1 := d.sar.n1 + 1 } })
      else d.sarResult x c.inp c.kind code
    d.sarChoose x c.tEnd

/-- SAR_URG_STAT and the flags of a request (R250, R261). -/
def Dev.urgStat (d : Dev) (ain reason : Nat) : Dev :=
  let d := ((d.setF SAR_URG_STAT_AIN ain).setF SAR_URG_STAT_REASON reason).setB SAR_URG_STAT_ACCEPTED (decide (reason = 0))
  if reason = 0 then d else (d.evt SAR_EVT_URG_DROP).bump SAR_URG_DROP

/-- The effect of a write to SAR_URG (R250). -/
def urgEffect (v : Word) : WEff := fun d =>
  let s := fldGet 0 6 v
  let x := d.sarServer (s / 16)
  if (d.sarBusy x).isSome then (true, d.urgStat s 1)
  else if d.sarNext ≤ d.time + convLen then (true, d.urgStat s 2)
  else (true, (d.urgStat s 0).setSarBusy x (some ⟨2, s, d.time + convLen⟩))

/-- The new coefficients of R253 from the sums of the window: SOFS rounded to nearest, ties to even; SGAIN in binary32. `none`
where the calibration fails (R254). -/
def calCoefs (s0 n0 s1 n1 : Nat) : Option (Nat × Nat) :=
  if n0 = 0 ∨ n1 = 0 then none
  else
    let so := rneUp (qDiv (256 * s0) n0 0)
    let dd : Int := (s1 * n0 : Nat) - (s0 * n1 : Nat)
    if dd ≤ 0 then none
    else
      let sg := fround f32 false (61440 * n0 * n1) dd.toNat 0
      let g := fdec f32 sg
      if 64 * 256 < so ∨ fvLt (fvMul g (fvOfInt 100)) (fvOfInt 98) ∨ fvLt (fvOfInt 102) (fvMul g (fvOfInt 100)) then none
      else some (so, sg)

/-- A calibration window ends after 256 trigger intervals (R253, R254). -/
def calWindowEnd (d : Dev) : Dev :=
  let x := d.getF SAR_STAT_CAL
  if x = 7 ∨ d.sar.win < 256 then d
  else
    let d := ((d.setF SAR_STAT_CAL 7).setB (SAR_SL_SST_CAL x) false).setSarBusy x none
    let d := (d.evt SAR_EVT_CAL_DONE).bump SAR_CAL_WIN
    match calCoefs d.sar.s0 d.sar.n0 d.sar.s1 d.sar.n1 with
    | some (so, sg) => { d with sar := { d.sar with stage := some (x, so, sg) } }
    | none =>
      let d := (d.setF SAR_STAT_FAILED (Nat.lor (d.getF SAR_STAT_FAILED) (2 ^ x))).setB (SAR_SL_SST_FAILED x) true
      let d := ((d.evt SAR_EVT_CAL_FAIL).bump SAR_CAL_FAIL).logEvt 16 2 [x]
      if x < 4 ∧ d.bit SAR_CTRL_SUBST ∧ d.getF SAR_STAT_FAILED / 16 % 2 = 0 ∧ d.getF SAR_STAT_SUB = 7 then
        { d with sar := { d.sar with subst := some x } }
      else d

/-! ### Window comparators (R255 to R259) -/

def Dev.wcmOn (d : Dev) (n : Nat) : Bool := d.bit (WCM_CMP_CFG_EN n)

/-- The settle hold has ended (R257). -/
def Dev.wcmReady (d : Dev) (n : Nat) : Bool := d.wcmOn n && decide (d.wcm.settled / 2 ^ n % 2 = 1) && !d.wcm.anaLow

/-- The output (R255, R257): thresholds are code × 1.8 V / 1,024. -/
def Dev.wcmOut (d : Dev) (n : Nat) : Bool :=
  let lo := d.bit (WCM_CMP_CFG_LO_EN n)
  let hi := d.bit (WCM_CMP_CFG_HI_EN n)
  let v := spGet 0 d.wcm.vin n * 1024
  d.wcmOn n && (lo || hi) &&
    (!d.wcmReady n || (lo && decide (v < (d.getF (WCM_CMP_DAC_LO n) : Int) * 1800000000)) ||
      (hi && decide ((d.getF (WCM_CMP_DAC_HI n) : Int) * 1800000000 < v)))

/-- A comparator's status and output follow its inputs; an onset is recorded and the level goes to the trip matrix (R255, R259). -/
def Dev.wcmEval (d : Dev) (n : Nat) : Dev :=
  let r := d.wcmReady n
  let d := (d.setB (WCM_CMP_STAT_READY n) r).setMaskBit addr_WCM_READY n r
  let d := d.setB (WCM_CMP_STAT_STEPPING n) (decide (d.rd (addr_WCM_CMP_DAC n) ≠ d.rd (addr_WCM_CMP_THR n)))
  let o := d.wcmOut n
  if o = d.bit (WCM_CMP_STAT_LEVEL n) then d
  else
    let d := (d.setB (WCM_CMP_STAT_LEVEL n) o).setMaskBit addr_WCM_LEVEL n o
    let d := if o then ((d.setMaskBit addr_WCM_SEEN n true).evt WCM_EVT_SEEN).bump (WCM_ONSET n) else d
    d.setSource n o

/-- The voltage on a comparator's pin, or the VDD_ANA monitor, changes (R255, R257). -/
def comparatorOutput (n : Nat) (nv : Int) (anaLow : Bool) (d : Dev) : Dev :=
  let d := { d with wcm := { d.wcm with vin := spSet 0 d.wcm.vin n nv, anaLow := anaLow } }
  forN 24 (fun i d => d.wcmEval i) d

/-- The settle hold of comparator `n` ends (R257). -/
def settleEnd (n : Nat) (d : Dev) : Dev :=
  if d.wcmOn n then { d with wcm := { d.wcm with settled := Nat.lor d.wcm.settled (2 ^ n) } }.wcmEval n else d

/-- A refused threshold write is counted (R258). -/
def thrRefused (d : Dev) : Dev := (d.evt WCM_EVT_THR_REFUSED).bump WCM_THR_REFUSED

/-- The effect of a write to WCM_THR (R258). -/
def wcmThrEffect (n : Nat) (v : Word) : WEff := fun d =>
  if d.bit (WCM_CMP_CFG_LO_EN n) && d.bit (WCM_CMP_CFG_HI_EN n) && decide (fldGet 16 10 v < fldGet 0 10 v) then (false, thrRefused d)
  else (true, ((d.setF (WCM_CMP_THR_HI n) (fldGet 16 10 v)).setF (WCM_CMP_THR_LO n) (fldGet 0 10 v)).wcmEval n)

/-- One code nearer. -/
def stepTo (cur tgt : Nat) : Nat := if cur < tgt then cur + 1 else if tgt < cur then cur - 1 else cur

/-- 250 ns: each DAC of the comparator takes one step (R258). -/
def dacStep (n : Nat) (d : Dev) : Dev :=
  let d := d.setF (WCM_CMP_DAC_HI n) (stepTo (d.getF (WCM_CMP_DAC_HI n)) (d.getF (WCM_CMP_THR_HI n)))
  (d.setF (WCM_CMP_DAC_LO n) (stepTo (d.getF (WCM_CMP_DAC_LO n)) (d.getF (WCM_CMP_THR_LO n)))).wcmEval n

/-! ### The configuration image reaches the measurement inputs (R244, R257, R258) -/

/-- The modulator inputs start: MCLK runs in INT mode, every pair in HIGH. -/
def Dev.modStart (d : Dev) : Dev := { d with mod := {} }.modClk.wrN addr_MOD_RANGE 0

/-- The comparators start: every DAC at its threshold, enabled comparators held active. -/
def Dev.wcmStart (d : Dev) : Dev :=
  forN 24 (fun n d => (d.wr (addr_WCM_CMP_DAC n) (d.rd (addr_WCM_CMP_THR n))).wcmEval n)
    { d with wcm := { d.wcm with settled := 0 } }

/-- After the image. -/
def Dev.acqApplied (d : Dev) : Dev := d.modStart.wcmStart

/-! ### The commands -/

/-- MCLK_FAULT (R236). -/
def execMclkFault (s : State) : Host.Outcome State Fault Refusal := .next (s.onDev mclkGap)

/-- MCKI_FREQ_MEASURE (R236). -/
def execMckiFreqMeasure (khz : Nat) (s : State) : Host.Outcome State Fault Refusal := .next (s.onDev (mckiMeasure khz))

/-- SAR_TICK (R248). -/
def execSarTick (s : State) : Host.Outcome State Fault Refusal := .next (s.onDev sarTick)

/-- CONVERSION_END (R252, R253). -/
def execConversionEnd (x code : Nat) (s : State) : Host.Outcome State Fault Refusal :=
  .next (s.inst (decide (x < 5)) fun s => s.onDev (conversionEnd x code))

/-- SAR_URG (R250). -/
def execSarUrg (p : Path) (v : Word) (s : State) : Host.Outcome State Fault Refusal :=
  .next (s.writeRow p addr_SAR_URG v (fun d => d.urgStat (fldGet 0 6 v) 3) (urgEffect v))

/-- CAL_WINDOW_END (R253, R254). -/
def execCalWindowEnd (s : State) : Host.Outcome State Fault Refusal := .next (s.onDev calWindowEnd)

/-- COMPARATOR_OUTPUT (R255, R259). -/
def execComparatorOutput (n : Nat) (nv : Int) (anaLow : Bool) (s : State) : Host.Outcome State Fault Refusal :=
  .next (s.inst (decide (n < 24)) fun s => s.onDev (comparatorOutput n nv anaLow))

/-- SETTLE_END (R257). -/
def execSettleEnd (n : Nat) (s : State) : Host.Outcome State Fault Refusal :=
  .next (s.inst (decide (n < 24)) fun s => s.onDev (settleEnd n))

/-- WCM_THR_WRITE (R258). -/
def execWcmThrWrite (p : Path) (n : Nat) (v : Word) (s : State) : Host.Outcome State Fault Refusal :=
  .next (s.inst (decide (n < 24)) fun s => s.writeRow p (addr_WCM_CMP_THR n) v thrRefused (wcmThrEffect n v))

/-- DAC_STEP (R258). -/
def execDacStep (n : Nat) (s : State) : Host.Outcome State Fault Refusal :=
  .next (s.inst (decide (n < 24)) fun s => s.onDev (dacStep n))

end Sys2Proof.Machine
end

