-- ==== Sys2Proof/Machine/Metering.lean ====
section
/-! DEFINITION. Energy and quantity metering (spec/11_metering.md). Sums are formed in binary64, one rounding for each operation, in
the order the formulas are written (log entry 30). -/

namespace Sys2Proof.Machine

def Dev.mtrPt (d : Dev) (m : Nat) : MtrPt := spGet {} d.mtr.pts m
def Dev.setMtrPt (d : Dev) (m : Nat) (x : MtrPt) : Dev := { d with mtr := { d.mtr with pts := spSet {} d.mtr.pts m x } }
def Dev.setDem (d : Dev) (m : Nat) (f : MtrDem → MtrDem) : Dev := let x := d.mtrPt m; d.setMtrPt m { x with dem := f x.dem }

def Dev.mtrRuns (d : Dev) (m : Nat) : Bool := d.maskBit addr_MTR_STAT m

/-- Kind DC (R298). -/
def Dev.mtrDc (d : Dev) (m : Nat) : Bool := d.getF (MTR_PT_CFG_KIND m) = 2

/-- Elements of a point (R298). -/
def Dev.mtrEls (d : Dev) (m : Nat) : Nat := if d.getF (MTR_PT_CFG_KIND m) = 0 then 3 else 1

/-- Samples per second (R299). -/
def Dev.mtrRate (d : Dev) (m : Nat) : Nat :=
  if !d.bit (MTR_PT_CFG_SRC m) then 16000
  else if d.bit (SVX_SUB_CFG_RATE (d.getF (SVX_SLOT_CFG_STREAM (d.getF (MTR_PT_CH_VSRC m 0))))) then 14400 else 4800

/-- The fallback interval of R304, in 2^-32 ns. -/
def Dev.mtrFbLen (d : Dev) (m : Nat) : Nat := nsU (if d.bit (MTR_PT_CFG_FNOM m) then 16666667 else 20000000)

def secU : Nat := nsU (10 ^ 9)

def f64pos (x : Nat) : Bool := fvLt fvZero (fdec f64 x)
def f64negv (x : Nat) : Bool := fvLt (fdec f64 x) fvZero
def fsum (l : List Nat) : Nat := l.foldl (fadd f64) 0

/-! ### Energy registers and pulses (R309 to R312, R318, R319) -/

/-- One pulse output takes `n` counts of its register. -/
def Dev.pulseCount (d : Dev) (q n : Nat) : Dev :=
  let x := spGet {} d.mtr.pulses q
  let k := max 1 (d.getF (MTR_MP_CFG_K q))
  let due := (x.sub + n) / k
  let lst := if due = 0 then x.due else (d.time, due) :: x.due
  let d := { d with mtr := { d.mtr with pulses := spSet {} d.mtr.pulses q { sub := (x.sub + n) % k, due := lst } } }
  let b := d.getF (MTR_MP_ST_BKLG q)
  let lost := b + due - 65535
  let d := d.setF (MTR_MP_ST_BKLG q) (min 65535 (b + due))
  if lost = 0 then d
  else
    let d := (d.bumpBy MTR_PULSE_LOST lost).evt MTR_EVT_BKLG_SAT
    if d.bit (MTR_MP_ST_SAT q) then d else (d.setF (MTR_MP_ST_SAT q) 1).logEvt 20 6 []

/-- The registers show V and W; the pulse outputs of register `r` take the counts that V has advanced. -/
def Dev.eShow (d : Dev) (r : Nat) (e : EReg) : Dev :=
  let d := { d with mtr := { d.mtr with regs := spSet {} d.mtr.regs r e } }
  (d.wrN (addr_MTR_E_ELO r) (e.v % 2 ^ 32)).wrN (addr_MTR_E_EHI r) (e.w * 65536 + e.v / 2 ^ 32)

/-- The whole units of a residue, and what remains of it (R310). -/
def wholeUnits (r : Nat) : Int × Nat :=
  let v := fdec f64 r
  match fvFloor (fvAbs v) 0 with
  | none => (0, r)
  | some n =>
    let k : Int := if fvLt v fvZero then -n else n
    (k, if k = 0 then r else fenc f64 (fvAdd v (fvOfInt (-k))))

/-- Energy `x` (binary64, in J, var·s or VA·s) goes into register `r` (R310, R312). -/
def Dev.eAdd (d : Dev) (r x : Nat) : Dev :=
  let e := spGet {} d.mtr.regs r
  let unit := 10 ^ d.getF (MTR_E_ECFG_UNIT r)
  let k := wholeUnits (fadd f64 e.r (fdiv f64 x (fofInt f64 (3600 * unit : Nat))))
  let m : Int := 10 ^ 12
  let t : Int := (e.v : Int) + k.1
  let dw := t / m
  let net := d.getF (MTR_E_ECFG_MODE r) = 0
  let w0 : Int := if net then toSigned 16 e.w else e.w
  let w1 := w0 + dw
  let wraps := decide (if net then w1 < -32768 ∨ 32767 < w1 else 65535 < w1)
  let d := d.eShow r ⟨(t % m).toNat, (w1 % 65536).toNat, k.2⟩
  let d := if wraps then ((d.evt MTR_EVT_WC_WRAP).bump MTR_WC_WRAP).logEvt 20 5 [r] else d
  if 0 < k.1 then
    forN 4 (fun q d => if d.bit (MTR_MP_CFG_EN q) ∧ d.getF (MTR_MP_CFG_REG q) = r then d.pulseCount q k.1.toNat else d) d
  else d

/-- The amount of R309 for quantity `qty` and mode `mode` from E_P, E_Q, E_S. -/
def eAmount (qty mode p q s : Nat) : Option Nat :=
  let route := fun x => if mode = 0 then some x else if mode = 1 then (if f64pos x then some x else none)
    else if f64negv x then some (fneg f64 x) else none
  let quad := fun (pNeg qNeg : Bool) =>
    if f64negv p = pNeg ∧ (if qNeg then f64negv q else f64pos q) then some (if qNeg then fneg f64 q else q) else none
  match qty with
  | 0 => route p
  | 1 => route q
  | 2 => some s
  | 3 => quad false false
  | 4 => quad true false
  | 5 => quad true true
  | 6 => quad false true
  | _ => none

/-! ### Demand (R315 to R317) -/

/-- A demand field of R316 takes energy `x` in the direction of its sign: fields `i` (import) and `i + 1` (export). -/
def MtrDem.add (x : MtrDem) (unit i e : Nat) : MtrDem :=
  if !f64pos e ∧ !f64negv e then x
  else
    let j := if f64pos e then i else i + 1
    let a := if f64pos e then e else fneg f64 e
    let k := wholeUnits (fadd f64 (x.res.getD j 0) (fdiv f64 a (fofInt f64 (3600 * unit : Nat))))
    { x with cnt := x.cnt.set j ((x.cnt.getD j 0 + k.1.toNat) % 2 ^ 32), res := x.res.set j k.2 }

/-- The first aligned second after `s` (R315). -/
def demNext (len ofs s : Nat) : Nat :=
  let l := 60 * max 1 len
  s + (l - (s + l - ofs % l) % l)

def Dev.demUnit (d : Dev) (m : Nat) : Nat := 10 ^ d.getF (MTR_DEM_CFG_UNIT m)

/-- The open interval of a point closes; a new one opens at second `s` (R316, R317). -/
def Dev.demClose (d : Dev) (m s : Nat) (step part : Bool) : Dev :=
  let x := (d.mtrPt m).dem
  let d := ((((((d.setF (MTR_DEM_HDR_SEQ m) (d.getF (MTR_DEM_HDR_SEQ m) + 1)).setB (MTR_DEM_HDR_INVALID m) x.inv).setB
    (MTR_DEM_HDR_LOSS_V m) x.lossV).setB (MTR_DEM_HDR_NOGLOBAL m) x.nog).setB (MTR_DEM_HDR_STEP m) step).setB
    (MTR_DEM_HDR_PARTIAL m) (x.partly || step)).setF (MTR_DEM_HDR_VALID m) 1
  let d := ((((d.wrN (addr_MTR_DEM_START m) (x.start % 2 ^ 32)).wrN (addr_MTR_DEM_PIMP m) (x.cnt.getD 0 0)).wrN
    (addr_MTR_DEM_PEXP m) (x.cnt.getD 1 0)).wrN (addr_MTR_DEM_QIMP m) (x.cnt.getD 2 0)).wrN (addr_MTR_DEM_QEXP m) (x.cnt.getD 3 0)
  let d := (d.setF (MTR_DEM_REV_N m) x.rev).evt MTR_EVT_DEM_CLOSE
  d.setDem m fun x => { res := x.res, start := s, partly := part, nog := !d.tbsGlobal, lossV := d.getF (MTR_PT_ZST_LOSS m) ≠ 0 }

/-! ### Energy samples (R304, R306 to R309) -/

/-- One energy sample of point `m`: (E_P, E_Q, E_S) of each element and of the total reach the registers and the demand. -/
def Dev.energySample (d : Dev) (m : Nat) (els : List (Nat × Nat × Nat)) (tot : Nat × Nat × Nat) : Dev :=
  let d := forN 32 (fun r d =>
    if d.bit (MTR_E_ECFG_EN r) ∧ d.getF (MTR_E_ECFG_POINT r) = m then
      let ph := d.getF (MTR_E_ECFG_PHASE r)
      let e := if ph = 3 then tot else els.getD ph (0, 0, 0)
      match eAmount (d.getF (MTR_E_ECFG_QTY r)) (d.getF (MTR_E_ECFG_MODE r)) e.1 e.2.1 e.2.2 with
      | some x => d.eAdd r x
      | none => d
    else d) d
  let x := d.mtrPt m
  let p := tot.1
  let nz := f64pos p || f64negv p
  let rev := nz && decide (x.sign = some (!f64negv p))
  let u := d.demUnit m
  let dem := (x.dem.add u 0 p).add u 2 tot.2.1
  let dem := if rev then { dem with rev := min 65535 (dem.rev + 1) } else dem
  d.setMtrPt m { x with dem := dem, sign := if nz then some (f64negv p) else x.sign }

/-- i′ of R301 at a sample, from the current before it and after it. -/
def phaseComp (phc prev cur next : Nat) : Nat :=
  let p := toSigned 9 phc
  let pf := fofScaled f64 p (-8)
  if 0 ≤ p then fadd f64 cur (fmul f64 pf (fsub f64 prev cur)) else fsub f64 cur (fmul f64 pf (fsub f64 next cur))

def MtrSamp.v (s : MtrSamp) (e : Nat) : Nat := (s.els.getD e (0, 0, false)).1
def MtrSamp.i (s : MtrSamp) (e : Nat) : Nat := (s.els.getD e (0, 0, false)).2.1

/-- v at time `tau` by linear interpolation over samples newest first; 0 where no sample lies before it (R306). -/
def quarterV (e tau : Nat) (after : MtrSamp) (l : List MtrSamp) : Nat :=
  match l with
  | [] => 0
  | a :: t =>
    if a.t ≤ tau then
      fadd f64 (a.v e) (fmul f64 (fsub f64 (after.v e) (a.v e))
        (fdiv f64 (fofInt f64 ((tau - a.t : Nat) : Int)) (fofInt f64 ((after.t - a.t : Nat) : Int))))
    else quarterV e tau a t

/-- v at `tau` with the newest sample at the head. -/
def vAt (e tau : Nat) (l : List MtrSamp) : Nat :=
  match l with
  | [] => 0
  | a :: t => if a.t ≤ tau then a.v e else quarterV e tau a t

/-- The terms of each sample of a cycle for one element, newest first: (v, i′, v_d). `l` holds the cycle's samples and, after them, the
older ones; `next` is the sample after the head. -/
def cycTerms (e phc q : Nat) (n : Nat) (next : Option MtrSamp) (l : List MtrSamp) : List (Nat × Nat × Nat) :=
  match n, l with
  | 0, _ => []
  | _ + 1, [] => []
  | n + 1, s :: t =>
    let prev := ((t.head?).map (·.i e)).getD 0
    let nx := (next.map (·.i e)).getD 0
    (s.v e, phaseComp phc prev (s.i e) nx, vAt e (s.t - q) (s :: t)) :: cycTerms e phc q n (some s) t

/-- The sums of one element over a cycle (R306, R307): Σv², Σi′², E_P, E_Q, E_S. -/
def Dev.cycleEl (d : Dev) (m e : Nat) (n : Nat) (next : Option MtrSamp) (l : List MtrSamp) : List Nat :=
  let ts := (cycTerms e (d.getF (MTR_PT_CH_PHC m e)) ((d.mtrPt m).tr / 4) n next l).reverse
  let dt := fdiv f64 (fofInt f64 1) (fofInt f64 (d.mtrRate m : Nat))
  let vv := fsum (ts.map fun x => fmul f64 x.1 x.1)
  let ii := fsum (ts.map fun x => fmul f64 x.2.1 x.2.1)
  let p := fmul f64 dt (fsum (ts.map fun x => fmul f64 x.1 x.2.1))
  let q := fmul f64 dt (fsum (ts.map fun x => fmul f64 x.2.2 x.2.1))
  let nf := fofInt f64 (n : Nat)
  let rms := fun s => if n = 0 then 0 else fsqrt f64 (fdiv f64 s nf)
  let s := fmul f64 (fmul f64 (fmul f64 nf dt) (rms vv)) (rms ii)
  if fvLt (fdec f64 (rms ii)) (fdec f32 (d.getF (MTR_PT_ISTART m))) then [vv, ii, 0, 0, 0] else [vv, ii, p, q, s]

/-- Sum of two lists of binary64, item by item. -/
def addLists (a b : List Nat) : List Nat := (List.range (max a.length b.length)).map fun i => fadd f64 (a.getD i 0) (b.getD i 0)

/-- A report window ends (R308); `fr` is the frequency in binary32. -/
def Dev.winClose (d : Dev) (m fr : Nat) : Dev :=
  let w := (d.mtrPt m).win
  let nf := fofInt f64 (w.n : Nat)
  let dur := fdiv f64 nf (fofInt f64 (d.mtrRate m : Nat))
  let rms := fun s => f64to32 (fsqrt f64 (fdiv f64 s nf))
  let pw := fun e => fdiv f64 e dur
  let pf := fun p s => if fvCmp (fdec f64 s) fvZero = some .eq then 0 else f64to32 (fdiv f64 p s)
  let word := fun (d : Dev) (k q v : Nat) => d.wrN (addr_MTR_RES0 m 0 + 32 * k + 4 * q) v
  let d := forN 3 (fun e d =>
    match w.els[e]? with
    | none => forN 6 (fun q d => word d e q 0) d
    | some l =>
      let g := fun i => l.getD i 0
      word (word (word (word (word (word d e 0 (rms (g 0))) e 1 (rms (g 1))) e 2 (f64to32 (pw (g 2)))) e 3 (f64to32 (pw (g 3))))
        e 4 (f64to32 (pw (g 4)))) e 5 (pf (pw (g 2)) (pw (g 4)))) d
  let g := fun i => w.tot.getD i 0
  let d := word (word (word (word (word (word d 3 0 0) 3 1 0) 3 2 (f64to32 (pw (g 0)))) 3 3 (f64to32 (pw (g 1))))
    3 4 (f64to32 (pw (g 2)))) 3 5 (pf (pw (g 0)) (pw (g 2)))
  let d := (d.wrN (addr_MTR_PT_FREQ m) fr).setF (MTR_PT_RSEQ_SEQ m) (d.getF (MTR_PT_RSEQ_SEQ m) + 1)
  let x := d.mtrPt m
  d.setMtrPt m { x with win := { zFirst := x.start } }

/-- One energy sample joins the report window: sums of each element, of the total, samples. -/
def Dev.winAdd (d : Dev) (m n : Nat) (els : List (List Nat)) (tot : List Nat) (fb : Bool) : Dev :=
  let x := d.mtrPt m
  let w := x.win
  d.setMtrPt m { x with win := { w with
    n := w.n + n, cyc := w.cyc + 1, fb := w.fb || fb, tot := addLists w.tot tot,
    els := (List.range els.length).map fun e => addLists (w.els.getD e []) (els.getD e []) } }

/-- The cycle in progress of an AC point ends at boundary `b`, a crossing or (`fb`) a fallback boundary; `r` is the reference phase
whose cycle length the next cycle takes (R304, R306, R308). -/
def Dev.closeCycle (d : Dev) (m b : Nat) (fb : Bool) : Dev :=
  let x := d.mtrPt m
  let keep := x.buf.takeWhile fun s => decide (b ≤ s.t)
  let cyc := x.buf.drop keep.length
  let hist := cyc ++ x.old
  let els := (List.range (d.mtrEls m)).map fun e => d.cycleEl m e cyc.length keep.getLast? hist
  let es := els.map fun l => (l.getD 2 0, l.getD 3 0, l.getD 4 0)
  let tot := (fsum (es.map (·.1)), fsum (es.map (·.2.1)), fsum (es.map (·.2.2)))
  let d := (d.energySample m es tot).winAdd m cyc.length els [tot.1, tot.2.1, tot.2.2] (fb || x.sFb)
  let x := d.mtrPt m
  let r := d.getF (MTR_PT_ZST_REF m)
  let tr := if fb then d.mtrFbLen m else (((x.els.getD r {}).len).getD (d.mtrFbLen m))
  let d := d.setMtrPt m { x with buf := keep, old := hist.take 4100, start := b, tr := tr, sFb := fb }
  let w := (d.mtrPt m).win
  if w.cyc < d.getF (MTR_PT_CFG_NCYC m) then d
  else if w.fb then d.winClose m 0
  else if w.noZ ∨ b ≤ w.zFirst then
    let g := d.free (2 ^ 32)
    g.2.winClose m g.1
  else d.winClose m (fround f32 false (d.getF (MTR_PT_CFG_NCYC m) * secU) (b - w.zFirst) 0)

/-- One sample of a DC point is an energy sample (R301, R304, R306 to R308). -/
def Dev.dcSample (d : Dev) (m : Nat) (s : MtrSamp) (prev next : Nat) : Dev :=
  let i := phaseComp (d.getF (MTR_PT_CH_PHC m 0)) prev (s.i 0) next
  let v := s.v 0
  let dt := fdiv f64 (fofInt f64 1) (fofInt f64 (d.mtrRate m : Nat))
  let below := fvLt (fvAbs (fdec f64 i)) (fdec f32 (d.getF (MTR_PT_ISTART m)))
  let p := if below then 0 else fmul f64 (fmul f64 dt v) i
  let a := fenc f64 (fvAbs (fdec f64 p))
  let d := (d.energySample m [(p, 0, a)] (p, 0, a)).winAdd m 1 [[fmul f64 v v, fmul f64 i i, p, 0, a]] [p, 0, a] false
  let w := (d.mtrPt m).win
  let f := if d.bit (MTR_PT_CFG_FNOM m) then 60 else 50
  if d.getF (MTR_PT_CFG_NCYC m) * d.mtrRate m ≤ w.n * f then d.winClose m 0 else d

/-! ### Zero crossings (R302, R303) -/

/-- The candidate time of R302 between two samples, to 2^-32 ns. -/
def crossTime (rate t1 v1 v2 : Nat) : Nat :=
  match fdec f64 v1, fvAdd (fdec f64 v2) (fvNeg (fdec f64 v1)) with
  | .fin _ a e, .fin _ b g => if b = 0 then t1 else t1 + rneUp (qDiv (a * secU) (b * rate) (e - g))
  | _, _ => t1

/-- One valid voltage sample reaches the detector: the detector after it, and the crossing it confirms (R302). -/
def MtrEl.feed (x : MtrEl) (rate t v h : Nat) : MtrEl × Option Nat :=
  let vv := fdec f64 v
  let hv := fdec f32 h
  let x' := { x with last := some (t, v) }
  let low := fvLe vv (fvNeg hv)
  if !x.armed then ({ x' with armed := low, cand := none }, none)
  else if low ∧ !fvLe fvZero vv then ({ x' with cand := none }, none)
  else
    let cand := match x.cand with
      | some z => some z
      | none => if fvLe fvZero vv then
          (match x.last with | some p => some (crossTime rate p.1 p.2 v) | none => some t) else none
    match cand with
    | some z =>
      if fvLe hv vv then
        ({ x' with armed := false, cand := none, conf := some z, len := x.conf.map fun c => z - c }, some z)
      else ({ x' with cand := some z }, none)
    | none => ({ x' with cand := none }, none)

def Dev.allLoss (d : Dev) (m : Nat) : Bool := d.getF (MTR_PT_ZST_LOSS m) = 2 ^ d.mtrEls m - 1

/-- ZST and STAT follow the losses (R303, R304). -/
def Dev.lossShow (d : Dev) (m loss : Nat) : Dev :=
  let d := d.setF (MTR_PT_ZST_LOSS m) loss
  let d := match (List.range (d.mtrEls m)).find? fun e => loss / 2 ^ e % 2 = 0 with
    | some r => d.setF (MTR_PT_ZST_REF m) r
    | none => d
  let a := d.allLoss m
  let d := (d.setB (MTR_PT_ZST_FALLBACK m) a).setF MTR_STAT_LOSS_ALL (fldPut m 1 (b2n a) (BitVec.ofNat 32 (d.getF MTR_STAT_LOSS_ALL))).toNat
  let x := d.mtrPt m
  d.setMtrPt m { x with fbN := if a then x.fbN else 0 }

/-- A confirmed crossing of element `e` at `z` with the length since the one before: a loss may end; a crossing of the reference is a
boundary (R303, R304). -/
def Dev.crossing (d : Dev) (m e z : Nat) (len : Option Nat) : Dev :=
  let loss := d.getF (MTR_PT_ZST_LOSS m)
  let back := decide (loss / 2 ^ e % 2 = 1) && (match len with
    | some l => decide (l ≤ nsU (10 ^ 6 * d.getF (MTR_PT_CFG_ZTO m)))
    | none => false)
  let d := if back then ((d.lossShow m (loss - 2 ^ e)).evt MTR_EVT_VOLT_RET).logEvt 20 2 [] else d
  if !d.allLoss m ∧ d.getF (MTR_PT_ZST_REF m) = e ∧ d.getF (MTR_PT_ZST_LOSS m) / 2 ^ e % 2 = 0 ∧ (d.mtrPt m).start < z then
    d.closeCycle m z false
  else d

/-- Fallback boundaries that a sample has reached end their cycles (R304). -/
def Dev.fbDrain (d : Dev) (m : Nat) : Nat → Dev
  | 0 => d
  | n + 1 =>
    let x := d.mtrPt m
    let b := x.start + d.mtrFbLen m
    match x.buf with
    | s :: _ => if 0 < x.fbN ∧ b ≤ s.t then ((d.setMtrPt m { x with fbN := x.fbN - 1 }).closeCycle m b true).fbDrain m n else d
    | [] => d

/-! ### Samples reach a point (R299, R300, R305) -/

/-- One sample of point `m`: per element validity and value (binary32) of voltage and current. -/
def Dev.mtrFeed (d : Dev) (m t : Nat) (els : List ((Bool × Nat) × (Bool × Nat))) : Dev :=
  let bad := (els.map fun e => b2n (!e.1.1) + b2n (!e.2.1)).sum
  let d := if bad = 0 then d
    else (((d.bumpBy MTR_INV_SAMP bad).evt MTR_EVT_INV_SAMP).setDem m fun x => { x with inv := true })
  let neg := d.bit (MTR_PT_CFG_DIR m)
  let s : MtrSamp := ⟨t, els.map fun e =>
    (if e.1.1 then f32to64 e.1.2 else 0, if e.2.1 then (if neg then fneg f64 (f32to64 e.2.2) else f32to64 e.2.2) else 0, e.1.1)⟩
  let x := d.mtrPt m
  if d.mtrDc m then
    let late := decide (toSigned 9 (d.getF (MTR_PT_CH_PHC m 0)) < 0)
    let d := d.setMtrPt m { x with old := (s :: x.old).take 3 }
    if late then
      match x.old with
      | [] => d
      | p :: r => d.dcSample m p (((r.head?).map (·.i 0)).getD 0) (s.i 0)
    else d.dcSample m s (((x.old.head?).map (·.i 0)).getD 0) 0
  else
    let d := d.setMtrPt m { x with buf := s :: x.buf }
    let d := forN (d.mtrEls m) (fun e d =>
      let q := s.els.getD e (0, 0, false)
      if !q.2.2 then d
      else
        let x := d.mtrPt m
        let r := (x.els.getD e {}).feed (d.mtrRate m) t q.1 (d.getF (MTR_PT_ZHYS m))
        let d := d.setMtrPt m { x with els := (List.range 3).map fun i => if i = e then r.1 else x.els.getD i {} }
        match r.2 with
        | some z => d.crossing m e z r.1.len
        | none => d) d
    d.fbDrain m (d.mtrPt m).fbN

/-- The metering samples of a point fed from the modulators (R243, R246, R299). -/
def Dev.mtrModSample (d : Dev) (m : Nat) : Dev :=
  let els := (List.range (d.mtrEls m)).map fun e =>
    let v := d.mtrInput (d.getF (MTR_PT_CH_VSRC m e))
    let i := d.mtrInput (d.getF (MTR_PT_CH_ISRC m e))
    ((v.ok, v.val), (i.ok, i.val), v.t)
  d.mtrFeed m ((els.map (·.2.2)).headD 0) (els.map fun x => (x.1, x.2.1))

/-- Nominal instant of sample `j` of a stream, in 2^-32 ns (R329, R338). -/
def svInstant (rate j : Nat) : Nat := j / rate * secU + j % rate * secU / rate

/-- Samples of a point fed from a stream that are missing before sample `j` (R338). -/
def Dev.mtrGap (d : Dev) (m j : Nat) : Dev :=
  let x := d.mtrPt m
  let rate := d.mtrRate m
  let bad := List.replicate (d.mtrEls m) ((false, 0), (false, 0))
  let d := forN (j - x.nextJ) (fun i d => d.mtrFeed m (svInstant rate (x.nextJ + i)) bad) d
  d.setMtrPt m { d.mtrPt m with nextJ := max j x.nextJ }

/-- The accepted sample `j` of the point's stream (R338). -/
def Dev.mtrSvSample (d : Dev) (m j : Nat) (els : List ((Bool × Nat) × (Bool × Nat))) : Dev :=
  if j < (d.mtrPt m).nextJ then d
  else
    let d := (d.mtrGap m j).mtrFeed m (svInstant (d.mtrRate m) j) els
    d.setMtrPt m { d.mtrPt m with nextJ := j + 1 }

/-- The stream of a point with SRC = 1. -/
def Dev.mtrStream (d : Dev) (m : Nat) : Nat := d.getF (SVX_SLOT_CFG_STREAM (d.getF (MTR_PT_CH_VSRC m 0)))

/-- A metering instant: samples of the points on modulators; of a point whose stream is not VALID, the instants older than TMO have
no sample (R243, R338). -/
def meteringSample (caps : List Capture) (d : Dev) : Dev :=
  let d := (d.captures caps).mtrRanges
  forN 2 (fun m d =>
    if !d.mtrRuns m then d
    else if !d.bit (MTR_PT_CFG_SRC m) then d.mtrModSample m
    else
      let u := d.mtrStream m
      let lim := d.time - nsU (1000 * d.getF (SVX_SUB_TMO_US u))
      if d.getF (SVX_SUB_ST_STATE u) = 2 then d else d.mtrGap m (lim * d.mtrRate m / secU)) d

/-! ### Loss of voltage, clears, demand, pulses, saving -/

/-- Element `e` has had no confirmed crossing for ZTO ms (R303). -/
def lossOfVoltage (m e : Nat) (d : Dev) : Dev :=
  let loss := d.getF (MTR_PT_ZST_LOSS m)
  if d.mtrRuns m ∧ !d.mtrDc m ∧ e < d.mtrEls m ∧ loss / 2 ^ e % 2 = 0 then
    let d := ((d.lossShow m (loss + 2 ^ e)).evt MTR_EVT_LOSS_V).bump MTR_LOSS_V
    (d.setDem m fun x => { x with lossV := true }).logEvt 20 1 []
  else d

/-- A fallback boundary of point `m` passes (R304). -/
def fallbackBoundary (m : Nat) (d : Dev) : Dev :=
  if d.mtrRuns m ∧ !d.mtrDc m ∧ d.bit (MTR_PT_ZST_FALLBACK m) then
    let x := d.mtrPt m
    let d := d.setMtrPt m { x with fbN := x.fbN + 1 }
    d.fbDrain m (x.fbN + 1)
  else d

/-- The effect of a write to MTR_ECLR (R314). -/
def eclrEffect (v : Word) : WEff := fun d =>
  (true, forN 32 (fun r d =>
    if v.toNat / 2 ^ r % 2 = 1 then
      let e := spGet {} d.mtr.regs r
      (((d.logEvt 20 0 (words64 e.v ++ [e.w])).eShow r {}).evt MTR_EVT_CLEARED).bump MTR_CLEARS
    else d) d)

/-- The end of a demand interval (R315, R317). -/
def demandClose (m : Nat) (d : Dev) : Dev :=
  if d.mtrRuns m then
    d.demClose m (demNext (d.getF (MTR_DEM_CFG_LEN m)) (d.getF (MTR_DEM_CFG_OFS m)) (d.mtrPt m).dem.start) false false
  else d

/-- The width of a pulse in ms from the pulses due in the last 1,000 ms (R318). -/
def pulseWidth (n width : Nat) : Nat :=
  if n = 0 then width else if 2 * width ≤ 1000 / n then width else max 2 (1000 / n / 2)

/-- Pulse output `q` starts a pulse (R318). -/
def pulseStart (q : Nat) (d : Dev) : Dev :=
  let b := d.getF (MTR_MP_ST_BKLG q)
  if d.getF MTR_CTRL_EN = 1 ∧ d.bit (MTR_MP_CFG_EN q) ∧ !d.bit (MTR_MP_ST_PIN q) ∧ 0 < b then
    let x := spGet {} d.mtr.pulses q
    let due := x.due.filter fun p => decide (d.time < p.1 + nsU (10 ^ 9))
    let w := pulseWidth (due.map (·.2)).sum (d.getF (MTR_MP_CFG_WIDTH q))
    let d := { d with mtr := { d.mtr with pulses := spSet {} d.mtr.pulses q { x with due := due } } }
    let d := ((d.setF (MTR_MP_ST_BKLG q) (b - 1)).setF (MTR_MP_ST_WLAST q) w).setF (MTR_MP_ST_PIN q) 1
    (if b = 1 then d.setF (MTR_MP_ST_SAT q) 0 else d).emit .pin (210 + q) [1]
  else d

/-- A pulse ends after its width (R318). -/
def pulseEnd (q : Nat) (d : Dev) : Dev :=
  if d.bit (MTR_MP_ST_PIN q) then (d.setF (MTR_MP_ST_PIN q) 0).emit .pin (210 + q) [0] else d

/-- The metering state is written to MRAM, or the write fails (R320). -/
def meterSave (ok : Bool) (d : Dev) : Dev :=
  if d.getF MTR_CTRL_EN = 0 then d
  else if ok then
    let sv : MtrSave := { regs := d.mtr.regs.filter fun p => d.bit (MTR_E_ECFG_EN p.1),
                          dem := (List.range 2).map fun m => (d.mtrPt m).dem,
                          bklg := (List.range 4).map fun q => d.getF (MTR_MP_ST_BKLG q) }
    { d with mram := { d.mram with meter := some sv, meterBad := false } }
  else (d.evt MTR_EVT_SAVE_FAIL).bump MTR_SAVE_FAIL

/-- The timebase steps by `delta` in 2^-32 ns: open demand intervals close; held times move with it (R40, R304, R317). -/
def Dev.mtrStep (d : Dev) (delta : Int) : Dev :=
  let mv := fun (t : Nat) => ((t : Int) + delta).toNat
  forN 2 (fun m d =>
    if !d.mtrRuns m then d
    else
      let s := d.time / secU
      let l := d.getF (MTR_DEM_CFG_LEN m)
      let o := d.getF (MTR_DEM_CFG_OFS m)
      let aligned := decide (d.time % secU = 0) && decide (demNext l o s = s + 60 * max 1 l)
      let d := d.demClose m s true (!aligned)
      let x := d.mtrPt m
      let rate := d.mtrRate m
      d.setMtrPt m { x with
        buf := x.buf.map fun q => { q with t := mv q.t }
        old := x.old.map fun q => { q with t := mv q.t }
        els := x.els.map fun q => { q with cand := q.cand.map mv, last := q.last.map fun p => (mv p.1, p.2), conf := q.conf.map mv }
        start := mv x.start, win := { x.win with zFirst := mv x.win.zFirst }
        nextJ := (d.time * rate + secU - 1) / secU }) d

/-- Metering begins after the image is applied (R298, R304, R317). -/
def Dev.mtrStart (d : Dev) : Dev :=
  if d.getF MTR_CTRL_EN = 0 then d
  else forN 2 (fun m d =>
    if !d.bit (MTR_PT_CFG_EN m) then d
    else
      let x := d.mtrPt m
      let d := d.setF MTR_STAT_RUN (Nat.lor (d.getF MTR_STAT_RUN) (2 ^ m))
      d.setMtrPt m { x with
        start := d.time, tr := d.mtrFbLen m, win := { zFirst := d.time, noZ := true }
        nextJ := (d.time * d.mtrRate m + secU - 1) / secU
        dem := { x.dem with start := d.time / secU, partly := true, nog := !d.tbsGlobal } }) d

/-- Metering state comes back from MRAM at a restart, and the open demand intervals close as PARTIAL (R320, R394, R441). -/
def Dev.mtrRestore (d : Dev) : Dev :=
  let d := if d.mram.meterBad then { d.evt MTR_EVT_SAVE_FAIL with mram := { d.mram with meterBad := false } } else d
  if d.getF MTR_CTRL_EN = 0 then d
  else match d.mram.meter with
    | none => d
    | some sv =>
      let d := sv.regs.foldl (fun d p => if d.bit (MTR_E_ECFG_EN p.1) then d.eShow p.1 p.2 else d) d
      let d := forN 4 (fun q d => d.setF (MTR_MP_ST_BKLG q) (sv.bklg.getD q 0)) d
      forN 2 (fun m d =>
        if d.bit (MTR_PT_CFG_EN m) then
          (d.setDem m fun _ => { sv.dem.getD m {} with partly := true }).demClose m (d.time / secU) false true
        else d) d

/-! ### Reads -/

/-- Reading MTR_ELOr latches EHIr for the path (R311, R460). -/
def eloRead (pn r : Nat) (d : Dev) : Word × Dev :=
  (d.rd (addr_MTR_E_ELO r), d.setLatch pn (addr_MTR_E_EHI r) (d.rd (addr_MTR_E_EHI r)).toNat)

/-- Reading RSEQ latches every result word of the point for the path (R308, R460). -/
def rseqRead (pn m : Nat) (d : Dev) : Word × Dev :=
  (d.rd (addr_MTR_PT_RSEQ m), forN 4 (fun k e => forN 6 (fun q e =>
    let a := addr_MTR_RES0 m 0 + 32 * k + 4 * q
    e.setLatch pn a (d.rd a).toNat) e) d)

/-- Reading DEM_HDR latches the rest of the record for the path (R317, R460). -/
def demHdrRead (pn m : Nat) (d : Dev) : Word × Dev :=
  (d.rd (addr_MTR_DEM_HDR m), forN 6 (fun i e =>
    let a := addr_MTR_DEM_HDR m + 4 + 4 * i
    e.setLatch pn a (d.rd a).toNat) d)

/-! ### The commands -/

/-- METERING_SAMPLE (R243, R302 to R309). -/
def execMeteringSample (caps : List Capture) (s : State) : Host.Outcome State Fault Refusal := .next (s.onDev (meteringSample caps))

/-- LOSS_OF_VOLTAGE (R303). -/
def execLossOfVoltage (m ph : Nat) (s : State) : Host.Outcome State Fault Refusal :=
  .next (s.inst (decide (m < 2)) fun s => s.onDev (lossOfVoltage m ph))

/-- FALLBACK_BOUNDARY (R304). -/
def execFallbackBoundary (m : Nat) (s : State) : Host.Outcome State Fault Refusal :=
  .next (s.inst (decide (m < 2)) fun s => s.onDev (fallbackBoundary m))

/-- ECLR (R314). -/
def execEclr (p : Path) (v : Word) (s : State) : Host.Outcome State Fault Refusal :=
  .next (s.writeRow p addr_MTR_ECLR v id (eclrEffect v))

/-- ELO_READ (R311). -/
def execEloRead (p : Path) (r : Nat) (s : State) : Host.Outcome State Fault Refusal :=
  .next (s.inst (decide (r < 32)) fun s => s.readRow p (addr_MTR_E_ELO r) (eloRead (pathNo p) r))

/-- RSEQ_READ (R308). -/
def execRseqRead (p : Path) (m : Nat) (s : State) : Host.Outcome State Fault Refusal :=
  .next (s.inst (decide (m < 2)) fun s => s.readRow p (addr_MTR_PT_RSEQ m) (rseqRead (pathNo p) m))

/-- DEMAND_CLOSE (R317). -/
def execDemandClose (m : Nat) (s : State) : Host.Outcome State Fault Refusal :=
  .next (s.inst (decide (m < 2)) fun s => s.onDev (demandClose m))

/-- DEM_HDR_READ (R317). -/
def execDemHdrRead (p : Path) (m : Nat) (s : State) : Host.Outcome State Fault Refusal :=
  .next (s.inst (decide (m < 2)) fun s => s.readRow p (addr_MTR_DEM_HDR m) (demHdrRead (pathNo p) m))

/-- PULSE_START (R318). -/
def execPulseStart (q : Nat) (s : State) : Host.Outcome State Fault Refusal :=
  .next (s.inst (decide (q < 4)) fun s => s.onDev (pulseStart q))

/-- PULSE_END (R318). -/
def execPulseEnd (q : Nat) (s : State) : Host.Outcome State Fault Refusal :=
  .next (s.inst (decide (q < 4)) fun s => s.onDev (pulseEnd q))

/-- METER_SAVE (R320). -/
def execMeterSave (ok : Bool) (s : State) : Host.Outcome State Fault Refusal := .next (s.onDev (meterSave ok))

/-- CAPT_LO_READ (R260). -/
def execCaptLoRead (p : Path) (s : State) : Host.Outcome State Fault Refusal :=
  .next (s.readRow p addr_MOD_CAPT_LO (captLoRead (pathNo p)))

end Sys2Proof.Machine
end

