-- ==== Sys2Proof/Machine/ProcessBus.lean ====
section
/-! DEFINITION. Process bus and station bus (spec/12_process_bus.md): ports and PRP, sampled values, GOOSE. -/

namespace Sys2Proof.Machine

/-! ### Ports and PRP (R324 to R327, R487) -/

def Dev.linkUp (d : Dev) (port : Nat) : Bool := decide (d.getF NET_STAT2_LINK / 2 ^ (port - 1) % 2 = 1)

/-- A port is in use: by its configuration, or P3 in Slipway mode with IP settings from the access copy (R419). -/
def Dev.portUsed (d : Dev) (port : Nat) : Bool :=
  d.bit (NET_PCFG_EN (port - 1)) ||
    (decide (port = 3) && d.bit BOT_STAT_SLIPWAY && d.mgt.netif.any (fun e => decide (e.port = 3)))

/-- A port that can send and receive. -/
def Dev.portOn (d : Dev) (port : Nat) : Bool :=
  decide (1 ≤ port ∧ port ≤ 3) && d.portUsed port && d.linkUp port

/-- A frame leaves by a port. -/
def Dev.netSend (d : Dev) (k : OutKind) (port : Nat) (words : List Nat) : Dev :=
  if d.portOn port then (d.bump (NET_TX (port - 1))).emit k port words else d

/-- A frame leaves on P1 and P2 with the redundancy control trailer (R325). -/
def Dev.prpSend (d : Dev) (k : OutKind) (words : List Nat) : Dev :=
  let q := d.net.seq
  let d := (d.netSend k 1 (q :: words)).netSend k 2 (q :: words)
  { d with net := { d.net with seq := (q + 1) % 65536 } }

/-- A port has link: LINK_DOWN and LINK_UP change it (R325, R487). -/
def Dev.setLink (d : Dev) (port : Nat) (up : Bool) : Dev :=
  if d.linkUp port = up then d
  else
    let l := d.getF NET_STAT2_LINK
    let d := d.setF NET_STAT2_LINK (if up then l + 2 ^ (port - 1) else l - 2 ^ (port - 1))
    if up then d.evt NET_EVT_LINK_UP
    else
      let d := d.evt NET_EVT_LINK_DOWN
      if port ≤ 2 then d.logEvt 6 0 [] else d

def linkDown (port : Nat) (los : Bool) (d : Dev) : Dev :=
  let d := if los then { d with net := { d.net with los := Nat.lor d.net.los (2 ^ (port - 1)) } } else d
  d.setLink port false

def linkUpAt (port speed : Nat) (d : Dev) : Dev :=
  let d := { d with net := { d.net with los := fldGet 0 3 (fldPut (port - 1) 1 0 (BitVec.ofNat 32 d.net.los)) } }
  if d.portUsed port then
    (if port = 3 then d.setF NET_STAT_P3_SPEED (min 2 speed) else d).setLink port true
  else d

/-- A source with a trailer joins the node table, while it has room (R325). -/
def Dev.learnNode (d : Dev) (mac : Nat) : Dev :=
  if d.net.nodes.contains mac ∨ 256 ≤ d.net.nodes.length then d
  else
    let n := mac :: d.net.nodes
    { d.setF NET_STAT_NODES n.length with net := { d.net with nodes := n } }

/-- A frame reaches a port: whether it goes on, after the LAN identifier, the node table and duplicate discard (R325). -/
def Dev.ethRx (d : Dev) (e : EthRx) : Bool × Dev :=
  if !d.portOn e.port then (false, d)
  else
    let d := d.bump (NET_RX (e.port - 1))
    if e.port = 3 then (true, d)
    else match e.rct with
      | none => (true, d)
      | some (q, own) =>
        let d := if own then d
          else (d.bump (if e.port = 1 then NET_WRONGLAN_A else NET_WRONGLAN_B)).evt NET_EVT_WRONG_LAN
        let d := d.learnNode e.src
        if !d.net.nodes.contains e.src then (true, d)
        else if d.net.dups.contains (e.src, q) then (false, d.bump NET_DUPLICATES)
        else (true, { d with net := { d.net with dups := (e.src, q) :: d.net.dups } })

def supervisionFrame (e : EthRx) (d : Dev) : Dev :=
  if e.port = 3 then d
  else
    let r := d.ethRx e
    if r.1 then r.2.learnNode e.src else r.2

def supervisionSend (d : Dev) : Dev := d.prpSend .supervision []

def nodeForget (mac : Nat) (d : Dev) : Dev :=
  let n := d.net.nodes.filter (· ≠ mac)
  { d.setF NET_STAT_NODES n.length with net := { d.net with nodes := n, dups := d.net.dups.filter (·.1 ≠ mac) } }

def entryForget (mac seq : Nat) (d : Dev) : Dev :=
  { d with net := { d.net with dups := d.net.dups.filter (· ≠ (mac, seq)) } }

/-- A frame that a port discards (R324, R327). -/
def filteredFrame (port kind : Nat) (d : Dev) : Dev :=
  if !d.portOn port then d
  else
    let d := d.bump (NET_RX (port - 1))
    if kind = 0 then (d.bump NET_OVERSIZE).evt NET_EVT_OVERSIZE
    else if kind = 1 then d.bump (NET_FILTERED (port - 1))
    else if d.getF (NET_PCFG_STORM (port - 1)) = 0 then d
    else (d.bump (NET_STORM_DROP (port - 1))).evt NET_EVT_STORM

/-- A frame's VLAN identifier suits a subscription (R326). -/
def vidOk (vchk : Bool) (vid : Nat) (e : EthRx) : Bool := !vchk || e.vid == some vid

/-! ### Sampled values published (R328 to R331) -/

def svRateOf (b : Bool) : Nat := if b then 14400 else 4800

/-- Quality bits (log entry 33): validity 1:0, overflow 2, failure 6, test 11. -/
def qInvalid : Nat := 1
def qOverflow : Nat := 4
def qFailure : Nat := 64
def qTest : Nat := 2048

/-- The INT32 count of a value in units of `10^-3` (current) or `10^-2` (voltage), and whether it was limited (R328, R329). -/
def svCount (volt : Bool) (v : Nat) : Int × Bool :=
  match fvToIntRne (fvMul (fdec f32 v) (fvOfInt (if volt then 100 else 1000))) 0 with
  | some i => (clampInt (-(2 ^ 31 - 1)) (2 ^ 31 - 1) i, decide (i < -(2 ^ 31 - 1) ∨ 2 ^ 31 - 1 < i))
  | none => (0, true)

/-- One published channel: value and quality words (R329, R330); the value of an invalid sample is free. -/
def Dev.svChan (d : Dev) (n j : Nat) : List Nat × Dev :=
  let w := if j < 4 then d.rd (addr_SVX_PUB_SRC0 n) else d.rd (addr_SVX_PUB_SRC1 n)
  let b := fldGet (8 * (j % 4)) 8 w
  let test := if d.bit (SVX_PUB_CFG_TEST n) then qTest else 0
  let fail := if d.bit MOD_CTRL_SRC && d.modFault then qFailure else 0
  if b / 64 % 2 = 0 then ([0, qInvalid + fail + test], d)
  else
    let c := b % 32
    let s := d.mtrSample c
    let exceeds := fvLt (fvMul (fdec f32 (d.getF (MOD_CH_OR_LIM c))) (fvOfInt s.den)) (fvOfInt s.num.natAbs)
    if s.ok then
      let v := svCount (decide (b / 128 % 2 = 1)) s.val
      ([ofSigned 32 v.1, (if exceeds || v.2 then qOverflow else 0) + fail + test], d)
    else
      let r := d.free (2 ^ 32)
      ([r.1, qInvalid + fail + test], r.2)

def Dev.svChans (d : Dev) (n : Nat) : List Nat × Dev :=
  (List.range 8).foldl (fun a j => let r := a.2.svChan n j; (a.1 ++ r.1, r.2)) ([], d)

/-- The holder publishes what has PAIRMODE = 1; an unpaired device publishes all (R342). -/
def Dev.publishes (d : Dev) (pairmode : Bool) : Bool := d.drives || !pairmode

/-- A frame of stream `n` is due: the bits up to the capture edges of each ASDU arrive, and the frame leaves (R328 to R330). -/
def svPublish (n : Nat) (smp : List (List Capture)) (d : Dev) : Dev :=
  let on := d.bit (SVX_PUB_CFG_EN n) && d.publishes (d.bit (SVX_PUB_CFG_PAIRMODE n))
  let rate := svRateOf (d.bit (SVX_PUB_CFG_RATE n))
  let na := d.getF (SVX_PUB_CFG_NASDU n)
  let syn := d.getF TBS_STAT_SYNC_Q
  let r := (List.range (max na smp.length)).foldl (fun (a : List Nat × Dev) i =>
    let d := a.2.captures (smp.getD i [])
    if on ∧ i < na then
      let x := d.svChans n
      (a.1 ++ ((spGet 0 d.svx.pub n + i) % rate) :: x.1, x.2)
    else (a.1, d)) ([], d)
  let d := r.2
  let j := spGet 0 d.svx.pub n
  let d := { d with svx := { d.svx with pub := spSet 0 d.svx.pub n (j + na) } }
  if !on then d
  else
    let d := (d.setF (SVX_PUB_ST_SMPCNT n) ((j + na - 1) % rate)).setF (SVX_PUB_ST_SMPSYNCH n) syn
    let gm := if d.bit (SVX_PUB_CFG_GMID n) then [d.getF PTP_GM_ID_LO_ID, d.getF PTP_GM_ID_HI_ID] else []
    d.prpSend .sampledValue (n :: syn :: gm ++ r.1)

/-- The sample sequences follow device time: from `d.time` on, the first whole sample instant is next (R329, R342). -/
def Dev.svAlign (d : Dev) : Dev :=
  forN 8 (fun n d =>
    let rate := svRateOf (d.bit (SVX_PUB_CFG_RATE n))
    { d with svx := { d.svx with pub := spSet 0 d.svx.pub n ((d.time * rate + secU - 1) / secU) } }) d

/-! ### Sampled values subscribed (R332 to R339) -/

def Dev.svSub (d : Dev) (m : Nat) : SvSub := spGet {} d.svx.subs m
def Dev.setSvSub (d : Dev) (m : Nat) (x : SvSub) : Dev := { d with svx := { d.svx with subs := spSet {} d.svx.subs m x } }
def Dev.svState (d : Dev) (m : Nat) : Nat := d.getF (SVX_SUB_ST_STATE m)

/-- Enter a subscription state: 0 ABSENT, 1 LEARN, 2 VALID, 3 LOST; the summary words follow. -/
def Dev.svEnter (d : Dev) (m st : Nat) : Dev :=
  ((d.setF (SVX_SUB_ST_STATE m) st).setMaskBit addr_SVX_SUBVALID m (decide (st = 2))).setMaskBit addr_SVX_SUBLOST m (decide (st = 3))

def Dev.svSource (d : Dev) (m : Nat) : Nat := d.getF (SVX_SUB_SMAC_HI m) * 2 ^ 32 + d.getF (SVX_SUB_SMAC_LO m)

/-- Channels that the slots of a subscription need. -/
def Dev.svNeeds (d : Dev) (m : Nat) : Nat :=
  (List.range 256).foldl (fun n i =>
    if d.bit (SVX_SLOT_CFG_EN i) ∧ d.getF (SVX_SLOT_CFG_STREAM i) = m then max n (d.getF (SVX_SLOT_CFG_CH i) + 1) else n) 0

/-- The frame index in device time of smpCnt `c`, nearest to the ingress time (R335). -/
def svIndex (rate c tIn : Nat) : Nat :=
  let near := (tIn * rate + secU / 2) / secU
  let s := near / rate
  let pick := fun s => s * rate + c
  let dist := fun s => ((pick s : Int) * secU - (tIn * rate : Nat)).natAbs
  let s := if 0 < s ∧ dist (s - 1) < dist s then s - 1 else s
  if dist (s + 1) < dist s then pick (s + 1) else pick s

/-- The value of slot `i` from a channel, and whether the slot is valid for the sample (R336). -/
def Dev.slotOf (d : Dev) (i syn : Nat) (ch : List (Int × Nat)) : Bool × Nat × Nat :=
  match ch[d.getF (SVX_SLOT_CFG_CH i)]? with
  | none => (false, 0, 0)
  | some (v, q) =>
    let val := fenc f32 (fvMul (fvOfInt v) (fdec f32 (d.getF (SVX_SLOT_SCALE i))))
    let good := decide (q % 4 = 0) || (decide (q % 4 = 2) && d.bit (SVX_SLOT_CFG_QACC i))
    (d.bit (SVX_SLOT_CFG_EN i) && good && decide (q / qFailure % 2 = 0) && decide (d.getF (SVX_SLOT_CFG_SYNC_MIN i) ≤ syn), val, q)

/-- An accepted sample reaches the slots of its stream and the metering points on it (R336 to R338). -/
def Dev.svAccept (d : Dev) (m j syn : Nat) (ch : List (Int × Nat)) : Dev :=
  let d := forN 256 (fun i d =>
    if d.bit (SVX_SLOT_CFG_EN i) ∧ d.getF (SVX_SLOT_CFG_STREAM i) = m then
      let r := d.slotOf i syn ch
      let o := spGet {} d.svx.slots i
      let x : SvSlot := { j := j, val := if r.1 then r.2.1 else o.val, ok := r.1 }
      { d.setF (SVX_SLOT_ST_Q i) (r.2.2 % 2 ^ 14) with svx := { d.svx with slots := spSet {} d.svx.slots i x } }
    else d) d
  forN 2 (fun p d =>
    if d.mtrRuns p ∧ d.bit (MTR_PT_CFG_SRC p) ∧ d.mtrStream p = m then
      let els := (List.range (d.mtrEls p)).map fun e =>
        (d.slotOf (d.getF (MTR_PT_CH_VSRC p e)) syn ch, d.slotOf (d.getF (MTR_PT_CH_ISRC p e)) syn ch)
      let ok := els.all fun e => e.1.1 && e.2.1
      d.mtrSvSample p j (els.map fun e => ((ok, e.1.2.1), (ok, e.2.2.1)))
    else d) d

/-- One ASDU in VALID (R334, R335). -/
def Dev.svAsdu (d : Dev) (m syn tIn : Nat) (a : Nat × List (Int × Nat)) : Dev :=
  let rate := svRateOf (d.bit (SVX_SUB_CFG_RATE m))
  let x := d.svSub m
  let g := (a.1 + rate - x.e % rate) % rate
  if rate / 2 ≤ g then d.bump (SVX_SUB_LATE m)
  else
    let d := if g = 0 then d else (d.bumpBy (SVX_SUB_GAP m) g).evt SVX_EVT_GAP
    let d := (d.setSvSub m { x with e := (a.1 + 1) % rate }).setF (SVX_SUB_ST_SMPCNT m) a.1
    d.svAccept m (svIndex rate a.1 tIn) syn a.2

/-- The samples of a frame in VALID, with the latency of its last ASDU (R334, R335). -/
def Dev.svSamples (d : Dev) (m : Nat) (f : SvFrame) : Dev :=
  let d := f.asdus.foldl (fun d a => d.svAsdu m f.smpSynch f.tIn a) d
  let rate := svRateOf (d.bit (SVX_SUB_CFG_RATE m))
  let t := svInstant rate (svIndex rate ((f.asdus.getLast?.map (·.1)).getD 0) f.tIn)
  d.setF (SVX_SUB_LAT m) (max (d.getF (SVX_SUB_LAT m)) (min (2 ^ 32 - 1) ((f.tIn - t) / 2 ^ 32)))

/-- Learning on a frame: a new start or one more (R333). -/
def Dev.svLearn (d : Dev) (m : Nat) (f : SvFrame) (fresh : Bool) : Dev :=
  let rate := svRateOf (d.bit (SVX_SUB_CFG_RATE m))
  let x := d.svSub m
  let first := (f.asdus.head?.map (·.1)).getD 0
  let last := (f.asdus.getLast?.map (·.1)).getD 0
  let cont := !fresh && decide (d.svSource m = f.eth.src) && decide (first = (x.lastCnt + 1) % rate)
  let n := if cont then x.learn + 1 else 1
  let d := (d.wrN (addr_SVX_SUB_SMAC_LO m) (f.eth.src % 2 ^ 32)).wrN (addr_SVX_SUB_SMAC_HI m) (f.eth.src / 2 ^ 32 % 65536)
  let d := d.setSvSub m { x with learn := n, lastCnt := last }
  if n < d.getF (SVX_SUB_CFG_LEARN_N m) then d.svEnter m 1
  else
    let d := (d.svEnter m 2).evt SVX_EVT_VALID
    let d := match x.src with
      | some o => if o = f.eth.src then d
          else ((d.evt SVX_EVT_SRC_CHANGE).bump SVX_SRC_CHANGE).logEvt 7 2 (words64 o ++ words64 f.eth.src)
      | none => d
    (d.setSvSub m { x with learn := n, lastCnt := last, e := first, src := some f.eth.src }).svSamples m f

/-- An acceptable frame (R333). -/
def Dev.svAcceptable (d : Dev) (m : Nat) (f : SvFrame) : Dev :=
  let d := (d.bump (SVX_SUB_FRAMES m)).setF (SVX_SUB_ST_SMPSYNCH m) (min 3 f.smpSynch)
  let st := d.svState m
  if st = 2 then
    if d.svSource m = f.eth.src then d.svSamples m f else d.bump (SVX_SUB_CONFLICT m)
  else d.svLearn m f (decide (st ≠ 1))

/-- A frame whose address and APPID are those of subscription `m` is judged (R332). -/
def Dev.svJudge (d : Dev) (m : Nat) (f : SvFrame) : Dev :=
  let rate := svRateOf (d.bit (SVX_SUB_CFG_RATE m))
  if f.hash ≠ d.getF (SVX_SUB_HASH m) then d.bump (SVX_SUB_FOREIGN m)
  else if f.confRev ≠ d.getF (SVX_SUB_CONF m) then (d.bump (SVX_SUB_CONFREV m)).evt SVX_EVT_CONFREV
  else if (f.test && !d.bit (SVX_SUB_CFG_TEST_ACC m)) || (f.sim && !d.bit SVX_CTRL_SIM_ACC) then d.bump SVX_TEST_IGN
  else if f.asdus.all (fun a => decide (a.1 < rate ∧ d.svNeeds m ≤ a.2.length)) && !f.asdus.isEmpty &&
      vidOk (d.bit (SVX_SUB_CFG_VCHK m)) (d.getF (SVX_SUB_CFG_VID m)) f.eth then d.svAcceptable m f
  else d.bump (SVX_SUB_FOREIGN m)

/-- A sampled-value frame arrives (R325, R327, R332, R333). -/
def svFrame (f : SvFrame) (d : Dev) : Dev :=
  if f.eth.port = 3 then d
  else
    let r := d.ethRx f.eth
    let d := r.2
    if !r.1 then d
    else
      let dest := (List.range 32).filter fun m => d.bit (SVX_SUB_CFG_EN m) && decide (d.getF (SVX_SUB_ID m) % 65536 = f.ident % 65536)
      let own := dest.filter fun m => decide (d.getF (SVX_SUB_ID m) = f.ident)
      if dest.isEmpty then d.bump (NET_FILTERED (f.eth.port - 1))
      else if own.isEmpty then dest.foldl (fun d m => d.bump (SVX_SUB_FOREIGN m)) d
      else own.foldl (fun d m => d.svJudge m f) d

/-- Nothing accepted for TMO (R333). -/
def svTimeout (m : Nat) (d : Dev) : Dev :=
  if d.svState m = 1 then d.svEnter m 0
  else if d.svState m = 2 then
    ((((d.svEnter m 3).evt SVX_EVT_LOST).bump (SVX_SUB_LOSTN m)).bump SVX_LOST).logEvt 7 0 []
  else d

/-- The slots' input words for the period (R183, R337, R339); `due` at S(k) + TLM_DUE, where SLOT_ST.VALID is judged. -/
def Dev.svWords (d : Dev) (due : Bool) : Dev :=
  forN 256 (fun i d =>
    if !d.bit (SVX_SLOT_CFG_EN i) then d
    else
      let x := spGet {} d.svx.slots i
      let ok := x.ok && decide (d.svState (d.getF (SVX_SLOT_CFG_STREAM i)) = 2)
      let d := if due then d.setB (SVX_SLOT_ST_VALID i) ok else d
      let v := if ok then some x.val else if d.bit (SVX_SLOT_CFG_INV i) then some 0x7FC00000 else none
      match v with
      | some v =>
        let d := d.wrN (addr_SVX_SLOT_VAL i) v
        if d.drives then d.setMwN (0x60980 + i) v else d
      | none => d) d

/-- Reading SUB_LAT clears it (R8, R348). -/
def subLatRead (m : Nat) (d : Dev) : Word × Dev := d.readClear (addr_SVX_SUB_LAT m)

/-! ### GOOSE published (R340 to R342) -/

/-- A GB bit (R345). -/
def Dev.gb (d : Dev) (k : Nat) : Bool := d.maskBit (if k < 32 then addr_GSE_GB0 else addr_GSE_GB1) (k % 32)

/-- The live level of an element source (R340); `run` and `key` come from the safety island. -/
def Dev.gseElem (d : Dev) (run key : Bool) (src : Nat) : Bool :=
  if src = 1 then true
  else if src / 16 = 1 then d.isLatched (src % 16)
  else if 0x40 ≤ src ∧ src < 0x80 then d.srcActive (src - 0x40)
  else if src = 0x80 then run
  else if src = 0x81 then key
  else if src = 0x82 then d.paired && decide (d.morState = morHolder)
  else if 0x90 ≤ src ∧ src < 0x98 then decide (d.getF BOT_ARM_EN / 2 ^ (src - 0x90) % 2 = 1)
  else if 0xA0 ≤ src ∧ src < 0xE0 then d.gb (src - 0xA0)
  else false

def Dev.gsePub (d : Dev) (n : Nat) : GsePub := spGet {} d.gse.pub n
def Dev.setGsePub (d : Dev) (n : Nat) (x : GsePub) : Dev := { d with gse := { d.gse with pub := spSet {} d.gse.pub n x } }

/-- One above, wrapping from 2^32 − 1 to 1 (R341). -/
def next1 (n : Nat) : Nat := if n = 2 ^ 32 - 1 then 1 else n + 1

/-- The interval in µs from the message after `r` repeats to the next one (R341). -/
def gseInterval (t1 t0ms r : Nat) : Nat := min (t0ms * 1000) (if r = 0 then t1 else t1 * 2 ^ min 30 (r - 1))

/-- A message of control block `n` leaves: stNum, sqNum, timeAllowedtoLive, test, t with its TimeQuality, elements (R340, R341). -/
def Dev.gseSend (d : Dev) (n : Nat) : Dev :=
  let x := d.gsePub n
  let us := gseInterval (d.getF (GSE_PUB_TIM_T1 n)) (d.getF (GSE_PUB_TIM_T0 n)) x.reps
  let q := d.getF TBS_STAT_SYNC_Q
  let tq := (if q = 0 then 64 else 0) + (if q = 2 then 20 else 32 + 31)
  d.prpSend .goose (n :: d.getF (GSE_PUB_STNUM n) :: d.getF (GSE_PUB_SQNUM n) :: (3 * us + 999) / 1000 ::
    b2n (d.bit (GSE_PUB_CFG_TEST n)) :: tq :: timeWords x.t ++ (x.data.getD []).map b2n)

/-- One scan of the element sources (R341, R342). -/
def gooseScan (run key : Bool) (d : Dev) : Dev :=
  forN 16 (fun n d =>
    if d.bit (GSE_PUB_CFG_EN n) && d.publishes (d.bit (GSE_PUB_CFG_PAIRMODE n)) then
      let v := (List.range (d.getF (GSE_PUB_CFG_NELEM n))).map fun j => d.gseElem run key (d.getF (GSE_ELEM_SRC n j))
      if (d.gsePub n).data = some v then d
      else
        let d := (d.setF (GSE_PUB_STNUM n) (next1 (d.getF (GSE_PUB_STNUM n)))).setF (GSE_PUB_SQNUM n) 0
        (d.setGsePub n { data := some v, t := d.time, reps := 0 }).gseSend n
    else d) d

/-- A repeat of control block `n` (R341). -/
def gooseRepeat (n : Nat) (d : Dev) : Dev :=
  let x := d.gsePub n
  if d.bit (GSE_PUB_CFG_EN n) && d.publishes (d.bit (GSE_PUB_CFG_PAIRMODE n)) && x.data.isSome then
    let d := d.setF (GSE_PUB_SQNUM n) (next1 (d.getF (GSE_PUB_SQNUM n)))
    (d.setGsePub n { x with reps := x.reps + 1 }).gseSend n
  else d

/-- A new holder starts its GOOSE with a repeat of the last state, and its streams at the next sample instant (R342). -/
def Dev.busTakeover (d : Dev) : Dev :=
  let d := d.svAlign
  forN 16 (fun n d => if d.bit (GSE_PUB_CFG_PAIRMODE n) then gooseRepeat n d else d) d

/-! ### GOOSE subscribed (R343 to R346) -/

def Dev.gseState (d : Dev) (m : Nat) : Nat := d.getF (GSE_SUB_ST_STATE m)

def Dev.gseEnter (d : Dev) (m st : Nat) : Dev :=
  (d.setF (GSE_SUB_ST_STATE m) st).setMaskBit (addr_GSE_SUBV (m / 32)) (m % 32) (decide (st = 2))

/-- The level of bit GBk (R345). -/
def Dev.gbLevel (d : Dev) (k : Nat) : Bool :=
  let m := d.getF (GSE_GB_SUB k)
  if d.bit (GSE_GB_EN k) && decide (d.gseState m = 2) then
    xor (((spGet [] d.gse.data m).getD (d.getF (GSE_GB_ELEM k)) none).getD false) (d.bit (GSE_GB_INV k))
  else false

/-- Bit k selected for GTi (R346). -/
def Dev.gtSel (d : Dev) (i k : Nat) : Bool := d.maskBit (addr_GSE_GTMAP i (k / 32)) (k % 32)

/-- GB bits, GT levels and the GOOSE trigger follow the subscriptions (R345, R346). -/
def Dev.gseEval (d : Dev) : Dev :=
  let d := forN 64 (fun k d =>
    let v := d.gbLevel k
    if v = d.gb k then d
    else
      let d := d.setMaskBit (if k < 32 then addr_GSE_GB0 else addr_GSE_GB1) (k % 32) v
      if v && d.maskBit (if k < 32 then addr_GSE_MFT0 else addr_GSE_MFT1) (k % 32) then d.mftTrigger 2 k else d) d
  forN 8 (fun i d =>
    let ks := (List.range 64).filter (d.gtSel i)
    let lev := ks.any d.gb
    let lost := ks.any fun k => d.bit (GSE_GB_EN k) && decide (d.gseState (d.getF (GSE_GB_SUB k)) ≠ 2)
    let d := (d.setMaskBit addr_GSE_GT i lev).setMaskBit addr_GSE_GT (8 + i) lost
    let on := lev || (lost && decide (d.getF TRP_CTRL_GT_LOSS / 2 ^ i % 2 = 1))
    if on = d.srcActive (40 + i) then d else d.setSource (40 + i) on) d

/-- A message's data are taken (R344). -/
def Dev.gseTake (d : Dev) (m : Nat) (g : GooseMsg) : Dev :=
  let d := ((d.wrN (addr_GSE_SUB_STNUM m) g.stNum).wrN (addr_GSE_SUB_SQNUM m) g.sqNum).wrN (addr_GSE_SUB_TAL m) g.tal
  { d with gse := { d.gse with data := spSet [] d.gse.data m g.data } }.gseEval

/-- An acceptable message (R344). -/
def Dev.gseAccept (d : Dev) (m : Nat) (g : GooseMsg) : Dev :=
  let st := d.getF (GSE_SUB_STNUM m)
  if d.gseState m ≠ 2 then ((d.gseEnter m 2).evt GSE_EVT_VALID).gseTake m g
  else if g.stNum = next1 st then d.gseTake m g
  else if g.stNum = st then
    if serialAfter 32 g.sqNum (d.getF (GSE_SUB_SQNUM m)) then
      let d := if spGet [] d.gse.data m = g.data then d else (d.bump GSE_INCONS).evt GSE_EVT_INCONS
      (d.wrN (addr_GSE_SUB_SQNUM m) g.sqNum).wrN (addr_GSE_SUB_TAL m) g.tal
    else d
  else ((d.bump GSE_SEQ_ERR).evt GSE_EVT_SEQ_ERR).gseTake m g

/-- The elements that GB bits take from subscription `m` are BOOLEAN (R344, R345). -/
def Dev.gseTypesOk (d : Dev) (m : Nat) (g : GooseMsg) : Bool :=
  (List.range 64).all fun k =>
    !(d.bit (GSE_GB_EN k) && decide (d.getF (GSE_GB_SUB k) = m)) || ((g.data.getD (d.getF (GSE_GB_ELEM k)) none).isSome)

/-- A message with the identity of subscription `m` is judged (R343, R344). -/
def Dev.gseJudge (d : Dev) (m : Nat) (g : GooseMsg) : Dev :=
  if g.confRev ≠ d.getF (GSE_SUB_CONF m) then d.bump GSE_CONFREV
  else if g.ndsCom then d.bump GSE_NDSCOM
  else if (g.test && !d.bit (GSE_SUB_CFG_TEST_ACC m)) || (g.sim && !d.bit GSE_CTRL_SIM_ACC) then d.bump GSE_TEST_IGN
  else if !vidOk (d.bit (GSE_SUB_CFG_VCHK m)) (d.getF (GSE_SUB_CFG_VID m)) g.eth then d
  else if !d.gseTypesOk m g then d.bump GSE_TYPE_ERR
  else d.gseAccept m g

/-- A GOOSE message arrives (R325, R327, R343). -/
def gooseMessage (g : GooseMsg) (d : Dev) : Dev :=
  if g.eth.port = 3 then d
  else
    let r := d.ethRx g.eth
    let d := r.2
    if !r.1 then d
    else
      let dest := (List.range 128).filter fun m => d.bit (GSE_SUB_CFG_EN m) && decide (d.getF (GSE_SUB_ID m) % 65536 = g.ident % 65536)
      if dest.isEmpty then d.bump (NET_FILTERED (g.eth.port - 1))
      else (dest.filter fun m => decide (d.getF (GSE_SUB_ID m) = g.ident ∧ d.getF (GSE_SUB_HASH m) = g.hash)).foldl
        (fun d m => d.gseJudge m g) d

/-- timeAllowedtoLive expires (R344). -/
def gooseTalExpiry (m : Nat) (d : Dev) : Dev :=
  if d.gseState m = 2 then ((((d.gseEnter m 3).evt GSE_EVT_LOST).bump GSE_LOST).logEvt 8 0 []).gseEval else d

/-! ### The commands -/

/-- LINK_DOWN (R325, R487). -/
def execLinkDown (port : Nat) (los : Bool) (s : State) : Host.Outcome State Fault Refusal :=
  .next (s.inst (decide (1 ≤ port ∧ port ≤ 3)) fun s => s.onDev (linkDown port los))

/-- LINK_UP (R487). -/
def execLinkUp (port speed : Nat) (s : State) : Host.Outcome State Fault Refusal :=
  .next (s.inst (decide (1 ≤ port ∧ port ≤ 3)) fun s => s.onDev (linkUpAt port speed))

/-- SUPERVISION_SEND (R325). -/
def execSupervisionSend (s : State) : Host.Outcome State Fault Refusal := .next (s.onDev supervisionSend)

/-- SUPERVISION_FRAME (R325). -/
def execSupervisionFrame (e : EthRx) (s : State) : Host.Outcome State Fault Refusal := .next (s.onDev (supervisionFrame e))

/-- NODE_FORGET (R325). -/
def execNodeForget (mac : Nat) (s : State) : Host.Outcome State Fault Refusal := .next (s.onDev (nodeForget mac))

/-- ENTRY_FORGET (R325). -/
def execEntryForget (mac seq : Nat) (s : State) : Host.Outcome State Fault Refusal := .next (s.onDev (entryForget mac seq))

/-- FILTERED_FRAME (R324, R327). -/
def execFilteredFrame (port kind : Nat) (s : State) : Host.Outcome State Fault Refusal := .next (s.onDev (filteredFrame port kind))

/-- SV_PUBLISH (R329). -/
def execSvPublish (n : Nat) (smp : List (List Capture)) (s : State) : Host.Outcome State Fault Refusal :=
  .next (s.inst (decide (n < 8)) fun s => s.onDev (svPublish n smp))

/-- SV_FRAME (R332 to R336). -/
def execSvFrame (f : SvFrame) (s : State) : Host.Outcome State Fault Refusal := .next (s.onDev (svFrame f))

/-- SV_TIMEOUT (R333). -/
def execSvTimeout (m : Nat) (s : State) : Host.Outcome State Fault Refusal :=
  .next (s.inst (decide (m < 32)) fun s => s.onDev (svTimeout m))

/-- SUB_LAT_READ (R348). -/
def execSubLatRead (p : Path) (m : Nat) (s : State) : Host.Outcome State Fault Refusal :=
  .next (s.inst (decide (m < 32)) fun s => s.readRow p (addr_SVX_SUB_LAT m) (subLatRead m))

/-- GOOSE_SCAN (R341). -/
def execGooseScan (s : State) : Host.Outcome State Fault Refusal :=
  .next (s.onDev (gooseScan (decide (s.isl.getF SAF_STAT_STATE = 2)) (s.isl.bit SAF_STAT_KEY)))

/-- GOOSE_REPEAT (R341). -/
def execGooseRepeat (n : Nat) (s : State) : Host.Outcome State Fault Refusal :=
  .next (s.inst (decide (n < 16)) fun s => s.onDev (gooseRepeat n))

/-- GOOSE_MESSAGE (R343 to R346). -/
def execGooseMessage (g : GooseMsg) (s : State) : Host.Outcome State Fault Refusal := .next (s.onDev (gooseMessage g))

/-- GOOSE_TAL_EXPIRY (R344). -/
def execGooseTalExpiry (m : Nat) (s : State) : Host.Outcome State Fault Refusal :=
  .next (s.inst (decide (m < 128)) fun s => s.onDev (gooseTalExpiry m))

end Sys2Proof.Machine
end

