-- ==== Sys2Proof/Machine/Ptp.lean ====
section
/-! DEFINITION. The PTP slave, the measurements and the single step (R36 to R48, R56 to R65, R68). -/

namespace Sys2Proof.Machine

def Dev.ptpPort (d : Dev) (n : Nat) : PtpPort := if n = 1 then d.ptp1 else d.ptp2
def Dev.setPtpPort (d : Dev) (n : Nat) (x : PtpPort) : Dev := if n = 1 then { d with ptp1 := x } else { d with ptp2 := x }

/-- PTP runs on the port: P1 or P2, enabled, with link (R57). -/
def Dev.ptpOn (d : Dev) (n : Nat) : Bool :=
  d.portOn n && ((decide (n = 1) && d.bit PTP_CTRL_P1_EN) || (decide (n = 2) && d.bit PTP_CTRL_P2_EN))

/-- Latency compensation in 2^-32 ns: ingress and egress (R68; log entry 35). -/
def Dev.ptpLat (d : Dev) (n : Nat) (egress : Bool) : Nat :=
  let w := if n = 1 then d.rd addr_PTP_P1_LAT else d.rd addr_PTP_P2_LAT
  (if egress then fldGet 0 16 w else fldGet 16 16 w) * 2 ^ 27

def Dev.ptpIn (d : Dev) (n t : Nat) : Nat := t - d.ptpLat n false
def Dev.ptpOut (d : Dev) (n t : Nat) : Nat := t + d.ptpLat n true

/-! ### The single step (R40 to R42) -/

/-- The next whole multiple of 1.25 ns and the phase n of R41. -/
def stepTarget (v : Nat) : Nat × Nat :=
  let g := (v + incrNominal - 1) / incrNominal * incrNominal
  (g, min 63 ((128 * (g - v) + incrNominal) / (2 * incrNominal)))

/-- The record and flags of a step (R42). -/
def Dev.stepNoted (d : Dev) (delta : Int) (vg n : Nat) : Dev :=
  let d := ((d.setF TBS_PHASE_N n).setF TBS_STAT_STEPPED 1).evt TBS_EVT_STEP_DONE
  (d.bump TBS_STEPS).logEvt 4 0 (timeWords (ofSigned 96 delta) ++ timeWords vg ++ [n])

/-- The step by `delta` (2^-32 ns) on the entry into LOCKED (R39 to R42). -/
def Dev.stepBy (d : Dev) (delta : Int) : Dev :=
  let v := ofSigned 96 ((d.time : Int) + delta)
  let g := stepTarget v
  let vg : Nat := g.1 % 2 ^ 96
  let moved : Int := (vg : Int) - d.time
  let d := { d with time := vg, tbs := { d.tbs with meas := [], overs := 0, goods := 0, hoOver := false } }
  let d := (d.tbsEnter tbsLocked).evt TBS_EVT_LOCKED
  (((d.stepNoted delta vg g.2).bump (CRG_PLL_PHSTEPS 0)).brtcWrite.mtrStep moved).svAlign

/-- Entry into FREE: the load at reset counts as the step (R37, R40). -/
def Dev.enterFree (d : Dev) : Dev :=
  if d.tbsState = tbsUnset ∧ d.bit TBS_CTRL_MODE then (d.tbsEnter tbsFree).stepNoted 0 d.time 0 else d

/-- Δ of TBS_STEP_OFS: two's complement over HI, LO and FR (R61, R67). -/
def Dev.stepOfs (d : Dev) : Int :=
  toSigned 96 (d.getF TBS_STEP_OFS_HI_NS * 2 ^ 64 + d.getF TBS_STEP_OFS_LO_NS * 2 ^ 32 + d.getF TBS_STEP_OFS_FR_FR)

/-- The effect of TBS_STEP.GO (R61). -/
def stepGoEffect : WEff := fun d =>
  if d.extServo && decide (d.tbsState = tbsAcquire) then (true, d.stepBy d.stepOfs) else (false, d.stepRefused)

/-! ### Best master selection (R58 to R60) -/

/-- `a` is better than `b` (IEEE 1588-2019 data set comparison; log entry 36): lower in priority1, clockClass, accuracy, variance,
priority2, identity; with one grandmaster, fewer steps removed. -/
def annBetter (a b : PtpAnnounce) : Bool :=
  let ka := [a.priority1, a.clockClass, a.accuracy, a.variance, a.priority2, a.gmId, a.stepsRemoved]
  let kb := [b.priority1, b.clockClass, b.accuracy, b.variance, b.priority2, b.gmId, b.stepsRemoved]
  decide (ka < kb)

/-- The port selected next: the present one stays unless it has no master or a worse one (R59). -/
def selectPort (sel : Nat) (b1 b2 : Option PtpAnnounce) : Nat :=
  match b1, b2 with
  | none, none => 0
  | some _, none => 1
  | none, some _ => 2
  | some a, some b => if sel = 2 then (if annBetter a b then 1 else 2) else (if annBetter b a then 2 else 1)

/-- What the device reports of its master (R36, R56, R60, R68). -/
def Dev.gmReport (d : Dev) (a : PtpAnnounce) : Dev :=
  let old := d.getF PTP_GM_ID_HI_ID * 2 ^ 32 + d.getF PTP_GM_ID_LO_ID
  let d := if old ≠ 0 ∧ old ≠ a.gmId then d.evt PTP_EVT_GM_CHANGE else d
  let d := (d.wrN addr_PTP_GM_ID_LO (a.gmId % 2 ^ 32)).wrN addr_PTP_GM_ID_HI (a.gmId / 2 ^ 32)
  let d := d.wrN addr_PTP_GM_INFO (a.timeSource % 256 * 2 ^ 24 + a.clockClass % 256 * 2 ^ 16 + a.stepsRemoved % 65536)
  let d := d.wrN addr_PTP_UTC (b2n a.utcValid * 65536 + ofSigned 16 a.utcOffset)
  let d := d.setB PTP_STAT_C37_TLV a.tlv.isSome
  (d.wrN addr_PTP_GM_TTI (a.tlv.getD 0)).setF PTP_STAT_GM_VALID 1

/-- PTP port state code (R68). -/
def Dev.ptpCode (d : Dev) (n sel : Nat) : Nat :=
  if !d.ptpOn n then 0 else if sel = n then 3 else if (d.ptpPort n).best.isSome then 4 else 1

/-- The best Announce of a port that PTP runs on. -/
def Dev.bestOn (d : Dev) (n : Nat) : Option PtpAnnounce := if d.ptpOn n then (d.ptpPort n).best else none

/-- The port to select. -/
def Dev.selNext (d : Dev) : Nat := selectPort (d.getF PTP_STAT_SEL_PORT) (d.bestOn 1) (d.bestOn 2)

/-- A change from one port to the other is flagged and counted (R59). -/
def Dev.selSwitch (d : Dev) (sel : Nat) : Dev :=
  if d.getF PTP_STAT_SEL_PORT ≠ 0 ∧ sel ≠ 0 ∧ sel ≠ d.getF PTP_STAT_SEL_PORT then
    (d.evt PTP_EVT_PORT_SWITCH).bump PTP_PORT_SWITCHES
  else d

/-- Port `sel` is selected: port states and the master reported (R59, R68). -/
def Dev.selShow (d : Dev) (sel : Nat) : Dev :=
  let d := (((d.selSwitch sel).setF PTP_STAT_SEL_PORT sel).setF PTP_STAT_P1_STATE (d.ptpCode 1 sel)).setF PTP_STAT_P2_STATE (d.ptpCode 2 sel)
  match (if sel = 0 then none else d.bestOn sel) with
  | some a => d.gmReport a
  | none => d.setF PTP_STAT_GM_VALID 0

/-- What was collected in a state is dropped with it. -/
def Dev.measDrop (d : Dev) : Dev := { d with tbs := { d.tbs with meas := [] } }

/-- Holdover begins: nothing counted in it yet. -/
def Dev.hoBegin (d : Dev) : Dev := { d with tbs := { d.tbs with overs := 0, goods := 0, hoStart := d.time, hoOver := false } }

/-- The timebase follows the selection (R37). -/
def Dev.selFollow (d : Dev) (sel : Nat) : Dev :=
  if sel ≠ 0 ∧ d.tbsState = tbsUnset ∧ d.bit TBS_CTRL_MODE = false then d.measDrop.tbsEnter tbsAcquire
  else if sel = 0 ∧ d.tbsState = tbsAcquire then d.measDrop.tbsEnter tbsUnset
  else if sel = 0 ∧ d.tbsState = tbsLocked then (d.hoBegin.tbsEnter tbsHoldover).evt TBS_EVT_HOLDOVER
  else d

/-- Selection, port states and the timebase follow the masters heard (R37, R59). -/
def Dev.ptpSelect (d : Dev) : Dev := (d.selShow d.selNext).selFollow d.selNext

/-- An Announce message (R58, R59). -/
def announceRx (m : PtpAnnounce) (d : Dev) : Dev :=
  if !d.ptpOn m.port then d
  else
    let d := d.bump (NET_RX (m.port - 1))
    if m.domain ≠ d.getF PTP_CTRL_DOMAIN then d
    else if !m.ptpTimescale then (d.evt PTP_EVT_ARB_IGNORED).bump PTP_ARB_IGNORED
    else
      let x := d.ptpPort m.port
      let take := match x.best with
        | none => true
        | some b => decide (b.src = m.src) || annBetter m b
      if take then (d.setPtpPort m.port { x with best := some m }).ptpSelect else d

/-- No Announce for three intervals on a port (R37, R59, R68). -/
def announceTimeout (n : Nat) (d : Dev) : Dev :=
  if !d.ptpOn n then d
  else
    let d := (d.evt (if n = 1 then PTP_EVT_P1_ANN_TMO else PTP_EVT_P2_ANN_TMO)).bump PTP_ANN_TMO
    (d.setPtpPort n { d.ptpPort n with best := none, sync := none }).ptpSelect

/-! ### Timestamp queues (R62 to R65) -/

/-- The queue registers show the head entry and the count (R64, R68). -/
def Dev.showQueues (d : Dev) (n : Nat) : Dev :=
  let x := d.ptpPort n
  let idw := fun (q : List TsEntry) => match q with
    | [] => 0
    | e :: _ => 2 ^ 31 + q.length * 2 ^ 24 + e.mtype % 16 * 2 ^ 16 + e.seq % 65536
  let tm := fun (q : List TsEntry) => (q.head?.map (·.time)).getD 0
  let car := (x.rxq.head?.map fun e => ofSigned 96 e.car).getD 0
  let i := n - 1
  let put := fun (d : Dev) (a t : Nat) => ((d.wrN a (timeLo t)).wrN (a + 4) (timeHi t)).wrN (a + 8) (timeFr t)
  let d := (d.wrN (addr_PTP_TSQ_ID i) (idw x.tsq)).wrN (addr_PTP_RXQ_ID i) (idw x.rxq)
  put (put (put d (addr_PTP_TSQ_NS i 0) (tm x.tsq)) (addr_PTP_RXQ_IN i 0) (tm x.rxq)) (addr_PTP_RXQ_CAR i 0) car

def Dev.tsqPush (d : Dev) (n : Nat) (e : TsEntry) : Dev :=
  let x := d.ptpPort n
  if 32 ≤ x.tsq.length then
    (d.evt (if n = 1 then PTP_EVT_P1_TSQ_OVF else PTP_EVT_P2_TSQ_OVF)).bump (PTP_TSQ_LOST (n - 1))
  else (d.setPtpPort n { x with tsq := x.tsq ++ [e] }).showQueues n

def Dev.rxqPush (d : Dev) (n : Nat) (e : TsEntry) : Dev :=
  if !d.extServo then d
  else
    let x := d.ptpPort n
    if 32 ≤ x.rxq.length then
      (d.evt (if n = 1 then PTP_EVT_P1_RXQ_OVF else PTP_EVT_P2_RXQ_OVF)).bump (PTP_RXQ_LOST (n - 1))
    else (d.setPtpPort n { x with rxq := x.rxq ++ [e] }).showQueues n

/-- A write of 1 removes the head entry; on an empty queue it has no effect (R64). -/
def tsqPopEffect (n : Nat) (v : Word) : WEff := fun d =>
  let x := d.ptpPort n
  (true, if v.toNat % 2 = 1 then (d.setPtpPort n { x with tsq := x.tsq.tail }).showQueues n else d)

def rxqPopEffect (n : Nat) (v : Word) : WEff := fun d =>
  let x := d.ptpPort n
  (true, if v.toNat % 2 = 1 then (d.setPtpPort n { x with rxq := x.rxq.tail }).showQueues n else d)

/-! ### Measurements (R44 to R47) -/

def Dev.jumpLim (d : Dev) : Nat := nsU (d.getF PTP_JUMP_LIM_NS)

/-- Four consecutive measurements within the limit in HOLDOVER end it (R37). -/
def Dev.holdoverMeasure (d : Dev) (ok : Bool) : Dev :=
  let g := if ok then d.tbs.goods + 1 else 0
  if 4 ≤ g then
    let d := { d with tbs := { d.tbs with goods := 0, overs := 0, hoOver := false } }
    ((d.setF TBS_STAT_REFUSED 0).tbsEnter tbsLocked).evt TBS_EVT_LOCKED
  else { d with tbs := { d.tbs with goods := g } }

/-- An over-limit measurement of the run is noted: the increment before the first is held (R45). -/
def Dev.overNoted (d : Dev) : Dev :=
  let d := { d with tbs := { d.tbs with overs := d.tbs.overs + 1, held := if d.tbs.overs = 0 then d.tbs.incr else d.tbs.held } }
  (d.evt PTP_EVT_OUTLIER).bump PTP_OUTLIERS

/-- The held increment is back in force. -/
def Dev.heldBack (d : Dev) : Dev := { d.hoBegin with tbs := { d.hoBegin.tbs with incr := d.tbs.held, incrNew := none } }

/-- The jump is refused (R46). -/
def Dev.jumpRefused (d : Dev) : Dev :=
  let d := (d.heldBack.tbsEnter tbsHoldover).evt TBS_EVT_HOLDOVER
  (((d.evt TBS_EVT_JUMP_REFUSED).setF TBS_STAT_REFUSED 1).bump TBS_JUMPS_REFUSED).logEvt 4 1 []

/-- A measurement in LOCKED under the internal servo (R45, R46): tracking writes an increment of the servo's own (a free value). -/
def Dev.lockedMeasure (d : Dev) (exceeds : Bool) : Dev :=
  if !exceeds then
    let d := { d with tbs := { d.tbs with overs := 0 } }
    let r := d.free (2 ^ 36)
    r.2.transferIncr r.1
  else if d.tbs.overs + 1 < 4 then d.overNoted
  else d.overNoted.jumpRefused

/-- A measurement in ACQUIRE under the internal servo: four within the limit of each other step the timebase, by an offset the servo
decides (a free value) (R37, R61). -/
def Dev.acquireMeasure (d : Dev) (off : Int) : Dev :=
  let m := (off :: d.tbs.meas).take 4
  let d := { d with tbs := { d.tbs with meas := m } }
  let hi := m.foldl max off
  let lo := m.foldl min off
  if m.length = 4 ∧ hi - lo ≤ d.jumpLim then
    let r := d.free (2 ^ 96)
    r.2.stepBy (toSigned 96 r.1)
  else d

/-- A valid measurement (R45 to R47). -/
def Dev.measure (d : Dev) (off : Int) : Dev :=
  let d := d.wrN addr_PTP_OFFSET (ofSigned 32 (clampInt (-(2 ^ 31 - 1)) (2 ^ 31 - 1) (off / 2 ^ 32)))
  let exceeds := decide ((d.jumpLim : Int) < off.natAbs)
  let st := d.tbsState
  if st = tbsHoldover then d.holdoverMeasure (!exceeds)
  else if d.extServo then d
  else if st = tbsLocked then d.lockedMeasure exceeds
  else if st = tbsAcquire then d.acquireMeasure off
  else d

/-- A completed Sync with its ingress time: a receive entry, and on the selected port a measurement (R44, R59, R63). -/
def Dev.syncDone (d : Dev) (n seq tIn : Nat) (carried : Int) : Dev :=
  let d := d.rxqPush n ⟨0, seq, tIn, carried⟩
  if d.getF PTP_STAT_SEL_PORT ≠ n then d
  else
    let x := d.ptpPort n
    match x.delay with
    | some dl =>
      if x.reqSince ≤ 4 then d.measure ((tIn : Int) - carried - dl) else (d.evt PTP_EVT_NO_PDELAY).bump PTP_NO_PDELAY_CNT
    | none => (d.evt PTP_EVT_NO_PDELAY).bump PTP_NO_PDELAY_CNT

/-- The sender is the port's master in the configured domain. -/
def Dev.fromMaster (d : Dev) (m : PtpMsg) : Bool :=
  decide (m.domain = d.getF PTP_CTRL_DOMAIN) && (match (d.ptpPort m.port).best with
    | some b => decide (b.src = m.src)
    | none => false)

def syncRx (m : PtpMsg) (d : Dev) : Dev :=
  if !d.ptpOn m.port then d
  else
    let d := d.bump (NET_RX (m.port - 1))
    if !d.fromMaster m then d
    else
      let t := d.ptpIn m.port m.tIn
      if m.twoStep then d.setPtpPort m.port { d.ptpPort m.port with sync := some (m, t) }
      else d.syncDone m.port m.seq t (m.origin + m.corr)

def followUpRx (m : PtpMsg) (d : Dev) : Dev :=
  if !d.ptpOn m.port then d
  else
    let d := d.bump (NET_RX (m.port - 1))
    let x := d.ptpPort m.port
    match x.sync with
    | some (y, t) =>
      if y.seq = m.seq ∧ y.src = m.src ∧ y.domain = m.domain then
        (d.setPtpPort m.port { x with sync := none }).syncDone m.port m.seq t (m.origin + y.corr + m.corr)
      else d
    | none => d

/-! ### Peer delay (R56, R62, R63) -/

def pdelayReqSend (n seq t : Nat) (d : Dev) : Dev :=
  if !d.ptpOn n then d
  else
    let t := d.ptpOut n t
    let x := d.ptpPort n
    let d := d.setPtpPort n { x with req := some (seq, t), resp := none, reqSince := x.reqSince + 1 }
    (d.netSend .ptp n [2, seq]).tsqPush n ⟨2, seq, t, 0⟩

/-- The answer is a one-step Pdelay_Resp, which makes no queue entry (R56, R62). -/
def pdelayReqRx (n seq src : Nat) (d : Dev) : Dev :=
  if d.ptpOn n then (d.bump (NET_RX (n - 1))).netSend .ptp n [3, seq, src] else d

/-- A completed exchange: the mean path delay and its receive entry (R44, R63). -/
def Dev.pdelayDone (d : Dev) (n seq t4 : Nat) (turn : Int) : Dev :=
  let x := d.ptpPort n
  match x.req with
  | some (q, t1) =>
    if q = seq then
      let dl := ((t4 : Int) - t1 - turn) / 2
      let d := d.setPtpPort n { x with req := none, resp := none, delay := some dl, reqSince := 0 }
      let d := d.wrN (if n = 1 then addr_PTP_P1_PDELAY else addr_PTP_P2_PDELAY) (ofSigned 32 (dl / 2 ^ 28))
      d.rxqPush n ⟨3, seq, t4, turn⟩
    else d
  | none => d

def pdelayRespRx (m : PtpMsg) (d : Dev) : Dev :=
  if !d.ptpOn m.port then d
  else
    let d := d.bump (NET_RX (m.port - 1))
    let t := d.ptpIn m.port m.tIn
    if m.twoStep then
      let x := d.ptpPort m.port
      if x.req.any (fun r => decide (r.1 = m.seq)) then d.setPtpPort m.port { x with resp := some (m, t) } else d
    else d.pdelayDone m.port m.seq t (m.origin + m.corr)

def pdelayRespFollowUpRx (m : PtpMsg) (d : Dev) : Dev :=
  if !d.ptpOn m.port then d
  else
    let d := d.bump (NET_RX (m.port - 1))
    match (d.ptpPort m.port).resp with
    | some (y, t) =>
      if y.seq = m.seq ∧ y.src = m.src then d.pdelayDone m.port m.seq t (m.origin - y.origin + y.corr + m.corr) else d
    | none => d

/-- Reading PTP_GM_ID_LO latches GM_ID_HI for the path (R68, R460). -/
def gmIdLoRead (pn : Nat) (d : Dev) : Word × Dev :=
  (d.rd addr_PTP_GM_ID_LO, d.setLatch pn addr_PTP_GM_ID_HI (d.rd addr_PTP_GM_ID_HI).toNat)

/-! ### The commands -/

/-- STEP_GO (R61). -/
def execStepGo (p : Path) (s : State) : Host.Outcome State Fault Refusal :=
  .next (s.writeRow p addr_TBS_STEP 1 Dev.stepRefused stepGoEffect)

/-- SYNC (R44, R45). -/
def execSync (m : PtpMsg) (s : State) : Host.Outcome State Fault Refusal := .next (s.onDev (syncRx m))

/-- FOLLOW_UP (R45). -/
def execFollowUp (m : PtpMsg) (s : State) : Host.Outcome State Fault Refusal := .next (s.onDev (followUpRx m))

/-- ANNOUNCE (R58, R59). -/
def execAnnounce (m : PtpAnnounce) (s : State) : Host.Outcome State Fault Refusal := .next (s.onDev (announceRx m))

/-- ANNOUNCE_RECEIPT_TIMEOUT (R37, R59). -/
def execAnnounceReceiptTimeout (port : Nat) (s : State) : Host.Outcome State Fault Refusal := .next (s.onDev (announceTimeout port))

/-- PDELAY_REQ_SEND (R62). -/
def execPdelayReqSend (port seq t : Nat) (s : State) : Host.Outcome State Fault Refusal := .next (s.onDev (pdelayReqSend port seq t))

/-- PDELAY_REQ (R56). -/
def execPdelayReq (port seq src : Nat) (s : State) : Host.Outcome State Fault Refusal := .next (s.onDev (pdelayReqRx port seq src))

/-- PDELAY_RESP (R63). -/
def execPdelayResp (m : PtpMsg) (s : State) : Host.Outcome State Fault Refusal := .next (s.onDev (pdelayRespRx m))

/-- PDELAY_RESP_FOLLOW_UP (R63). -/
def execPdelayRespFollowUp (m : PtpMsg) (s : State) : Host.Outcome State Fault Refusal := .next (s.onDev (pdelayRespFollowUpRx m))

/-- TSQ_POP (R64). -/
def execTsqPop (p : Path) (port : Nat) (s : State) : Host.Outcome State Fault Refusal :=
  .next (s.inst (decide (1 ≤ port ∧ port ≤ 2)) fun s => s.writeRow p (addr_PTP_TSQ_POP (port - 1)) 1 id (tsqPopEffect port 1))

/-- RXQ_POP (R64). -/
def execRxqPop (p : Path) (port : Nat) (s : State) : Host.Outcome State Fault Refusal :=
  .next (s.inst (decide (1 ≤ port ∧ port ≤ 2)) fun s => s.writeRow p (addr_PTP_RXQ_POP (port - 1)) 1 id (rxqPopEffect port 1))

/-- GM_ID_LO_READ (R68, R460). -/
def execGmIdLoRead (p : Path) (s : State) : Host.Outcome State Fault Refusal :=
  .next (s.readRow p addr_PTP_GM_ID_LO (gmIdLoRead (pathNo p)))

end Sys2Proof.Machine
end

