-- ==== Sys2Proof/Machine/Mooring.lean ====
section
/-! DEFINITION. Mooring: active and standby pairs (spec/13_mooring.md). The PERIOD frame's commands are applied in Frames.lean. -/

namespace Sys2Proof.Machine

/-! ### Epochs (R361, R362, R364) -/

/-- The epoch after `e`: 1 to 65,535, skipping 0. -/
def nextEpoch (e : Nat) : Nat := if 65535 ≤ e then 1 else e + 1

/-- `a` comes after `b` as 16-bit serial numbers that skip 0; anything comes after none. -/
def epochAfter (a b : Nat) : Bool :=
  if a = 0 then false else if b = 0 then true
  else let x := (a + 65535 - b) % 65535; decide (1 ≤ x ∧ x ≤ 32767)

def epochMax (a b : Nat) : Nat := if epochAfter b a then b else a

/-- E_max (R362). -/
def Dev.eMax (d : Dev) : Nat := epochMax (epochMax (d.getF MOR_STAT_EPOCH) (d.getF MOR_PEER_EPOCH)) d.mor.tlmMax

def Dev.roleB (d : Dev) : Bool := d.bit MOR_STAT_ROLE

/-- A new E_h; a change is the lease trigger of the Manifest (R442). -/
def Dev.setEpoch (d : Dev) (e : Nat) : Dev :=
  if d.getF MOR_STAT_EPOCH = e then d else (d.setF MOR_STAT_EPOCH e).mftTrigger 3 e

/-- A mooring state; entering or leaving HOLDER is a lease trigger (R442). -/
def Dev.setMor (d : Dev) (st : Nat) : Dev :=
  let was := d.morState
  let d := d.setF MOR_STAT_STATE st
  if (was = morHolder) ≠ (st = morHolder) then d.mftTrigger 3 (d.getF MOR_STAT_EPOCH) else d

/-- The bond is UP and the pairing check has passed: the partner counts (R351). -/
def Dev.peerUp (d : Dev) : Bool := decide (d.bondState = 2) && d.bit MOR_PEER_PAIR_OK

def Dev.peerState (d : Dev) : Nat := d.getF MOR_PEER_STATE

/-- A frame of the mooring link leaves on M0–M3 while the bond is UP, through the fault injection of each of the four lanes (R95). -/
def Dev.sendMor (d : Dev) (ws : List Nat) : Dev :=
  if d.bondState = 2 ∧ (List.range 4).all (fun m => d.txUp (64 + m)) then
    let r := (List.range 4).foldl (fun (acc : List Out × Dev) m =>
      acc.1.foldl (fun (a : List Out × Dev) o =>
        let x := a.2.fiTx (64 + m) 0 o
        (a.1 ++ x.1, x.2)) ([], acc.2)) ([⟨.pairFrame, 64, ws⟩], d)
    { r.2 with sent := r.1.reverse ++ r.2.sent }
  else d

/-! ### States (R359, R362, R364) -/

/-- The device becomes HOLDER with the next epoch. -/
def Dev.takePainter (d : Dev) : Dev :=
  let e := nextEpoch d.eMax
  let d : Dev := { d with mor := { d.mor with resync := false } }
  (((d.setEpoch e).setMor morHolder).evt MOR_EVT_TAKEOVER).busTakeover

/-- HOLDER by a lost partner (R362). -/
def Dev.takeOver (d : Dev) : Dev := (d.takePainter.bump MOR_TAKEOVERS).logEvt 21 1 []

def Dev.becomeUnfit (d : Dev) (why : Nat) : Dev :=
  let d := (((d.setMor morUnfit).setF MOR_STAT_WHY (min 3 why)).evt MOR_EVT_UNFIT).logEvt 21 5 []
  if why = 4 then d.evt MOR_EVT_THROTTLE else d

/-- The holder yields (R362, R364): it stops sending at the next S(k). -/
def Dev.yieldHold (d : Dev) : Dev :=
  let d := { d with mor := { d.mor with tail := true, ho := none } }
  let d := ((d.setMor morStandby).setF MOR_STAT_DIVERGED 1).evt MOR_EVT_YIELD
  (d.bump MOR_YIELDS).logEvt 21 2 []

/-- A resynchronisation begins (R362, R368). -/
def Dev.startSync (d : Dev) : Dev :=
  let d := { d with mor := { d.mor with resync := false, claim := false, ho := none } }
  ((d.setMor morSync).setF MOR_SYNC_PHASE 1).setF MOR_SYNC_PROG 0

def Dev.syncFail (d : Dev) : Dev :=
  ((((d.setMor morStart).setF MOR_SYNC_PHASE 0).setF MOR_SYNC_PROG 0).evt MOR_EVT_SYNC_FAIL).bump MOR_SYNC_FAIL

/-! ### Planned hand-over (R367) -/

def Dev.hoRefuse (d : Dev) : Dev := (d.evt MOR_EVT_HO_REFUSED).bump MOR_HO_REFUSED

/-- A planned hand-over starts, or the holder refuses it. The spec does not say which period is named: h is free, after the present
one. Whether it starts, and the device. -/
def Dev.startHandover (d : Dev) : Bool × Dev :=
  if d.mor.ho.isSome then (true, d)
  else if d.peerUp ∧ d.peerState = morStandby ∧ d.mor.peerMis = 0 then
    let r := d.free 0
    let h := d.per.k + 1 + r.1
    (true, { r.2 with mor := { r.2.mor with ho := some h } }.sendMor [4, h])
  else (false, d.hoRefuse)

/-- LEASE_PERIODS. -/
def Dev.leaseL (d : Dev) : Nat := d.getF TWL_EPCFG_LEASE_PERIODS

/-- The conditions of R362 and R367 that follow from what the device knows of its partner. A device that takes the Painter at the next
S(k) begins no resynchronisation before (log entry 43). -/
def Dev.morEval (d : Dev) : Dev :=
  if !d.paired then d
  else
    let d := if d.bondState = 2 then d
      else { d.setF MOR_PEER_PAIR_OK 0 with mor := { d.mor with peer := none } }
    let up := d.peerUp
    let ph := decide (d.peerState = morHolder)
    let st := d.morState
    let d :=
      if st = morStart ∧ up ∧ ph then d.startSync
      else if st = morStart ∧ up ∧ d.peerState = morStart ∧ !d.roleB then (d.setEpoch (nextEpoch d.eMax)).setMor morHolder
      else if st = morSync ∧ !(up && ph) then d.syncFail
      else if (st = morStandby ∨ st = morUnfit) ∧ !d.mor.claim ∧ up ∧ ph ∧
          (d.mor.resync ∨ st = morUnfit ∨ (d.bit MOR_STAT_DIVERGED ∧ d.bit MOR_CFG_AUTO_RESYNC)) then d.startSync
      else d
    let d := if d.morState = morStandby ∧ 3 ≤ d.getF THM_STAT_STATE then d.becomeUnfit 4 else d
    if d.morState = morHolder ∧ d.bit MOR_CFG_LANE_HO ∧ d.mor.laneLost ≠ [] then
      let hit := d.mor.laneLost.any fun n => !(d.laneCells n).isEmpty && (d.laneCells n).all d.mor.peerFresh.contains
      let d := { d with mor := { d.mor with laneLost := [] } }
      if hit then d.startHandover.2 else d
    else { d with mor := { d.mor with laneLost := [] } }

/-! ### The pairing check (R351) -/

def Dev.pairCheck (d : Dev) : Dev :=
  match d.mor.peer with
  | none => d
  | some (rb, st, fw, id) =>
    if rb ≠ d.roleB ∧ st = fldGet 16 8 (d.rd addr_MGT_ID) ∧ fw = d.getF BOT_FWVER ∧ id = d.mor.ident then
      ((d.setF MOR_PEER_PAIR_OK 1).setB MOR_PEER_ROLE rb).morEval
    else
      let d := ((d.setF MOR_PEER_PAIR_OK 0).setB MOR_PEER_ROLE rb).evt MOR_EVT_PAIR_FAULT
      ((d.bump MOR_PAIR_FAULT).logEvt 21 9 []).morEval

def pairFrame (f : PairFrame) (d : Dev) : Dev :=
  if !d.paired ∨ d.bondState ≠ 2 then d
  else
    let d := { d with mor := { d.mor with peer := some (f.roleB, f.stepping, f.fw, f.ident) } }
    ((d.setF MOR_PEER_STATE f.state).setF MOR_PEER_EPOCH f.epoch).pairCheck

def pairingCheck (d : Dev) : Dev :=
  if !d.paired ∨ d.bondState ≠ 2 then d
  else
    (d.sendMor [0, b2n d.roleB, fldGet 16 8 (d.rd addr_MGT_ID), d.getF BOT_FWVER, d.mor.ident, d.morState,
      d.getF MOR_STAT_EPOCH]).pairCheck

/-! ### Telemetry (R362 to R364, R366, R371) -/

/-- A cell's last accepted telemetry reports obeying the partner, or this device. -/
def Dev.obeysPartner (d : Dev) (c : Nat) : Bool := let x := d.cell c; decide (x.epoch ≠ 0) && (x.obeysB != d.roleB)
def Dev.obeysOwn (d : Dev) (c : Nat) : Bool := let x := d.cell c; decide (x.epoch ≠ 0) && (x.obeysB == d.roleB)

/-- MOR_OBEY, MOR_OBEYP and SPLIT (R364, R371). -/
def Dev.morShow (d : Dev) : Dev :=
  if !d.paired then d
  else
    let b := d.cells.filter fun c => decide (d.cellState c = cellBoarded)
    let pt := b.filter d.obeysPartner
    let d := (d.setF MOR_OBEY_PARTNER pt.length).setF MOR_OBEY_OWN (b.filter d.obeysOwn).length
    let d := forN 8 (fun i d => d.wrN (addr_MOR_OBEYS i)
      ((pt.filter fun c => decide (c / 32 = i)).map fun c => 2 ^ (c % 32)).sum) d
    let split := decide (d.morState = morHolder) && !pt.isEmpty
    let d := if split && !d.bit MOR_STAT_SPLIT then (d.evt MOR_EVT_SPLIT).bump MOR_SPLITS else d
    d.setB MOR_STAT_SPLIT split

/-- An accepted TLM frame of cell `c` (R362 to R364). -/
def Dev.morTlm (d : Dev) (c exec : Nat) : Dev :=
  if !d.paired then d
  else
    let x := d.cell c
    let pt := d.obeysPartner c
    let d := { d with mor := { d.mor with tlmMax := epochMax d.mor.tlmMax x.epoch,
                                          drive := d.mor.drive || (pt && decide (exec = 1 ∨ exec = 2)) } }
    let e := d.getF MOR_STAT_EPOCH
    let d := if d.morState = morHolder ∧ pt ∧ (epochAfter x.epoch e ∨ (x.epoch = e ∧ d.roleB)) then d.yieldHold else d
    d.morShow

/-! ### Lease frames (R133, R134, R365) -/

def leaseRenew : Nat := 0
def leaseClaim : Nat := 1
def leaseKeep : Nat := 2

/-- A LEASE frame on cell lane `n`. -/
def Dev.sendLease (d : Dev) (n kind : Nat) : Dev :=
  let w0 := d.getF MOR_STAT_EPOCH * 2 ^ 8 + d.getF TWL_HORN_HSEQ
  d.sendLane .lease n 4 (withCheck [frameStart w0 d.twl.seqLease 1 (kind + 4 * b2n d.roleB) 0 6 2, d.latched16])

/-- The version 2 cell lanes. -/
def Dev.v2Lanes (d : Dev) : List Nat := (List.range 64).filter fun n => !(d.laneCells n).isEmpty && decide (d.laneVer n = 2)

def Dev.leaseSeq (d : Dev) : Dev := { d with twl := { d.twl with seqLease := (d.twl.seqLease + 1) % 256 } }

/-- CLAIM at S(k), before the fallback schedules (R365). -/
def Dev.sendClaims (d : Dev) : Dev :=
  if !d.drives then d
  else
    let e := d.getF MOR_STAT_EPOCH
    let ls := d.v2Lanes.filter fun n => (d.laneCells n).any fun c =>
      decide (d.cellState c = cellBoarded) && (decide ((d.cell c).epoch ≠ e) || (d.paired && ((d.cell c).obeysB != d.roleB)))
    if ls.isEmpty then d else ls.foldl (fun d n => d.sendLease n leaseClaim) d.leaseSeq

/-- RENEW or KEEPALIVE, after the fallback schedules (R365); no RENEW from period h of a planned hand-over on (R367). -/
def Dev.sendLeases (d : Dev) : Dev :=
  let stop := match d.mor.ho with | some h => decide (h ≤ d.per.k) | none => false
  if d.drives then (if stop then d else d.v2Lanes.foldl (fun d n => d.sendLease n leaseRenew) d.leaseSeq)
  else d.v2Lanes.foldl (fun d n => d.sendLease n leaseKeep) d.leaseSeq

/-! ### Digests (R358, R359) -/

/-- The digest of the period (R358). -/
def Dev.digest (d : Dev) : Nat :=
  let w := fun a => leBytes 4 (d.mw a).toNat
  crc64 (((List.range 256).flatMap fun c => (List.range 6).flatMap fun i => w (0x78000 + 8 * c + i)) ++
    ((List.range 16).flatMap fun g => (List.range 6).flatMap fun i => w (0x78800 + 8 * g + i)) ++
    ((List.range 256).map fun c => d.member c) ++
    ((List.range 32).flatMap fun n => w (0x60A80 + n) ++ w (0x60AA0 + n)))

/-- At S(k) + φout (R358). -/
def Dev.morDigest (d : Dev) : Dev := if d.paired then { d with mor := { d.mor with dig := d.digest } } else d

/-- The partner's digest of the period before is compared (R359, R371). -/
def Dev.morCompare (d : Dev) (theirs : Nat) : Dev :=
  let own := d.mor.digPrev
  let d := (((d.wrN addr_MOR_DIG_LO (own % 2 ^ 32)).wrN addr_MOR_DIG_HI (own / 2 ^ 32)).wrN addr_MOR_PDIG_LO (theirs % 2 ^ 32)).wrN
    addr_MOR_PDIG_HI (theirs / 2 ^ 32)
  let d := d.wrN addr_MOR_DIG_K (unitsOf125 d.mor.skPrev / 2 ^ 32 % 2 ^ 32)
  if own = theirs then d.setF MOR_STAT_MIS_CONSEC 0
  else
    let n := min 255 (d.getF MOR_STAT_MIS_CONSEC + 1)
    let d := ((d.setF MOR_STAT_MIS_CONSEC n).evt MOR_EVT_MISMATCH).bump MOR_MISMATCH
    if d.getF MOR_CFG_MIS_LIM ≤ n then d.becomeUnfit 1 else d

/-- What a PERIOD frame says about the partner, the mirrored inputs and the digests (R353, R359, R364); commands apart. -/
def Dev.periodFrame (d : Dev) (f : PeriodFrame) : Dev :=
  let d := (d.setF MOR_PEER_STATE f.state).setF MOR_PEER_EPOCH f.epoch
  let d := { d with mor := { d.mor with hb := true, peerMis := f.mis, peerFresh := f.fresh } }
  let d : Dev :=
    if d.morState = morStandby ∧ f.state = morHolder then
      let d : Dev := { d with mor := { d.mor with mirrored := true }, mod := { d.mod with corr2 := f.corr } }
      let d := forN 64 (fun i d => match f.sar[i]? with | some v => d.setMw (0x60940 + i) v | none => d) d
      let d := forN 256 (fun i d => match f.sv[i]? with | some v => d.setMw (0x60980 + i) v | none => d) d
      let d := f.goose.foldl (fun d g =>
        let d := (d.wrN (addr_GSE_PUB_STNUM g.1) g.2.1).wrN (addr_GSE_PUB_SQNUM g.1) g.2.2.1
        d.setGsePub g.1 { d.gsePub g.1 with data := some g.2.2.2 }) d
      let d := if d.per.running then d.morCompare f.digest else d
      if d.morState = morStandby ∧ d.per.running ∧ f.sk ≠ d.per.sk then d.becomeUnfit 2 else d
    else d
  let d := if d.morState = morHolder ∧ f.state = morHolder ∧ d.roleB then d.yieldHold else d
  d.morEval

/-- The device's own PERIOD frame at S(k) + TLM_DUE (R351, R353). -/
def Dev.sendPeriod (d : Dev) : Dev :=
  if !d.paired then d
  else
    let cmds := d.mor.out.flatMap fun c => [c.1, c.2.toNat]
    let hold := if d.morState = morHolder then
        ((List.range 64).map fun i => (d.mw (0x60940 + i)).toNat) ++ ((List.range 256).map fun i => (d.mw (0x60980 + i)).toNat) ++
          [ofSigned 2 d.mod.corr2] ++ cmds
      else []
    { d.sendMor ([1, d.morState, d.getF MOR_STAT_EPOCH, d.per.sk, d.mor.digPrev] ++ hold) with mor := { d.mor with out := [] } }

/-! ### The mooring deadline (R353, R363) -/

/-- The standby's own values, where no mirrored inputs came (R353). -/
def Dev.ownInputs (d : Dev) : Dev :=
  let d := forN 64 (fun s d => d.setMwN (0x60940 + s) (d.getF (SAR_CH_VAL s))) d
  forN 256 (fun i d => if d.bit (SVX_SLOT_CFG_EN i) then d.setMwN (0x60980 + i) (d.getF (SVX_SLOT_VAL i)) else d) d

def mooringDeadline (d : Dev) : Dev :=
  if !d.paired ∨ !d.per.running then d
  else
    let d := if d.mor.hb then d else d.bump MOR_HB_MISS
    let lost := !d.mor.hb && !d.mor.drive
    let d := { d with mor := { d.mor with lost := lost } }
    let d := if lost then d.evt MOR_EVT_PARTNER_LOST else d
    let st := d.morState
    let d := if lost ∧ !d.bit MOR_CTRL_NOCLAIM ∧ (st = morStandby ∨ (st = morUnfit ∧ d.bit MOR_CFG_UNFIT_CLAIM)) then
        { d with mor := { d.mor with claim := true } } else d
    if st = morStandby ∧ !d.mor.mirrored then (d.ownInputs.setF MOR_STAT_DIVERGED 1).morEval else d

/-- At S(k) (R362, R364, R366, R367): a claim or a hand-over falls due, SPLIT is counted, the flags of the period restart. -/
def Dev.morSample (d : Dev) : Dev :=
  if !d.paired then d
  else
    let d := if d.mor.claim ∧ (d.morState = morStandby ∨ d.morState = morUnfit) then d.takeOver else d
    let d := match d.mor.ho with
      | some h =>
        if h + d.leaseL ≤ d.per.k + 1 then
          let d := { d with mor := { d.mor with ho := none } }
          if d.morState = morHolder then d.setMor morStandby
          else if d.morState = morStandby then (d.takePainter.bump MOR_HANDOVERS).logEvt 21 1 []
          else d
        else d
      | none => d
    let hdl := d.bit HLM_STAT_HDL
    let d := if hdl ∧ !d.mor.hdlSeen ∧ d.bit MOR_CFG_HDL_HO ∧ d.morState = morHolder then d.startHandover.2 else d
    let d := d.morShow
    let n := if d.bit MOR_STAT_SPLIT then d.mor.splitN + 1 else 0
    let lim := d.getF MOR_CFG_SPLIT_TRIP
    let on : Bool := decide (lim ≠ 0 ∧ lim < n)
    let d := { d with mor := { d.mor with claim := false, tail := false, hdlSeen := hdl, splitN := n, hb := false, mirrored := false,
                                          drive := false, digPrev := d.mor.dig } }
    if on = d.srcActive 63 then d else d.setSource 63 on

/-- The control period starts (R362): an unpaired device takes its epoch. -/
def Dev.morPeriodStart (d : Dev) : Dev := if d.morState = morSolo then d.setEpoch (nextEpoch d.eMax) else d

/-! ### Crossing and offset (R359, R360) -/

def timeFrame (rtt turn : Nat) (ofs : Int) (d : Dev) : Dev :=
  if !d.paired ∨ d.bondState ≠ 2 then d
  else
    let samples := (((rtt : Int) - turn) :: d.mor.samples).take 16
    let r := d.free (2 * samples.length)
    let sum := samples.foldl (· + ·) 0
    let mean := (sum + (r.1 : Int)) / (2 * samples.length : Nat)
    let d := { r.2 with mor := { r.2.mor with samples := samples } }
    let d := (d.setF MOR_XM_X (min (2 ^ 24 - 1) mean.toNat)).wrN addr_MOR_TOFS (ofSigned 32 ofs)
    let d := if (d.getF MOR_CFG2_XM * 2 * samples.length : Int) < sum then (d.evt MOR_EVT_XM).bump MOR_XM_OVER else d
    if d.morState = morStandby ∧ d.getF MOR_CFG2_TOFS_LIM < ofs.natAbs then (d.becomeUnfit 3).morEval else d

/-! ### Resynchronisation (R368) -/

/-- Registers that a resynchronisation transfers. -/
def syncReg (a : Nat) : Bool :=
  decide (a = addr_HLM_LOOPST) || (List.range 256).any (fun c => decide (a = addr_BLS_CELL_ST c)) ||
  (List.range 16).any (fun n => decide (a = addr_GSE_PUB_STNUM n ∨ a = addr_GSE_PUB_SQNUM n))

def Dev.syncItem (d : Dev) (i : SyncItem) : Dev :=
  match i with
  | .mem w vs => (vs.zipIdx).foldl (fun d p => if w + p.2 < 0x80000 then d.setMw (w + p.2) p.1 else d) d
  | .reg a v => if syncReg a then d.wr a v else d
  | .gwy n xs =>
    let g := fun i => xs.getD i 0
    if n < 32 then d.setGw n { d.gw n with p := g 0, v := g 1, a := g 2, np := g 3, nv := g 4, na := g 5, tgt := g 6, xh := g 7 } else d
  | .leg c l xs =>
    let k := spGet {} d.cbk.cells c
    let g := fun i => xs.getD i 0
    let h : LegHist := ⟨g 0, g 1, g 2, g 3, g 4⟩
    let hs := (List.range (max (l + 1) k.hist.length)).map fun i => if i = l then h else k.hist.getD i {}
    if l < 7 then { d with cbk := { d.cbk with cells := spSet {} d.cbk.cells c { k with hist := hs } } } else d
  | .grp n v0 tc tcPrev vals => if n < 24 then d.setGrp n { d.grp n with v0 := v0, tc := tc, tcPrev := tcPrev, vals := vals } else d
  | .arm a level order => { d with cbk := { d.cbk with applied := spSet (0, []) d.cbk.applied a (level, order) } }
  | .align c acc => { d with mod := { d.mod with c := c, acc := acc } }
  | .epoch e => d.setF MOR_PEER_EPOCH e

def syncFrame (phase prog : Nat) (items : List SyncItem) (d : Dev) : Dev :=
  if d.paired ∧ d.morState = morSync ∧ d.peerUp then
    items.foldl Dev.syncItem ((d.setF MOR_SYNC_PHASE phase).setF MOR_SYNC_PROG (min 100 prog))
  else d

/-- The first S(r) by which everything has arrived (R362, R368). -/
def resyncComplete (d : Dev) : Dev :=
  if d.paired ∧ d.morState = morSync then
    let d := ((d.setMor morStandby).evt MOR_EVT_SYNC_DONE).setF MOR_STAT_DIVERGED 0
    (((d.setF MOR_STAT_MIS_CONSEC 0).setF MOR_STAT_WHY 0).setF MOR_SYNC_PHASE 3).setF MOR_SYNC_PROG 100
  else d

/-! ### Commands of the operator and the partner (R362, R367) -/

def handoverFrame (h : Nat) (d : Dev) : Dev :=
  if d.paired ∧ d.peerUp ∧ d.morState = morStandby then { d with mor := { d.mor with ho := some h } } else d

/-- No bond for START_TMO with the partner lost (R362, R363). -/
def startTimeout (d : Dev) : Dev :=
  if d.paired ∧ d.morState = morStart ∧ d.bondState ≠ 2 ∧ !d.mor.drive then d.takePainter else d

/-- The effect of MOR_CTRL.HANDOVER (R367, R371). -/
def handoverEffect : WEff := fun d => if d.paired ∧ d.morState = morHolder then d.startHandover else (false, d)

/-- The effect of MOR_CTRL.RESYNC (R362, R371). -/
def resyncEffect : WEff := fun d =>
  if d.morState = morHolder then (false, d)
  else if d.morState = morStandby ∨ d.morState = morUnfit then (true, { d with mor := { d.mor with resync := true } }.morEval)
  else (true, d)

/-- A write of MOR_CTRL (R371): NOCLAIM takes the value; RESYNC and HANDOVER act. -/
def morCtrlEffect (v : Word) : WEff := fun d =>
  let r := if v.toNat / 2 % 2 = 1 then resyncEffect d else (true, d)
  if !r.1 then r
  else
    let q := if v.toNat % 2 = 1 then handoverEffect r.2 else (true, r.2)
    if q.1 then (true, q.2.setF MOR_CTRL_NOCLAIM (v.toNat / 4)) else q

/-- Reading MOR_DIG_LO latches the other four words for the path (R371, R460). -/
def digLoRead (pn : Nat) (d : Dev) : Word × Dev :=
  (d.rd addr_MOR_DIG_LO, [addr_MOR_DIG_HI, addr_MOR_PDIG_LO, addr_MOR_PDIG_HI, addr_MOR_DIG_K].foldl
    (fun e a => e.setLatch pn a (d.rd a).toNat) d)

/-! ### The commands -/

/-- PAIRING_CHECK (R351). -/
def execPairingCheck (s : State) : Host.Outcome State Fault Refusal := .next (s.onDev pairingCheck)

/-- MOORING_DEADLINE (R353, R363). -/
def execMooringDeadline (s : State) : Host.Outcome State Fault Refusal := .next (s.onDev mooringDeadline)

/-- RESYNC_COMPLETE (R362, R368). -/
def execResyncComplete (s : State) : Host.Outcome State Fault Refusal := .next (s.onDev resyncComplete)

/-- START_TIMEOUT (R362). -/
def execStartTimeout (s : State) : Host.Outcome State Fault Refusal := .next (s.onDev startTimeout)

/-- HANDOVER (R367). -/
def execHandover (p : Path) (s : State) : Host.Outcome State Fault Refusal :=
  let v := Nat.lor 1 (4 * s.dev.getF MOR_CTRL_NOCLAIM)
  .next (s.writeRow p addr_MOR_CTRL (BitVec.ofNat 32 v) id (morCtrlEffect (BitVec.ofNat 32 v)))

/-- RESYNC (R362). -/
def execResync (p : Path) (s : State) : Host.Outcome State Fault Refusal :=
  let v := Nat.lor 2 (4 * s.dev.getF MOR_CTRL_NOCLAIM)
  .next (s.writeRow p addr_MOR_CTRL (BitVec.ofNat 32 v) id (morCtrlEffect (BitVec.ofNat 32 v)))

/-- DIG_LO_READ (R371). -/
def execDigLoRead (p : Path) (s : State) : Host.Outcome State Fault Refusal :=
  .next (s.readRow p addr_MOR_DIG_LO (digLoRead (pathNo p)))

end Sys2Proof.Machine
end

