-- ==== Sys2Proof/Machine/Frames.lean ====
section
/-! DEFINITION. What arrives on the lanes (spec/03_lanes.md, 04_towline.md, 13_mooring.md): frames through fault injection, blocks
and BUOYs; and the lane commands that can end a boarding or move the mooring state. -/

namespace Sys2Proof.Machine

/-- The index of address `a` in an array of `n` registers from `base`, `stride` bytes apart. -/
def idxOf (a base stride n : Nat) : Option Nat :=
  if base ≤ a ∧ (a - base) % stride = 0 ∧ (a - base) / stride < n then some ((a - base) / stride) else none

/-! ### Writes that a holder carries to its standby (R354) -/

/-- Shadow and control registers of a carrier group. -/
def effGroup (a : Nat) (v : Word) : WEff :=
  let g := (a - addr_CBK_CG_CTRL 0) / (addr_CBK_CG_CTRL 1 - addr_CBK_CG_CTRL 0)
  if a = addr_CBK_CG_CTRL g then cgCtrlEffect g v
  else if a = addr_CBK_CG_SH_PER g then shadowEffect g 0 v
  else match idxOf a (addr_CBK_CG_SH_U g 0) 4 6 with
    | some i => shadowEffect g (i + 1) v
    | none => plainWrite a v

/-- Gangway registers. -/
def effGwy (a : Nat) (v : Word) : WEff :=
  match idxOf a (addr_GWY_CH_PRESET 0) (addr_GWY_CH_PRESET 1 - addr_GWY_CH_PRESET 0) 32 with
  | some n => presetEffect n v
  | none => plainWrite a v

/-- Helm engine registers and its memory window. -/
def effHlm (a : Nat) (v : Word) : WEff :=
  if 0x200000 ≤ a then windowEffect ((a - 0x200000) / 4) v
  else if a = addr_HLM_BANKSW then bankswEffect v
  else plainWrite a v

/-- The effect of a carried write, in the standby or at the start of the period a deferred one counts for. A clear is applied
without being carried again; an arm command waits for its sampling instant. -/
def carriedEff (a : Nat) (v : Word) : WEff :=
  if a = addr_TRP_CLR then fun d => (true, d.clearGroups (fldGet 0 16 v))
  else if a = addr_BOT_ARM_SET then fun d => (true, d.armPend true v)
  else if a = addr_BOT_ARM_CLR then fun d => (true, d.armPend false v)
  else if a = addr_BLS_CMD then blsCmdEffect v
  else if a = addr_TBS_PER then perEffect v
  else if blockOf a = some 11 then effGroup a v
  else if blockOf a = some 13 then effGwy a v
  else effHlm a v

def Dev.applyCarried (d : Dev) (c : Nat × Word) : Dev := if carriedAddr c.1 then (carriedEff c.1 c.2 d).2 else d

/-- A PERIOD frame from a partner whose pairing check has passed (R353, R354, R427). A standby without a control period takes S(0) from
the first enable; one that hears of a running period without it is DIVERGED; a device in SYNC joins at the next nominal S(k). -/
def Dev.periodRx (d : Dev) (f : PeriodFrame) : Dev :=
  let d := d.periodFrame f
  let first := f.cmds.any fun c => decide (c.1 = addr_BOT_ARM_SET)
  if f.state ≠ morHolder then d
  else if d.morState = morStandby then
    let d := if d.per.started ∨ f.sk = 0 then d else if first then d.placePeriod f.sk else (d.setF MOR_STAT_DIVERGED 1).morEval
    f.cmds.foldl Dev.applyCarried d
  else if d.morState = morSync ∧ !d.per.started ∧ f.sk ≠ 0 then
    d.placePeriod (if d.time < unitsOf125 f.sk then f.sk else f.sk + d.lenFor (d.getF TBS_PER_PER))
  else d

/-! ### Telemetry (R15, R123, R125, R272) -/

/-- A NaN of binary32. -/
def f32Nan (w : Nat) : Bool := decide (w / 2 ^ 23 % 2 ^ 8 = 255 ∧ w % 2 ^ 23 ≠ 0)

/-- Measurement `i` of cell `c` goes into the input area; a NaN leaves the previous value there. -/
def Dev.takeM (d : Dev) (c i w : Nat) : Dev :=
  if f32Nan w then (d.evt TWL_EVT_NAN).bump TWL_NAN else d.setMwN (0x60000 + 8 * c + i) w

/-- The frame is the one for the sampling instant of the present period, and in time (R15, R125). -/
def Dev.tlmDue (d : Dev) (f : TlmFrame) : Bool :=
  d.per.running && !f.late && !d.per.duePassed && decide (f.sample = edgeOf (unitsOf125 d.per.sk))

/-- An accepted TLM frame of cell `c`. -/
def Dev.tlmAccept (d : Dev) (c : Nat) (f : TlmFrame) : Dev :=
  let d := forN 8 (fun i d => d.takeM c i (f.m.getD i 0 % 2 ^ 32)) d
  let old := d.getF (TWL_CELL_TLMF_GD_LAT c)
  let x := d.cell c
  let d := d.setCell c { x with accepted := true, noTlm := 0, obeysB := f.flags % 2 = 1, epoch := f.epoch % 2 ^ 16 }
  let d := (d.setF (TWL_CELL_TLMF_GD_LAT c) f.gdLat).setF (TWL_CELL_TLMF_GD_ACT c) f.gdAct
  let d := (d.setF (TWL_CELL_TLMF_EXEC c) f.exec).setF (TWL_CELL_TLMF_COASTN c) f.coastN
  let d := (d.setF (TWL_CELL_TLMF_FLAGS c) f.flags).wrN (addr_TWL_CELL_AUX c) f.aux
  let now := d.getF (TWL_CELL_TLMF_GD_LAT c)
  let d := if Nat.land now (127 - old) ≠ 0 then d.evt TWL_EVT_GD_LATCH else d
  ((d.gdUpdate).morTlm c f.exec).hlmCell c false

/-- A TLM frame on cell lane `n`: a second one for the same instant changes nothing. -/
def Dev.tlm (d : Dev) (n : Nat) (f : TlmFrame) : Dev :=
  match d.cellAt n f.pos with
  | none => d
  | some c =>
    if d.cellState c ≠ cellBoarded then d
    else
      let d := d.setCell c { d.cell c with arrived := true }
      if !d.tlmDue f then d.bump (TWL_CNT_LATE c)
      else if (d.cell c).accepted then d
      else d.tlmAccept c f

/-! ### Delivery (R83, R93, R95, R104, R112) -/

def Dev.badFrame (d : Dev) : Dev := (d.bump TWL_BAD_FRAME).evt TWL_EVT_BAD_FRAME

/-- A frame of a type sent only toward endpoints, or of a reserved type (R104, R112). -/
def Dev.foreign (d : Dev) (t : Nat) : Dev :=
  if t = 1 ∨ t = 3 ∨ t = 5 ∨ t = 6 then (d.bump TWL_FOREIGN).evt TWL_EVT_FOREIGN
  else if t = 2 ∨ t = 4 then d
  else d.badFrame

/-- Physical lane and type bit (R95) of a received frame; mooring frames pass lanes 64–67. -/
def rxKey (i : Instr) : Option (Nat × Nat) :=
  match i with
  | .hello f => some (f.lane, 3)
  | .leave n _ _ _ => some (n, 3)
  | .tlm f => some (f.lane, 1)
  | .txnResponse n _ _ _ _ _ => some (n, 2)
  | .foreignFrame n t => some (n, if t = 1 then 0 else if t = 3 then 2 else if t = 5 then 3 else if t = 6 then 4 else 5)
  | .pairFrame _ => some (64, 0)
  | .periodFrame _ => some (64, 0)
  | .timeFrame _ _ _ => some (64, 0)
  | .syncFrame _ _ _ => some (64, 0)
  | .handoverFrame _ => some (64, 0)
  | _ => none

/-- A cell frame that passed its check, on the cell lane its physical lane carries. -/
def Dev.deliverCell (d : Dev) (n : Nat) (i : Instr) : Dev :=
  match i with
  | .hello f => if f.ver = 1 ∨ f.ver = 2 then d.hello n f else d
  | .leave _ pos _ _ => d.leave n pos
  | .tlm f => d.tlm n f
  | .txnResponse _ pos tag a st v => d.txnResponse n pos tag a st v
  | .foreignFrame _ t => d.foreign t
  | _ => d

/-- A frame of the mooring link while the bond is UP; all but PAIR frames count only from a partner that passed the check (R351). -/
def Dev.deliverMor (d : Dev) (i : Instr) : Dev :=
  match i with
  | .pairFrame f => pairFrame f d
  | .periodFrame f => if d.paired && d.peerUp then d.periodRx f else d
  | .timeFrame rtt turn ofs => timeFrame rtt turn ofs d
  | .syncFrame ph pr items => syncFrame ph pr items d
  | .handoverFrame h => handoverFrame h d
  | _ => d

/-- A received frame is delivered, or counted where it fails its check. -/
def Dev.deliver (d : Dev) (i : Instr) (bad : Bool) : Dev :=
  match rxKey i with
  | none => d
  | some (p, _) =>
    if 64 ≤ p ∧ p < 68 then (if bad ∨ d.bondState ≠ 2 then d else d.deliverMor i)
    else match d.logical p with
      | none => d
      | some n => if bad then d.badFrame else d.deliverCell n i

/-- Frames that fault injection has released are delivered, oldest first. -/
def Dev.drainRx (d : Dev) : Dev :=
  forN 144 (fun _ d => match d.rxReady with
    | [] => d
    | i :: t => { d with rxReady := t }.deliver i false) d

/-- Fault injection of lane `n` in the receive direction; the flag of a frame says that it fails its check. -/
def Dev.fiRx (d : Dev) (n ty : Nat) (x : Instr × Bool) : List (Instr × Bool) × Dev :=
  d.fiPass n true ty (fun l => l.heldRx.map (·, false)) (fun l x => { l with heldRx := x.map (·.1) }) (fun x => (x.1, true)) x

/-- A frame arrives (R95): through the injection of its lane, or of the four mooring lanes. -/
def Dev.receive (d : Dev) (i : Instr) : Dev :=
  match rxKey i with
  | none => d
  | some (p, ty) =>
    let mor := decide (64 ≤ p ∧ p < 68)
    let up := if mor then decide (d.bondState = 2) else decide (p < 72) && d.rxUp p && (d.logical p).isSome
    if !up then d
    else
      let r := (if mor then [64, 65, 66, 67] else [p]).foldl (fun (acc : List (Instr × Bool) × Dev) n =>
        acc.1.foldl (fun (a : List (Instr × Bool) × Dev) x =>
          let y := a.2.fiRx n ty x
          (a.1 ++ y.1, y.2)) ([], acc.2)) ([(i, false)], d)
      (r.1.foldl (fun d x => d.deliver x.1 x.2) r.2).drainRx

/-- Fault injection stops on every lane that meets `c`; what it held is delivered (R97). -/
def Dev.fiEnd (d : Dev) (reason : Nat) (c : Nat → Dev → Bool) : Dev := (d.fiStopAll reason c).drainRx

/-! ### Power states (R73 to R76) -/

/-- A mooring receiver's lock state may have changed (R88, R362). -/
def Dev.morLocks (d : Dev) (n : Nat) : Dev := if 64 ≤ n ∧ n < 68 then d.bondLocks.morEval else d

/-- A lane reset of what physical lane `n` carries (R138). -/
def Dev.resetCarried (d : Dev) (n : Nat) : Dev :=
  match d.logical n with
  | some m => (d.laneReset m).morEval
  | none => d

/-- The injected direction of the lane leaves ACTIVE (R97). -/
def Dev.fiLeaves (d : Dev) (n : Nat) (rx : Bool) : Dev :=
  let dir := d.getF (LNK_FI_CTRL_DIR n)
  if dir = 2 ∨ dir = (if rx then 1 else 0) then d.fiStop n 7 else d

/-- A direction reaches state `st` (R75, R82, R97, R138). -/
def Dev.powTo (d : Dev) (n : Nat) (rx : Bool) (st : Nat) : Dev :=
  let old := d.powState n rx
  if old = st then d
  else
    let d := d.setPow n rx st
    let d := if old = 2 then (d.fiLeaves n rx).drainRx else d
    let d := if rx ∧ old = 2 ∨ !rx ∧ st = 0 then d.resetCarried n else d
    if rx ∧ old = 2 then d.morLocks n else d

/-- POWER_TRANSITION_DONE: the direction is in its effective state. -/
def powerDone (n : Nat) (rx : Bool) (d : Dev) : Dev := if n < 72 then d.powTo n rx (d.effState n rx) else d

/-- A dozing transmitter wakes. -/
def dozeWake (n : Nat) (d : Dev) : Dev := if n < 72 then d.wakeTx n else d

/-- A woken transmitter dozes again. -/
def dozeReturn (n : Nat) (d : Dev) : Dev :=
  if n < 72 ∧ d.powState n false = 2 ∧ d.effState n false = 1 then d.powTo n false 1 else d

/-! ### Blocks -/

/-- A received block: in the PRBS test 66 bits of the pattern, otherwise a header for the alignment of an ACTIVE receiver. -/
def blockHeader (n hdr payload : Nat) (d : Dev) : Dev :=
  if 72 ≤ n ∨ d.powState n true ≠ 2 then d
  else if d.getF (LNK_LCTRL_TEST n) = 1 then d.prbsCheck n (hdr % 4 + payload % 2 ^ 64 * 4)
  else (d.header n (hdr % 4) (payload % 2 ^ 64)).morLocks n

/-! ### LNK_LCTRL (R73, R79, R93, R98) -/

/-- The PRBS test may be set on lane `n`. -/
def Dev.testOk (d : Dev) (n : Nat) : Bool :=
  if 64 ≤ n ∧ n < 68 then decide (d.bondState = 0)
  else match d.logical n with
    | some m => (d.laneCells m).all fun c => decide (d.cellState c ≠ cellBoarded)
    | none => true

/-- The lane enters the PRBS test: block lock does not operate, and the lane is reset (R93, R138). -/
def Dev.enterTest (d : Dev) (n : Nat) : Dev := ((d.rxLeaves n 2).resetCarried n).morLocks n

def lctrlEffect (n : Nat) (v : Word) : WEff := fun d =>
  let test := fldGet 10 2 v
  let was := d.getF (LNK_LCTRL_TEST n)
  let adapt := d.getF (LNK_LCTRL_ADAPT n)
  if 2 ≤ test ∨ fldGet 8 2 v = 3 ∨ fldGet 4 2 v = 3 ∨ fldGet 2 2 v = 3 ∨ (test = 1 ∧ was ≠ 1 ∧ !d.testOk n) then (false, d)
  else
    let d := (plainWrite (addr_LNK_LCTRL n) v d).2
    let d := if fldGet 8 2 v = 0 ∧ adapt ≠ 0 then d.eqStart n else d
    let d := if test = was then d else d.setLane n { d.lane n with prbs := none }
    (true, if test = 1 ∧ was ≠ 1 then d.enterTest n else d)

/-- A write of LNK_SLIP; a mooring receiver that leaves LOCKED takes the bond down. -/
def slipWrite (n : Nat) (v : Word) : WEff := fun d =>
  let r := slipEffect n v d
  (r.1, if r.1 then r.2.morLocks n else r.2)

/-- A write of LNK_FI_CTRL; what a stop releases is delivered. -/
def fiWrite (isl : Island) (pn n : Nat) (v : Word) : WEff := fun d =>
  let r := fiEffect isl pn n v d
  (r.1, r.2.drainRx)

/-- What a write of LNK_FI_CTRL that is refused for its class shows (R94). -/
def fiRef (n : Nat) (v : Word) (d : Dev) : Dev := if fldGet 31 1 v = 1 ∧ !d.bit (LNK_FI_CTRL_EN n) then d.fiRefused else d

/-! ### Spares (R90 to R92) -/

/-- A cell configured on lane `m` is an active cell of an enabled arm. -/
def Dev.liveLane (d : Dev) (m : Nat) : Bool :=
  (d.laneCells m).any fun c =>
    d.bit (BLS_CELL_CFG_IN_ARM c) && decide (d.member c = blsActive) && decide (d.getF BOT_ARM_EN / 2 ^ d.getF (BLS_CELL_CFG_ARM c) % 2 = 1)

def remapRef (d : Dev) : Dev := ((d.evt LNK_EVT_REMAP_REFUSED).bump LNK_REMAP_REFUSED).logEvt 9 5 []

/-- Both directions of a physical lane go OFF by a remap; injection there stops. -/
def Dev.laneOff (d : Dev) (n : Nat) : Dev := (((d.fiStop n 6).drainRx).setPow n true 0).setPow n false 0

/-- A write of LNK_REMAPn. A write that leaves EN at 0 or clears it maps nothing, so the conditions on the lane to be served do not
concern it (log entry 19). -/
def remapEffect (i : Nat) (v : Word) : WEff := fun d =>
  let en := decide (fldGet 31 1 v = 1)
  let src := fldGet 0 7 v
  let cur := if d.bit (LNK_REMAP_EN i) then some (d.getF (LNK_REMAP_SRC i)) else none
  let new := if en then some src else none
  let other := (List.range 4).any fun j => decide (j ≠ i) && d.bit (LNK_REMAP_EN j) && decide (d.getF (LNK_REMAP_SRC j) = src)
  if 63 < src ∨ (en ∧ (other ∨ d.liveLane src)) ∨ cur.any d.liveLane then (false, remapRef d)
  else
    let d := if cur = new then (plainWrite (addr_LNK_REMAP i) v d).2
      else
        let d := if cur.isSome then d.laneOff (68 + i) else d
        let d := (plainWrite (addr_LNK_REMAP i) v (new.toList.foldl Dev.laneOff d)).2.showPeers
        ((cur.toList ++ new.toList).foldl Dev.laneReset d).morEval
    (true, ((d.evt LNK_EVT_REMAP_DONE).bump LNK_REMAPS).logEvt 9 4 [])

/-! ### The commands -/

/-- LNK_LCTRL of a lane with other power requests. -/
def Dev.powReq (d : Dev) (n tx rx : Nat) : Word := fldPut 2 2 tx (fldPut 4 2 rx (d.rd (addr_LNK_LCTRL n)))

/-- LANE_POWER_REQUEST (R73). -/
def execLanePowerRequest (p : Path) (n tx rx : Nat) (s : State) : Host.Outcome State Fault Refusal :=
  .next (s.inst (decide (n < 72)) fun s =>
    let v := s.dev.powReq n tx rx
    s.writeRow p (addr_LNK_LCTRL n) v id (lctrlEffect n v))

/-- POWER_TRANSITION_DONE (R75, R138). -/
def execPowerTransitionDone (n : Nat) (rx : Bool) (s : State) : Host.Outcome State Fault Refusal := .next (s.onDev (powerDone n rx))

/-- DOZE_WAKE (R76). -/
def execDozeWake (n : Nat) (s : State) : Host.Outcome State Fault Refusal := .next (s.onDev (dozeWake n))

/-- DOZE_RETURN (R76). -/
def execDozeReturn (n : Nat) (s : State) : Host.Outcome State Fault Refusal := .next (s.onDev (dozeReturn n))

/-- LQF_UPDATE (R78 to R81). -/
def execLqfUpdate (n h v : Nat) (s : State) : Host.Outcome State Fault Refusal :=
  .next (s.inst (decide (n < 72)) fun s => s.onDev (lqfUpdate n h v))

/-- BLOCK_HEADER (R82, R83, R88, R93). -/
def execBlockHeader (n hdr payload : Nat) (s : State) : Host.Outcome State Fault Refusal := .next (s.onDev (blockHeader n hdr payload))

/-- SLIP (R84). -/
def execSlip (p : Path) (n : Nat) (s : State) : Host.Outcome State Fault Refusal :=
  .next (s.inst (decide (n < 72)) fun s => s.writeRow p (addr_LNK_SLIP n) 0x80000000 id (slipWrite n 0x80000000))

/-- BUOY_SEND (R85, R106). -/
def execBuoySend (disp launch : Nat) (s : State) : Host.Outcome State Fault Refusal := .next (s.onDev (buoySend disp launch))

/-- MOORING_BUOY (R88). -/
def execMooringBuoy (m skew : Nat) (s : State) : Host.Outcome State Fault Refusal :=
  .next (s.inst (decide (m < 4)) fun s => s.onDev fun d => (mooringBuoy m skew d).morEval)

/-- BUOY_MISS (R88). -/
def execBuoyMiss (m : Nat) (s : State) : Host.Outcome State Fault Refusal :=
  .next (s.inst (decide (m < 4)) fun s => s.onDev fun d => (buoyMiss m d).morEval)

/-- REMAP_WRITE (R90, R91). -/
def execRemapWrite (p : Path) (n : Nat) (v : Word) (s : State) : Host.Outcome State Fault Refusal :=
  .next (s.inst (decide (n < 4)) fun s => s.writeRow p (addr_LNK_REMAP n) v remapRef (remapEffect n v))

/-- TEST_MODE_WRITE (R93). -/
def execTestModeWrite (p : Path) (n : Nat) (v : Word) (s : State) : Host.Outcome State Fault Refusal :=
  .next (s.inst (decide (n < 72)) fun s => s.writeRow p (addr_LNK_LCTRL n) v id (lctrlEffect n v))

/-- FI_START (R94, R95). -/
def execFiStart (p : Path) (n : Nat) (v : Word) (s : State) : Host.Outcome State Fault Refusal :=
  .next (s.inst (decide (n < 72)) fun s => s.writeRow p (addr_LNK_FI_CTRL n) v (fiRef n v) (fiWrite s.isl (pathNo p) n v))

/-- FI_STOP (R97): EN written 0, the other fields as they are. -/
def execFiStop (p : Path) (n : Nat) (s : State) : Host.Outcome State Fault Refusal :=
  .next (s.inst (decide (n < 72)) fun s =>
    let v := fldPut 31 1 0 (s.dev.rd (addr_LNK_FI_CTRL n))
    s.writeRow p (addr_LNK_FI_CTRL n) v id (fiWrite s.isl (pathNo p) n v))

/-- FI_REORDER_RELEASE (R95). -/
def execFiReorderRelease (n : Nat) (rx : Bool) (s : State) : Host.Outcome State Fault Refusal :=
  .next (s.inst (decide (n < 72)) fun s => s.onDev fun d => (fiRelease n rx d).drainRx)

/-- HELLO (R138, R140). -/
def execHello (f : HelloFrame) (s : State) : Host.Outcome State Fault Refusal := .next (s.onDev (·.receive (.hello f)))

/-- LEAVE (R138). -/
def execLeave (n pos be reason : Nat) (s : State) : Host.Outcome State Fault Refusal := .next (s.onDev (·.receive (.leave n pos be reason)))

/-- TLM (R15, R18, R125, R272, R364). -/
def execTlm (f : TlmFrame) (s : State) : Host.Outcome State Fault Refusal := .next (s.onDev (·.receive (.tlm f)))

/-- FOREIGN_FRAME (R104, R112). -/
def execForeignFrame (n t : Nat) (s : State) : Host.Outcome State Fault Refusal := .next (s.onDev (·.receive (.foreignFrame n t)))

/-- TXN_RESPONSE (R146). -/
def execTxnResponse (n pos tag a status : Nat) (v : Word) (s : State) : Host.Outcome State Fault Refusal :=
  .next (s.onDev (·.receive (.txnResponse n pos tag a status v)))

/-- PAIR_FRAME (R351). -/
def execPairFrame (f : PairFrame) (s : State) : Host.Outcome State Fault Refusal := .next (s.onDev (·.receive (.pairFrame f)))

/-- PERIOD_FRAME (R353, R354, R359, R364). -/
def execPeriodFrame (f : PeriodFrame) (s : State) : Host.Outcome State Fault Refusal := .next (s.onDev (·.receive (.periodFrame f)))

/-- TIME_FRAME (R359, R360). -/
def execTimeFrame (rtt turn : Nat) (ofs : Int) (s : State) : Host.Outcome State Fault Refusal :=
  .next (s.onDev (·.receive (.timeFrame rtt turn ofs)))

/-- SYNC_FRAME (R368). -/
def execSyncFrame (phase prog : Nat) (items : List SyncItem) (s : State) : Host.Outcome State Fault Refusal :=
  .next (s.onDev (·.receive (.syncFrame phase prog items)))

/-- HANDOVER_FRAME (R367). -/
def execHandoverFrame (h : Nat) (s : State) : Host.Outcome State Fault Refusal := .next (s.onDev (·.receive (.handoverFrame h)))

end Sys2Proof.Machine
end

