-- ==== Sys2Proof/Machine/Flags.lean ====
section
/-! DEFINITION. The alert summary: which blocks have an enabled event flag set (R98, R472), and the ALERT pin. -/

namespace Sys2Proof.Machine

/-- Byte address of a block's xxx_EVT; its enables follow at the next word (R455; R69 for LNK). -/
def evtAddr (blk : Nat) : Nat :=
  match blk with
  | 0 => addr_MGT_EVT | 1 => addr_CRG_EVT | 2 => addr_BOT_EVT | 3 => addr_THM_EVT | 4 => addr_TBS_EVT | 5 => addr_PTP_EVT
  | 6 => addr_NET_EVT | 7 => addr_SVX_EVT | 8 => addr_GSE_EVT | 9 => addr_LNK_EVT | 10 => addr_TWL_EVT | 11 => addr_CBK_EVT
  | 12 => addr_HLM_EVT | 13 => addr_GWY_EVT | 14 => addr_BLS_EVT | 15 => addr_MOD_EVT | 16 => addr_SAR_EVT | 17 => addr_WCM_EVT
  | 18 => addr_TRP_EVT | 19 => addr_SAF_EVT | 20 => addr_MTR_EVT | 21 => addr_MOR_EVT | 22 => addr_LOG_EVT | _ => addr_MFT_EVT

/-- A flag word against its enable word. -/
def flagged (evt en : Word) : Bool := decide (Nat.land evt.toNat en.toNat ≠ 0)

/-- Block `b` has an enabled flag set (R472). -/
def State.blockAlert (s : State) (b : Nat) : Bool :=
  if b = 19 then flagged (s.isl.rd addr_SAF_EVT) (s.isl.rd addr_SAF_EVT_EN)
  else flagged (s.dev.rd (evtAddr b)) (s.dev.rd (evtAddr b + 4))

/-- MGT_ALERT_SUM (R472). -/
def State.alertSum (s : State) : Nat := ((List.range 24).map fun b => if s.blockAlert b then 2 ^ b else 0).sum

/-- The configuration image has been applied: the start sequence is complete (R393, R426). -/
def Dev.applied (d : Dev) : Bool := decide (d.getF CRG_STAT_PSTATE ≠ 0)

/-- Level of the ALERT pin (R472); inactive until the image has been applied. -/
def State.alertPin (s : State) : Bool :=
  xor (s.dev.bit MGT_CTRL_ALERT_POL) (s.dev.applied && s.dev.bit MGT_CTRL_ALERT_EN && decide (s.alertSum ≠ 0))

/-- Flags were cleared: what a session has been told shrinks with MGT_ALERT_SUM, so that a flag set again is news (R470). -/
def State.noteSeen (s : State) : State :=
  let sum := s.alertSum
  s.onDev fun d => forN 8 (fun n d =>
    let x := spGet {} d.mgt.sess n
    { d with mgt := { d.mgt with sess := spSet {} d.mgt.sess n { x with seen := Nat.land x.seen sum } } }) d

end Sys2Proof.Machine
end

