-- ==== Sys2Proof/Machine/Sha.lean ====
section
/-! DEFINITION. The digests and the signature check the start sequence and the Landing protocol use: SHA-384 (R401 to R404,
R411, R418), HMAC-SHA-256 (R464, R465) and ECDSA over P-384 (R402, R404). The spec names these algorithms and does not
restate them: their tables are the published ones (PRESUMED, log entry 9). All of it is arithmetic on naturals. -/

namespace Sys2Proof.Machine

/-- Rotation right by `n` of a `w`-bit word. -/
def rotr (w n x : Nat) : Nat := Nat.lor (x >>> n) (x <<< (w - n) % 2 ^ w)

/-- Bitwise complement in `w` bits. -/
def notw (w x : Nat) : Nat := 2 ^ w - 1 - x

def shaCh (w x y z : Nat) : Nat := Nat.xor (Nat.land x y) (Nat.land (notw w x) z)
def shaMaj (x y z : Nat) : Nat := Nat.xor (Nat.land x y) (Nat.xor (Nat.land x z) (Nat.land y z))

/-- The rotation amounts of one SHA-2 width: big sigma 0 and 1, small sigma 0 and 1 (its last number is a shift). -/
structure ShaParam where
  w : Nat
  s0 : Nat × Nat × Nat
  s1 : Nat × Nat × Nat
  g0 : Nat × Nat × Nat
  g1 : Nat × Nat × Nat
  deriving DecidableEq, Repr

def shaBig (w : Nat) (a : Nat × Nat × Nat) (x : Nat) : Nat :=
  Nat.xor (rotr w a.1 x) (Nat.xor (rotr w a.2.1 x) (rotr w a.2.2 x))
def shaSmall (w : Nat) (a : Nat × Nat × Nat) (x : Nat) : Nat :=
  Nat.xor (rotr w a.1 x) (Nat.xor (rotr w a.2.1 x) (x >>> a.2.2))

def sha256Param : ShaParam := ⟨32, (2, 13, 22), (6, 11, 25), (7, 18, 3), (17, 19, 10)⟩
def sha512Param : ShaParam := ⟨64, (28, 34, 39), (14, 18, 41), (1, 8, 7), (19, 61, 6)⟩

/-- The message schedule extended by `n` words; `ws` is the schedule so far, newest first. -/
def shaExtend (p : ShaParam) : Nat → List Nat → List Nat
  | 0, ws => ws
  | n + 1, ws =>
    let w := (shaSmall p.w p.g1 (ws.getD 1 0) + ws.getD 6 0 + shaSmall p.w p.g0 (ws.getD 14 0) + ws.getD 15 0) % 2 ^ p.w
    shaExtend p n (w :: ws)

/-- One round; the state is the list a … h. -/
def shaRound (p : ShaParam) (st : List Nat) (kw : Nat × Nat) : List Nat :=
  match st with
  | [a, b, c, d, e, f, g, h] =>
    let t1 := h + shaBig p.w p.s1 e + shaCh p.w e f g + kw.1 + kw.2
    let t2 := shaBig p.w p.s0 a + shaMaj a b c
    [(t1 + t2) % 2 ^ p.w, a, b, c, (d + t1) % 2 ^ p.w, e, f, g]
  | _ => st

/-- One block of 16 words into the chaining value `hv`. -/
def shaBlock (p : ShaParam) (ks : List Nat) (hv ws : List Nat) : List Nat :=
  let sched := (shaExtend p (ks.length - 16) ws.reverse).reverse
  let st := (ks.zip sched).foldl (shaRound p) hv
  (hv.zip st).map fun x => (x.1 + x.2) % 2 ^ p.w

/-- The big-endian words of a byte list, `k` bytes each, for at most `fuel` words. -/
def beWords (k fuel : Nat) (bs : List Nat) : List Nat :=
  match fuel with
  | 0 => []
  | n + 1 => if bs.isEmpty then [] else beNat (bs.take k) :: beWords k n (bs.drop k)

/-- All blocks of a padded message, at most `fuel`. -/
def shaBlocks (p : ShaParam) (ks : List Nat) (fuel : Nat) (hv : List Nat) (bs : List Nat) : List Nat :=
  match fuel with
  | 0 => hv
  | n + 1 => if bs.isEmpty then hv else
      shaBlocks p ks n (shaBlock p ks hv (beWords (p.w / 8) 16 (bs.take (2 * p.w)))) (bs.drop (2 * p.w))

/-- The padded message: 0x80, zeros, the bit length in `lb` bytes, to a multiple of `blk` bytes. -/
def shaPad (blk lb : Nat) (bs : List Nat) : List Nat :=
  bs ++ 0x80 :: List.replicate ((2 * blk - 1 - lb - bs.length % blk) % blk) 0 ++ beBytes lb (8 * bs.length)

def sha256K : List Nat :=
  [
   0x428A2F98, 0x71374491, 0xB5C0FBCF, 0xE9B5DBA5,
   0x3956C25B, 0x59F111F1, 0x923F82A4, 0xAB1C5ED5,
   0xD807AA98, 0x12835B01, 0x243185BE, 0x550C7DC3,
   0x72BE5D74, 0x80DEB1FE, 0x9BDC06A7, 0xC19BF174,
   0xE49B69C1, 0xEFBE4786, 0x0FC19DC6, 0x240CA1CC,
   0x2DE92C6F, 0x4A7484AA, 0x5CB0A9DC, 0x76F988DA,
   0x983E5152, 0xA831C66D, 0xB00327C8, 0xBF597FC7,
   0xC6E00BF3, 0xD5A79147, 0x06CA6351, 0x14292967,
   0x27B70A85, 0x2E1B2138, 0x4D2C6DFC, 0x53380D13,
   0x650A7354, 0x766A0ABB, 0x81C2C92E, 0x92722C85,
   0xA2BFE8A1, 0xA81A664B, 0xC24B8B70, 0xC76C51A3,
   0xD192E819, 0xD6990624, 0xF40E3585, 0x106AA070,
   0x19A4C116, 0x1E376C08, 0x2748774C, 0x34B0BCB5,
   0x391C0CB3, 0x4ED8AA4A, 0x5B9CCA4F, 0x682E6FF3,
   0x748F82EE, 0x78A5636F, 0x84C87814, 0x8CC70208,
   0x90BEFFFA, 0xA4506CEB, 0xBEF9A3F7, 0xC67178F2]

def sha256H : List Nat :=
  [
   0x6A09E667, 0xBB67AE85, 0x3C6EF372, 0xA54FF53A,
   0x510E527F, 0x9B05688C, 0x1F83D9AB, 0x5BE0CD19]

def sha512K : List Nat :=
  [
   0x428A2F98D728AE22, 0x7137449123EF65CD, 0xB5C0FBCFEC4D3B2F, 0xE9B5DBA58189DBBC,
   0x3956C25BF348B538, 0x59F111F1B605D019, 0x923F82A4AF194F9B, 0xAB1C5ED5DA6D8118,
   0xD807AA98A3030242, 0x12835B0145706FBE, 0x243185BE4EE4B28C, 0x550C7DC3D5FFB4E2,
   0x72BE5D74F27B896F, 0x80DEB1FE3B1696B1, 0x9BDC06A725C71235, 0xC19BF174CF692694,
   0xE49B69C19EF14AD2, 0xEFBE4786384F25E3, 0x0FC19DC68B8CD5B5, 0x240CA1CC77AC9C65,
   0x2DE92C6F592B0275, 0x4A7484AA6EA6E483, 0x5CB0A9DCBD41FBD4, 0x76F988DA831153B5,
   0x983E5152EE66DFAB, 0xA831C66D2DB43210, 0xB00327C898FB213F, 0xBF597FC7BEEF0EE4,
   0xC6E00BF33DA88FC2, 0xD5A79147930AA725, 0x06CA6351E003826F, 0x142929670A0E6E70,
   0x27B70A8546D22FFC, 0x2E1B21385C26C926, 0x4D2C6DFC5AC42AED, 0x53380D139D95B3DF,
   0x650A73548BAF63DE, 0x766A0ABB3C77B2A8, 0x81C2C92E47EDAEE6, 0x92722C851482353B] ++
  [
   0xA2BFE8A14CF10364, 0xA81A664BBC423001, 0xC24B8B70D0F89791, 0xC76C51A30654BE30,
   0xD192E819D6EF5218, 0xD69906245565A910, 0xF40E35855771202A, 0x106AA07032BBD1B8,
   0x19A4C116B8D2D0C8, 0x1E376C085141AB53, 0x2748774CDF8EEB99, 0x34B0BCB5E19B48A8,
   0x391C0CB3C5C95A63, 0x4ED8AA4AE3418ACB, 0x5B9CCA4F7763E373, 0x682E6FF3D6B2B8A3,
   0x748F82EE5DEFB2FC, 0x78A5636F43172F60, 0x84C87814A1F0AB72, 0x8CC702081A6439EC,
   0x90BEFFFA23631E28, 0xA4506CEBDE82BDE9, 0xBEF9A3F7B2C67915, 0xC67178F2E372532B,
   0xCA273ECEEA26619C, 0xD186B8C721C0C207, 0xEADA7DD6CDE0EB1E, 0xF57D4F7FEE6ED178,
   0x06F067AA72176FBA, 0x0A637DC5A2C898A6, 0x113F9804BEF90DAE, 0x1B710B35131C471B,
   0x28DB77F523047D84, 0x32CAAB7B40C72493, 0x3C9EBE0A15C9BEBC, 0x431D67C49C100D4C,
   0x4CC5D4BECB3E42B6, 0x597F299CFC657E2A, 0x5FCB6FAB3AD6FAEC, 0x6C44198C4A475817]

def sha384H : List Nat :=
  [
   0xCBBB9D5DC1059ED8, 0x629A292A367CD507, 0x9159015A3070DD17, 0x152FECD8F70E5939,
   0x67332667FFC00B31, 0x8EB44A8768581511, 0xDB0C2E0D64F98FA7, 0x47B5481DBEFA4FA4]

/-- SHA-256, as 32 bytes. -/
def sha256 (bs : List Nat) : List Nat :=
  let m := shaPad 64 8 bs
  (shaBlocks sha256Param sha256K m.length sha256H m).flatMap (beBytes 4)

/-- SHA-384, as 48 bytes. -/
def sha384 (bs : List Nat) : List Nat :=
  let m := shaPad 128 16 bs
  ((shaBlocks sha512Param sha512K m.length sha384H m).take 6).flatMap (beBytes 8)

/-- HMAC-SHA-256 (R464): keys of at most 64 bytes. -/
def hmacSha256 (key msg : List Nat) : List Nat :=
  let k := key ++ List.replicate (64 - key.length) 0
  sha256 (k.map (Nat.xor 0x5C) ++ sha256 (k.map (Nat.xor 0x36) ++ msg))

def p384P : Nat := 0xfffffffffffffffffffffffffffffffffffffffffffffffffffffffffffffffeffffffff0000000000000000ffffffff
def p384N : Nat := 0xffffffffffffffffffffffffffffffffffffffffffffffffc7634d81f4372ddf581a0db248b0a77aecec196accc52973
def p384B : Nat := 0xb3312fa7e23ee7e4988e056be3f82d19181d9c6efe8141120314088f5013875ac656398d8a2ed19d2a85c8edd3ec2aef
def p384G : Nat × Nat :=
  (0xaa87ca22be8b05378eb1c71ef320ad746e1d3b628ba79b9859f741e082542a385502f25dbf55296c3a545e3872760ab7,
   0x3617de4a96262c6f5d9e98bf9292dc29f8f41dbd289a147ce9da3113b5f0b8c00a60b1ce1d7e819d7a431d7c90ea0e5f)

/-- `b ^ e mod m` by squaring over `fuel` bits. -/
def powMod (fuel m b e : Nat) : Nat :=
  match fuel with
  | 0 => 1 % m
  | n + 1 =>
    let r := powMod n m (b * b % m) (e / 2)
    if e % 2 = 1 then b * r % m else r

/-- The inverse modulo a prime, by Fermat's little theorem. -/
def invMod (m a : Nat) : Nat := powMod 384 m (a % m) (m - 2)

/-- A point of P-384; `none` is the point at infinity. -/
abbrev EcPt := Option (Nat × Nat)

/-- Point addition on y² = x³ − 3x + b over the prime field. -/
def ecAdd (p q : EcPt) : EcPt :=
  match p, q with
  | none, r => r
  | r, none => r
  | some (x1, y1), some (x2, y2) =>
    if x1 = x2 ∧ (y1 + y2) % p384P = 0 then none else
    let l :=
      if x1 = x2 then (3 * x1 * x1 + (p384P - 3)) * invMod p384P (2 * y1) % p384P
      else (y2 + p384P - y1) * invMod p384P (x2 + p384P - x1) % p384P
    let x3 := (l * l + 2 * p384P - x1 - x2) % p384P
    some (x3, (l * (x1 + p384P - x3) + (p384P - y1)) % p384P)

/-- `k` times a point, over `fuel` bits. -/
def ecMul (fuel k : Nat) (p : EcPt) : EcPt :=
  match fuel with
  | 0 => none
  | n + 1 =>
    let r := ecMul n (k / 2) (ecAdd p p)
    if k % 2 = 1 then ecAdd p r else r

/-- The public key in `key` (X then Y, 48 bytes each, big-endian) is a point of the curve. -/
def ecOnCurve (x y : Nat) : Bool :=
  decide (x < p384P) && decide (y < p384P) &&
    decide (y * y % p384P = (x * x * x + (p384P - 3) * x + p384B) % p384P)

/-- ECDSA P-384 verification of signature bytes `sig` (r then s) on the SHA-384 digest `dig` under `key`. -/
def ecdsaVerify (key dig sig : List Nat) : Bool :=
  let x := beNat (key.take 48)
  let y := beNat ((key.drop 48).take 48)
  let r := beNat (sig.take 48)
  let s := beNat ((sig.drop 48).take 48)
  if ecOnCurve x y && decide (0 < r ∧ r < p384N ∧ 0 < s ∧ s < p384N) then
    let w := invMod p384N s
    let u1 := beNat dig * w % p384N
    let u2 := r * w % p384N
    match ecAdd (ecMul 384 u1 (some p384G)) (ecMul 384 u2 (some (x, y))) with
    | none => false
    | some (x1, _) => decide (x1 % p384N = r)
  else false

end Sys2Proof.Machine
end

