-- ==== Sys2Proof/Machine/Landing.lean ====
section
/-! DEFINITION. The Landing protocol (spec/17_management_map.md, R464 to R471) but for the operations of a REQUEST, which stand in
Access.lean; ARP and ICMP. -/

namespace Sys2Proof.Machine

def Dev.sess (d : Dev) (n : Nat) : Session := spGet {} d.mgt.sess n
def Dev.setSess (d : Dev) (n : Nat) (x : Session) : Dev := { d with mgt := { d.mgt with sess := spSet {} d.mgt.sess n x } }
def Dev.sessState (d : Dev) (n : Nat) : Nat := d.getF (MGT_SESS_STATE n)

/-! ### Messages (R464, R465) -/

/-- A message before its TAG. -/
def landHead (type sid seq : Nat) (body : List Nat) : List Nat :=
  leBytes 2 0x474C ++ [1, type] ++ leBytes 4 sid ++ leBytes 4 seq ++ leBytes 2 body.length ++ [0, 0] ++ body

def landMsg (key : List Nat) (type sid seq : Nat) (body : List Nat) : List Nat :=
  let h := landHead type sid seq body
  h ++ hmacSha256 key h

/-- SK of a session. -/
def landKey (k cnonce dnonce : List Nat) : List Nat := hmacSha256 k ([0x4C, 0x41, 0x4E, 0x44] ++ cnonce ++ dnonce)

/-- A port carries IP: it has a NETIF entry (R471): 1 the P1/P2 pair, 3 P3. -/
def Dev.ipUp (d : Dev) (port : Nat) : Bool := d.mgt.netif.any (fun e => decide (e.port = port))

/-- A UDP datagram leaves by a port that carries IP. -/
def Dev.ipSend (d : Dev) (k : OutKind) (port : Nat) (ws : List Nat) : Dev :=
  if d.ipUp port then (if port = 1 then d.prpSend k ws else d.netSend k 3 ws) else d

/-- A message to the client of slot `n`, with the device's next SEQ. -/
def Dev.landSend (d : Dev) (n type : Nat) (body : List Nat) : Dev :=
  let x := d.sess n
  let q := (x.txSeq + 1) % 2 ^ 32
  let bytes := landMsg x.sk type (d.getF (MGT_SESS_SID n)) q body
  (d.setSess n { x with txSeq := q }).ipSend .landing (d.getF (MGT_SESS_PORT n))
    (d.getF (MGT_SESS_IP n) :: d.getF (MGT_SESS_UDP n) :: bytes)

/-! ### Sessions (R458, R466, R469) -/

def Dev.showSessions (d : Dev) : Dev :=
  d.setF MGT_STAT_SESSIONS ((List.range 8).filter fun n => decide (d.sessState n ≠ 0)).length

/-- A slot is freed; where its session held the Maintainer class, fault injection it started stops (R97). -/
def Dev.sessFree (d : Dev) (n : Nat) : Dev :=
  let maint := decide (d.getF (MGT_SESS_CLASS n) = 3)
  let d := (((d.wrN (addr_MGT_SESS n) 0).wrN (addr_MGT_SESS_IP n) 0).wrN (addr_MGT_SESS_UDP n) 0).wrN (addr_MGT_SESS_SID n) 0
  let d := { d.setSess n {} with mgt := { (d.setSess n {}).mgt with latch := d.mgt.latch.filter fun e => e.1 / 2 ^ 24 ≠ n + 1 } }
  let d := d.showSessions
  if maint then d.fiEnd 2 (fun l d => d.bit (LNK_FI_CTRL_EN l) && decide ((d.lane l).fiPath = n + 1)) else d

/-- A session is closed by the device. -/
def Dev.sessClose (d : Dev) (n reason : Nat) : Dev := (d.landSend n 6 [reason, 0, 0, 0]).sessFree n

/-- The maintenance key became inactive (R97, R458, R469). -/
def Dev.keyEnd (d : Dev) : Dev :=
  let d := d.fiEnd 3 (fun _ _ => true)
  let held := (List.range 8).filter fun n => decide (d.sessState n ≠ 0 ∧ d.getF (MGT_SESS_CLASS n) = 3)
  let spi := decide (d.getF MGT_STAT_SPI_GRANT = 3)
  let d := held.foldl (fun d n => d.sessClose n 4) d
  if spi || !held.isEmpty then d.evt MGT_EVT_KEY_END else d

/-- The source address lies in what a key permits. -/
def AccKey.fits (k : AccKey) (ip : Nat) : Bool := decide (k.mask = 0) || decide (Nat.land ip k.mask = Nat.land k.ip k.mask)

def Dev.authFail (d : Dev) : Dev := (d.bump MGT_AUTH_FAIL).evt MGT_EVT_AUTH_FAIL
def Dev.tagFail (d : Dev) : Dev := (d.bump MGT_TAG_FAIL).evt MGT_EVT_TAG_FAIL

/-- The body of a HELLO. -/
def helloBody (kid cls note : Nat) (cnonce : List Nat) : List Nat := leBytes 2 kid ++ [cls % 256, note % 256] ++ cnonce

/-- A session is opened for key `k` (R466): which free slot, and DNONCE, are free values. WELCOME has SEQ 0, the messages after it
SEQ 1, 2, 3 (R467, worked example). -/
def Dev.sessOpen (d : Dev) (maint : Bool) (sum : Nat) (m : LandMsg) (k : AccKey) (cls note : Nat) (cnonce : List Nat)
    (free : List Nat) : Dev :=
  let r := d.freeOf free
  let q := r.2.free (2 ^ 128)
  let n := r.1
  let dn := leBytes 16 q.1
  let sk := landKey k.secret cnonce dn
  let num := if q.2.mgt.num = 2 ^ 29 - 1 then 1 else q.2.mgt.num + 1
  let g := min cls k.cls
  let g := if maint then g else min g 2
  let d := { q.2 with mgt := { q.2.mgt with num := num } }
  let d := d.setSess n { sk := sk, seen := sum }
  let d := ((d.setF (MGT_SESS_STATE n) 1).setF (MGT_SESS_CLASS n) g).setF (MGT_SESS_NOTE n) (note % 2)
  let d := ((d.setF (MGT_SESS_PORT n) m.port).setF (MGT_SESS_KID n) k.kid).wrN (addr_MGT_SESS_IP n) m.ip
  let d := ((d.wrN (addr_MGT_SESS_UDP n) m.udp).wrN (addr_MGT_SESS_SID n) (num * 8 + n)).showSessions
  d.ipSend .landing m.port (m.ip :: m.udp :: landMsg sk 2 (num * 8 + n) 0 (dn ++ [g, n, 0, 0]))

/-- A HELLO (R466). -/
def landHello (maint : Bool) (sum : Nat) (m : LandMsg) (kid cls note : Nat) (cnonce : List Nat) (d : Dev) : Dev :=
  if !d.ipUp m.port then d
  else match (d.mgt.acc.map (·.keys)).getD [] |>.find? (fun k => decide (k.kid = kid)) with
  | none => d.authFail
  | some k =>
    let ok := decide (m.tag = hmacSha256 k.secret (landHead 1 m.sid m.seq (helloBody kid cls note cnonce))) && k.fits m.ip
    if !ok then d.authFail
    else
      let free := (List.range 8).filter fun n => decide (d.sessState n = 0)
      if free.isEmpty then
        (d.bump MGT_SESS_FULL).ipSend .landing m.port (m.ip :: m.udp :: landMsg k.secret 6 0 0 [2, 0, 0, 0])
      else d.sessOpen maint sum m k cls note cnonce free

/-- The slot a message belongs to, when its source and TAG are right (R465, R466). -/
def Dev.landSlot (d : Dev) (m : LandMsg) (type : Nat) (body : List Nat) : Option Nat :=
  (List.range 8).find? fun n =>
    decide (d.sessState n ≠ 0 ∧ d.getF (MGT_SESS_SID n) = m.sid ∧ d.getF (MGT_SESS_IP n) = m.ip ∧ d.getF (MGT_SESS_UDP n) = m.udp ∧
      d.getF (MGT_SESS_PORT n) = m.port) && decide (m.tag = hmacSha256 (d.sess n).sk (landHead type m.sid m.seq body))

/-- A CLOSE from the client (R469). -/
def landClose (m : LandMsg) (reason : Nat) (d : Dev) : Dev :=
  if !d.ipUp m.port then d
  else match d.landSlot m 6 [reason % 256, 0, 0, 0] with
  | none => d.tagFail
  | some n => d.sessClose n 1

/-- A KEEPALIVE from the client (R469). -/
def landKeepalive (m : LandMsg) (d : Dev) : Dev :=
  if !d.ipUp m.port then d
  else match d.landSlot m 7 [] with
  | none => d.tagFail
  | some n => d.landSend n 7 []

/-- No valid REQUEST within 2 s of WELCOME (R466). -/
def welcomeTimeout (n : Nat) (d : Dev) : Dev := if n < 8 ∧ d.sessState n = 1 then d.sessFree n else d

/-- No valid message for IDLE_TMO (R469). -/
def idleTimeout (n : Nat) (d : Dev) : Dev := if n < 8 ∧ d.sessState n ≠ 0 then d.sessClose n 3 else d

/-- A NOTIFY falls due (R470): it reports what MGT_ALERT_SUM has gained. -/
def notify (sum n : Nat) (d : Dev) : Dev :=
  if n < 8 ∧ d.sessState n ≠ 0 ∧ d.bit (MGT_SESS_NOTE n) ∧ Nat.lor sum (d.sess n).seen ≠ (d.sess n).seen then
    (d.setSess n { d.sess n with seen := sum }).landSend n 5 (leBytes 4 sum)
  else d

/-- A datagram that is no message (R464). -/
def msgBad (port : Nat) (d : Dev) : Dev := if d.ipUp port then d.bump MGT_MSG_BAD else d

/-! ### ARP and ICMP (R471) -/

def arpRequest (port ip : Nat) (d : Dev) : Dev :=
  if d.mgt.netif.any (fun e => decide (e.port = port ∧ e.ip = ip)) then d.ipSend .arp port [ip] else d

def icmpEcho (port ip dst : Nat) (data : List Nat) (d : Dev) : Dev :=
  if d.mgt.netif.any (fun e => decide (e.port = port ∧ e.ip = dst ∧ e.flags % 2 = 1)) then d.ipSend .icmp port (ip :: data) else d

/-! ### The commands -/

/-- LANDING_HELLO (R466). -/
def execLandingHello (m : LandMsg) (kid cls note : Nat) (cnonce : List Nat) (s : State) : Host.Outcome State Fault Refusal :=
  .next (s.onDev (landHello s.maintOk s.alertSum m kid cls note cnonce))

/-- LANDING_CLOSE (R469). -/
def execLandingClose (m : LandMsg) (reason : Nat) (s : State) : Host.Outcome State Fault Refusal := .next (s.onDev (landClose m reason))

/-- LANDING_KEEPALIVE (R469). -/
def execLandingKeepalive (m : LandMsg) (s : State) : Host.Outcome State Fault Refusal := .next (s.onDev (landKeepalive m))

/-- WELCOME_TIMEOUT (R466). -/
def execWelcomeTimeout (n : Nat) (s : State) : Host.Outcome State Fault Refusal := .next (s.onDev (welcomeTimeout n))

/-- IDLE_TIMEOUT (R469). -/
def execIdleTimeout (n : Nat) (s : State) : Host.Outcome State Fault Refusal := .next (s.onDev (idleTimeout n))

/-- NOTIFY (R470). -/
def execNotify (n : Nat) (s : State) : Host.Outcome State Fault Refusal := .next (s.onDev (notify s.alertSum n))

/-- MSG_BAD (R464). -/
def execMsgBad (port : Nat) (s : State) : Host.Outcome State Fault Refusal := .next (s.onDev (msgBad port))

/-- ARP_REQUEST (R471). -/
def execArpRequest (port ip : Nat) (s : State) : Host.Outcome State Fault Refusal := .next (s.onDev (arpRequest port ip))

/-- ICMP_ECHO (R471). -/
def execIcmpEcho (port ip dst : Nat) (data : List Nat) (s : State) : Host.Outcome State Fault Refusal :=
  .next (s.onDev (icmpEcho port ip dst data))

end Sys2Proof.Machine
end

