-- ==== Sys2Proof/Machine/Island.lean ====
section
/-! DEFINITION. The safety island (spec/10_safety_island.md). It is part of the state of its own: it is reset by nothing but its own
power-on (R279). Its commands come from AOC edges, so while AOC is lost none of them acts (R291). -/

namespace Sys2Proof.Machine

/-! ### Access to the island's parts -/

def State.setIsl (s : State) (f : Island → Island) : State := { s with isl := f s.isl }

/-- States of R288, as SAF_STAT.STATE codes them. -/
def safStart : Nat := 0
def safLockout : Nat := 1
def safRun : Nat := 2

def State.safState (s : State) : Nat := s.isl.getF SAF_STAT_STATE

/-- An event flag of the island. -/
def State.safEvt (s : State) (f : Fld) : State := s.setIsl (·.setF f 1)

/-- A counter of the island (R395). -/
def State.safBump (s : State) (f : Fld) : State :=
  let v := s.isl.getF f
  if v = 2 ^ 32 - 1 then s
  else
    let s := s.setIsl (·.setF f (v + 1))
    if v + 1 = 2 ^ 32 - 1 then s.onDev (·.noteSat 19) else s

/-- A record of the island, always of severity 7 (R430, R431, R433). -/
def State.safLog (s : State) (code : Nat) (items : List Nat) : State :=
  let st := (s.isl.rd addr_SAF_STAT).toNat
  s.onDev fun d => d.logAccept 19 code st items true

/-- A record of an event flag, and one about a register by its byte offset. -/
def State.safLogEvt (s : State) (bit : Nat) (items : List Nat) : State := s.safLog (0x1000 + bit) items
def State.safLogReg (s : State) (off : Nat) (items : List Nat) : State := s.safLog (0x3000 + off / 4) items

/-- The island is powered and AOC runs. -/
def State.safClocked (s : State) : Bool := s.bak.main && decide (s.isl.lost % 2 = 0)

/-! ### Inputs (R281, R284 to R287) -/

/-- Switch n of a set of switch values. -/
def swBit (sw n : Nat) : Bool := decide (sw / 2 ^ n % 2 = 1)

def Island.use (i : Island) : Nat := i.getF SAF_SW_USE

/-- Channel states of input n under a FORM: SIiA CLOSED, SIiB CLOSED (R284). -/
def Island.chan (i : Island) (form : Bool) (n : Nat) : Bool × Bool :=
  (decide (i.levels / 2 ^ (2 * n) % 2 = 1), decide (i.levels / 2 ^ (2 * n + 1) % 2 = 1) != form)

/-- States of an input, as SAF_IN codes them. -/
def inClosed : Nat := 0
def inOpening : Nat := 1
def inOpen : Nat := 2
def inClosing : Nat := 3
def inDiscrepant : Nat := 4

/-- The state derived from the filtered levels alone (R285, last row). -/
def deriveIn (c : Bool × Bool) : Nat := if c.1 && c.2 then inClosed else if c.1 || c.2 then inOpening else inOpen

def Island.derived (i : Island) (form : Bool) : List Nat := (List.range 8).map fun n => deriveIn (i.chan form n)

/-- The next state after a change of a channel (R285). -/
def nextIn (st : Nat) (c : Bool × Bool) : Nat :=
  let all := c.1 && c.2
  let none := !c.1 && !c.2
  if st = inClosed then (if all then inClosed else if none then inOpen else inOpening)
  else if st = inOpening ∨ st = inClosing then (if all then inClosed else if none then inOpen else st)
  else if st = inOpen then (if all then inClosed else if none then inOpen else inClosing)
  else if none then inOpen else st

/-- Input 7 is the maintenance-key input (R281). -/
def keyInput (sw n : Nat) : Bool := decide (n = 7) && swBit sw 13 && swBit sw 7

/-- An enabled input is healthy in a state (R286). -/
def inHealthy (sw n st : Nat) : Bool := decide (st = inClosed) || (keyInput sw n && decide (st = inOpen))

/-- The reason of the first enabled input that is not healthy (R288). -/
def unhealthy (sw : Nat) (ins : List Nat) : Option Nat :=
  ((List.range 8).find? fun n => swBit sw n && !inHealthy sw n (ins.getD n inOpen)).map fun n =>
    if ins.getD n inOpen = inDiscrepant then 0x18 + n else 0x10 + n

/-- SAF_IN and SAF_RAW follow the inputs (R297). -/
def Island.showIn (i : Island) : Island :=
  let sw := i.use
  let st := ((List.range 8).map fun n => (if swBit sw n then i.ins.getD n inOpen else 7) * 8 ^ n).sum
  let raw := ((List.range 8).map fun n => b2n (i.chan i.form n).1 * 4 ^ n + b2n (i.chan i.form n).2 * 2 * 4 ^ n).sum
  (i.setF SAF_IN_STATE st).setF SAF_RAW_CH raw

/-- The maintenance key is active (R287). -/
def Island.keyActive (i : Island) : Bool :=
  let sw := i.use
  keyInput sw 7 && !swBit sw 12 && decide (i.ins.getD 7 inOpen = inClosed)

/-- SAF_STAT.KEY and what hangs on it follow the key (R287, R458). -/
def State.keySync (s : State) : State :=
  let act := s.isl.keyActive
  let was := s.isl.bit SAF_STAT_KEY
  if act = was then s
  else
    let s := ((s.setIsl (·.setB SAF_STAT_KEY act)).safEvt SAF_EVT_KEY_CHG).safLogEvt 7 []
    s.onDev fun d => let d := d.setB MGT_STAT_MAINT_OK act; if act then d else d.keyEnd

/-! ### Outputs, lock-out, demand (R280, R288, R289, R294) -/

/-- SAFEOFF_A and SAFEOFF_B as driven (pins 201 and 202). -/
def State.safDrive (s : State) (a b : Bool) : State :=
  let pin (old new : Bool) (n : Nat) (d : Dev) : Dev := if old = new then d else d.emit .pin n [b2n new]
  let d := pin s.isl.outB b 202 (pin s.isl.outA a 201 s.dev)
  { s with dev := d, isl := { s.isl with outA := a, outB := b } }

/-- The line to source 61 and to the local bridge pins (R263, R289). -/
def State.safLine (s : State) (on : Bool) : State := s.onDev fun d => if d.saf = on then d else d.setSaf on

/-- The island enters LOCKOUT with a reason (R288, R289); leaving RUN is the safety trigger of the Manifest (R442). -/
def State.lockout (s : State) (reason : Nat) : State :=
  let run := decide (s.safState = safRun)
  let s := s.safDrive false false
  let s := s.setIsl fun i => (((i.setF SAF_STAT_STATE safLockout).setF SAF_STAT_REASON reason).setF SAF_STAT_SO_A 0).setF SAF_STAT_SO_B 0
  let s := s.safLine true
  let s := if run then s.onDev (·.mftTrigger 1 reason) else s
  ((s.safEvt SAF_EVT_LOCKOUT).safBump SAF_LOCKOUTS).safLogEvt 0 [reason]

/-- The island enters RUN (R288). -/
def State.safEnterRun (s : State) : State :=
  let s := (s.safDrive true true).setIsl fun i => ((i.setF SAF_STAT_STATE safRun).setF SAF_STAT_SO_A 1).setF SAF_STAT_SO_B 1
  (s.safLine false).safEvt SAF_EVT_RUN

/-- A demand or a fault (R288). The state does not change while R291 holds the outputs low. -/
def State.safDemand (s : State) (reason : Nat) : State :=
  if s.isl.lost ≠ 0 then s
  else if s.safState = safRun then s.lockout reason
  else if s.safState = safLockout then s.safLogReg 0x8 [reason]
  else s

/-! ### Power-on, START, switches (R279, R283, R288) -/

/-- Island power-on (R279, R285, R290). The seal records are kept (R293). -/
def islandPowerOn (sw levels : Nat) (sealHigh lorHigh : Bool) (s : State) : State :=
  if !s.bak.main then s
  else
    let s := s.safDrive false false
    let t := s.isl.rd addr_SAF_SEAL_T
    let n := s.isl.rd addr_SAF_SEAL_N
    let form := swBit sw 15
    let i : Island := { levels := levels % 2 ^ 16, form := form, lorHeld := lorHigh }
    let i := { i with ins := i.derived form }
    let i := ((i.wr addr_SAF_SEAL_T t).wr addr_SAF_SEAL_N n).setF SAF_SW_NOW sw
    let i := (i.setB SAF_STAT_SEAL (!sealHigh)).setB SAF_STAT_LOR lorHigh
    let i := (i.setF SAF_STAT_BAK_LOST (i.getF SAF_SEAL_N_BAK_LOST)).showIn
    let was := s.isl.bit SAF_STAT_KEY
    let s := { s with isl := i }
    let s := s.onDev fun d => { d.setF CRG_STAT_AOC_OK 1 with crg := { d.crg with aocLost := false } }
    let s := s.safLine true
    if was then s.onDev fun d => (d.setF MGT_STAT_MAINT_OK 0).keyEnd else s

/-- The switch values in use become `sw`; a new FORM derives the inputs afresh (R284, R290). -/
def Island.adopt (i : Island) (sw : Nat) (ins : List Nat) : Island :=
  ({ (i.setF SAF_SW_USE sw) with ins := ins, form := swBit sw 15, swN := 0 }.setF SAF_STAT_SW_PEND 0).showIn

/-- The reason for which START ends in LOCKOUT, in the order of R288; `none`: RUN. -/
def State.startReason (s : State) (sw : Nat) : Option Nat :=
  if s.isl.getF SAF_SEAL_N_COUNT ≠ 0 then some 0x02
  else if s.isl.bit SAF_SEAL_N_BAK_LOST then some 0x03
  else if !swBit sw 14 then some 0x01
  else if s.dev.bit BOT_STAT_SLIPWAY then some 0x0B
  else if !s.isl.bit SAF_STAT_SEAL then some 0x04
  else unhealthy sw s.isl.ins

/-- The switch values read in START are adopted; no record says so, since no values were in use (R283, R288). -/
def State.startAdopt (s : State) (sw : Nat) : State :=
  let i := s.isl.setF SAF_SW_NOW sw
  let ins := if swBit sw 15 = i.form then i.ins else i.derived (swBit sw 15)
  State.keySync { s with isl := i.adopt sw ins }

/-- 64 AOC cycles after power-on (R288, R293). -/
def islandStart (sw : Nat) (s : State) : State :=
  if s.safClocked ∧ s.safState = safStart ∧ s.isl.lost = 0 then
    let s := s.startAdopt sw
    let s := if s.isl.getF SAF_SEAL_N_COUNT ≠ 0 then (s.safEvt SAF_EVT_SEAL_BRK).safLogEvt 3 [] else s
    match s.startReason sw with
    | some r => s.lockout r
    | none => s.safEnterRun
  else s

/-- A read of the switches (R283). -/
def switchRead (sw : Nat) (s : State) : State :=
  if !s.safClocked then s
  else
    let s := s.setIsl (·.setF SAF_SW_NOW sw)
    if s.safState = safStart then s
    else if s.isl.use = sw % 2 ^ 16 then s.setIsl fun i => { i.setF SAF_STAT_SW_PEND 0 with swN := 0 }
    else
      let n := min 2 (s.isl.swN + 1)
      let s := s.setIsl fun i => { i with swN := n }
      if n = 2 ∧ !s.isl.bit SAF_STAT_SW_PEND then
        let s := ((s.setIsl (·.setF SAF_STAT_SW_PEND 1)).safEvt SAF_EVT_SW_CHANGE).safBump SAF_SW_CHANGE
        if s.safState = safRun then s.safDemand 0x05 else s
      else s

/-! ### Inputs and LOR (R285, R286, R290) -/

/-- Input n takes a state; leaving CLOSED is a demand of an enabled input but the key (R286). -/
def State.setIn (s : State) (n st : Nat) : State :=
  let old := s.isl.ins.getD n inOpen
  let s := (s.setIsl fun i => { i with ins := i.ins.set n st }.showIn).keySync
  if old = inClosed ∧ st ≠ inClosed ∧ swBit s.isl.use n ∧ !keyInput s.isl.use n then s.safDemand (0x10 + n) else s

/-- The filtered levels of an input's channels change (R284, R285). -/
def safetyInput (n : Nat) (a b : Bool) (s : State) : State :=
  if s.safClocked ∧ n < 8 then
    let s := s.setIsl fun i => { i with levels := (fldPut (2 * n) 2 (b2n a + 2 * b2n b) (BitVec.ofNat 32 i.levels)).toNat }
    s.setIn n (nextIn (s.isl.ins.getD n inOpen) (s.isl.chan s.isl.form n))
  else s

/-- The discrepancy timer of an input reaches Td (R285, R286). -/
def discrepancyTimeout (n : Nat) (s : State) : State :=
  let st := s.isl.ins.getD n inOpen
  if s.safClocked ∧ n < 8 ∧ (st = inOpening ∨ st = inClosing) then
    let s := s.setIsl fun i => { i with ins := i.ins.set n inDiscrepant }.showIn
    if swBit s.isl.use n then (((s.safEvt SAF_EVT_DISCREP).safBump SAF_DISCREP).safLogEvt 2 [0x18 + n]).safDemand (0x18 + n) else s
  else s

/-- Why a press is refused, 0 if it is accepted; the conditions in the order of R290. -/
def State.lorReason (s : State) (cycles sw : Nat) (ins : List Nat) (balls : Bool) : Nat :=
  if s.safState ≠ safLockout then 5
  else if 5 * 32768 < cycles then 3
  else if s.dev.bit BOT_STAT_SLIPWAY then 4
  else if (unhealthy sw ins).isSome then 1
  else if !s.isl.bit SAF_STAT_SEAL then 2
  else if balls ∨ s.isl.lost ≠ 0 then 6
  else 0

/-- Live-injection permission is withdrawn while an arm is enabled (R97). -/
def State.liveWithdrawn (s : State) (old : Nat) : State :=
  s.onDev fun d => if swBit old 11 && !swBit s.isl.use 11 && !d.noArm then d.fiEnd 5 (fun _ _ => true) else d

/-- A press of LOR ends (R290). A ball that reads high in LOCKOUT is a fault of R291 that is present. -/
def lorPress (cycles sw : Nat) (ballA ballB : Bool) (s : State) : State :=
  if !s.safClocked then s
  else if s.isl.lorHeld then s.setIsl fun i => { i.setF SAF_STAT_LOR 0 with lorHeld := false }
  else if cycles * 5 < 32768 then s
  else
    let sw := sw % 2 ^ 16
    let s := s.setIsl fun i => i.setF SAF_SW_NOW sw
    let old := s.isl.use
    let ins := if sw = old then s.isl.ins else s.isl.derived (swBit sw 15)
    let r := s.lorReason cycles sw ins (ballA || ballB)
    let s := s.setIsl fun i => ((i.setB SAF_LOR_ACCEPTED (decide (r = 0))).setF SAF_LOR_REASON r).setF SAF_LOR_DUR
      (min 8191 (cycles * 1000 / 32768))
    if r ≠ 0 then
      let s := if s.safState = safLockout then s.setIsl fun i => (i.setB SAF_STAT_SO_A ballA).setB SAF_STAT_SO_B ballB else s
      (s.safEvt SAF_EVT_LOR_REFUSED).safBump SAF_LOR_REFUSED
    else
      let s := if sw = old then s else s.safLogReg 0x28 [old, sw]
      let s := ((s.setIsl fun i => i.adopt sw ins).keySync).liveWithdrawn old
      s.safEnterRun.safLogEvt 1 []

/-! ### Self-checks (R291) -/

def State.outFault (s : State) : State := ((s.safEvt SAF_EVT_OUT_FAULT).safBump SAF_OUT_FAULT).safDemand 0x06

/-- The test pulse of one output in RUN. -/
def testPulse (chB low : Bool) (s : State) : State :=
  if s.safClocked ∧ s.safState = safRun ∧ s.isl.lost = 0 then
    let s := s.onDev fun d => (d.emit .pin (201 + b2n chB) [0]).emit .pin (201 + b2n chB) [1]
    if low then s else s.outFault
  else s

/-- Three samples of a ball differ from the level driven. -/
def readbackFault (chB : Bool) (s : State) : State :=
  if !s.safClocked then s
  else
    let lvl := !(if chB then s.isl.outB else s.isl.outA)
    let s := s.outFault
    if chB then s.setIsl (·.setB SAF_STAT_SO_B lvl) else s.setIsl (·.setB SAF_STAT_SO_A lvl)

/-- AOC is lost, or a supply is low: outputs low and source 61 active, the state kept (R291). -/
def State.causeBegins (s : State) (supply : Bool) : State :=
  let bit := if supply then 2 else 1
  if !s.bak.main ∨ s.isl.lost / bit % 2 = 1 then s
  else
    let s := (s.setIsl fun i => { i with lost := i.lost + bit }).safDrive false false
    let s := if supply then (if s.isl.lost % 2 = 0 then s.setIsl fun i => (i.setF SAF_STAT_SO_A 0).setF SAF_STAT_SO_B 0 else s)
      else s.onDev fun d => { d.setF CRG_STAT_AOC_OK 0 with crg := { d.crg with aocLost := true } }
    s.safLine true

/-- A cause of R291 ends; with the last one gone the island enters LOCKOUT with its reason. -/
def causeEnds (supply : Bool) (s : State) : State :=
  let bit := if supply then 2 else 1
  if !s.bak.main ∨ s.isl.lost / bit % 2 = 0 then s
  else
    let s := s.setIsl fun i => { i with lost := i.lost - bit }
    let s := if supply then s else s.onDev fun d => { d.setF CRG_STAT_AOC_OK 1 with crg := { d.crg with aocLost := false } }
    let reason := if supply then 0x09 else 0x08
    if s.isl.lost ≠ 0 then s
    else if s.safState = safLockout then s.safDemand reason
    else s.lockout reason

/-- The channels differ (R291). -/
def crossFault (s : State) : State := if s.safClocked then s.safDemand 0x07 else s

/-! ### Seal (R292, R293) -/

/-- A break is stored. -/
def State.storeBreak (s : State) : State :=
  let n := s.isl.getF SAF_SEAL_N_COUNT
  let t := s.dev.brtc / 32768
  s.setIsl fun i =>
    let i := if n = 0 then i.setF SAF_SEAL_T_S t else i
    i.setF SAF_SEAL_N_COUNT (min 255 (n + 1))

/-- The filtered SEAL pin goes high while powered. -/
def sealBreak (s : State) : State :=
  if s.safClocked ∧ s.isl.bit SAF_STAT_SEAL then
    let s := ((s.setIsl (·.setF SAF_STAT_SEAL 0)).storeBreak).safEvt SAF_EVT_SEAL_BRK
    if s.safState = safRun then s.safDemand 0x04 else s
  else s

def sealIntact (s : State) : State := if s.safClocked then s.setIsl (·.setF SAF_STAT_SEAL 1) else s

/-- One sample of the unpowered seal watch. -/
def sealWatch (high : Bool) (s : State) : State :=
  if s.bak.main then s
  else if high then
    let n := s.isl.sealN
    let s := s.setIsl fun i => { i with sealN := min 2 (n + 1) }
    if n = 1 then s.storeBreak else s
  else s.setIsl fun i => { i with sealN := 0 }

/-! ### Register writes (R293, R294, R297) -/

/-- A write of a register of the island: judged as any other; `ok` says whether the island takes it. -/
def State.safWrite (s : State) (p : Path) (a : Nat) (v : Word) (ok : Bool) (eff : State → State) : Nat × State :=
  if !s.bak.main then (stR10, s)
  else
    let r := s.dev.guardW (s.classOf p) (pathNo p) a v id (fun d => (ok, d))
    let s := { s with dev := r.2 }
    (r.1, if r.1 = stDone then eff s else s)

/-- SAF_CTRL (R293, R294). A SEAL_CLR while the seal is broken refuses the whole write. -/
def State.safCtrl (s : State) (p : Path) (v : Word) : Nat × State :=
  let clr := decide (v.toNat / 2 % 2 = 1)
  s.safWrite p addr_SAF_CTRL v (!clr || s.isl.bit SAF_STAT_SEAL) fun s =>
    let s := if clr then
        let n := s.isl.rd addr_SAF_SEAL_N
        let t := s.isl.rd addr_SAF_SEAL_T
        let s := s.setIsl fun i => ((i.wr addr_SAF_SEAL_N 0).wr addr_SAF_SEAL_T 0).setF SAF_STAT_BAK_LOST 0
        s.safLogReg 0x34 [n.toNat % 256, n.toNat / 256, t.toNat]
      else s
    if v.toNat % 2 = 1 ∧ s.safState = safRun then s.safDemand 0x0A else s

/-- Any other register of the island (R6). -/
def State.safPlain (s : State) (p : Path) (a : Nat) (v : Word) : Nat × State :=
  s.safWrite p a v true fun s => match regRow? a with
    | some r => s.setIsl fun i => i.wr a (applyFields r.fields v (i.rd a))
    | none => s

/-- The reply to an access of the island, as to any other. -/
def State.replied (r : Nat × State) (p : Path) (a : Nat) : State := r.2.onDev fun d => d.emit .reply (pathNo p) [r.1, a]

/-! ### The commands -/

/-- ISLAND_POWER_ON (R279, R285). -/
def execIslandPowerOn (sw levels : Nat) (sealHigh lorHigh : Bool) (s : State) : Host.Outcome State Fault Refusal :=
  .next (islandPowerOn sw levels sealHigh lorHigh s)

/-- ISLAND_START (R288). -/
def execIslandStart (sw : Nat) (s : State) : Host.Outcome State Fault Refusal := .next (islandStart sw s)

/-- SWITCH_READ (R283). -/
def execSwitchRead (sw : Nat) (s : State) : Host.Outcome State Fault Refusal := .next (switchRead sw s)

/-- SAFETY_INPUT (R284 to R287). -/
def execSafetyInput (i : Nat) (a b : Bool) (s : State) : Host.Outcome State Fault Refusal := .next (safetyInput i a b s)

/-- DISCREPANCY_TIMEOUT (R285). -/
def execDiscrepancyTimeout (i : Nat) (s : State) : Host.Outcome State Fault Refusal := .next (discrepancyTimeout i s)

/-- LOR_PRESS (R290). -/
def execLorPress (cycles sw : Nat) (ballA ballB : Bool) (s : State) : Host.Outcome State Fault Refusal :=
  .next (lorPress cycles sw ballA ballB s)

/-- TEST_PULSE (R291). -/
def execTestPulse (chB low : Bool) (s : State) : Host.Outcome State Fault Refusal := .next (testPulse chB low s)

/-- SAFEOFF_READBACK_FAULT (R291). -/
def execSafeoffReadbackFault (chB : Bool) (s : State) : Host.Outcome State Fault Refusal := .next (readbackFault chB s)

/-- AOC_LOSS (R291). -/
def execAocLoss (s : State) : Host.Outcome State Fault Refusal := .next (s.causeBegins false)

/-- ISLAND_SUPPLY_LOW (R291). -/
def execIslandSupplyLow (s : State) : Host.Outcome State Fault Refusal := .next (s.causeBegins true)

/-- FAULT_CAUSE_END (R291). -/
def execFaultCauseEnd (supply : Bool) (s : State) : Host.Outcome State Fault Refusal := .next (causeEnds supply s)

/-- CROSS_COMPARISON_FAULT (R291). -/
def execCrossComparisonFault (s : State) : Host.Outcome State Fault Refusal := .next (crossFault s)

/-- SEAL_BREAK (R292, R293). -/
def execSealBreak (s : State) : Host.Outcome State Fault Refusal := .next (sealBreak s)

/-- SEAL_INTACT (R292). -/
def execSealIntact (s : State) : Host.Outcome State Fault Refusal := .next (sealIntact s)

/-- SEAL_WATCH_PULSE (R293). -/
def execSealWatchPulse (high : Bool) (s : State) : Host.Outcome State Fault Refusal := .next (sealWatch high s)

/-- SEAL_CLR (R293). -/
def execSealClr (p : Path) (s : State) : Host.Outcome State Fault Refusal :=
  .next (State.replied (s.safCtrl p 2) p addr_SAF_CTRL)

/-- SAF_DEMAND (R294). -/
def execSafDemand (p : Path) (s : State) : Host.Outcome State Fault Refusal :=
  .next (State.replied (s.safCtrl p 1) p addr_SAF_CTRL)

end Sys2Proof.Machine
end

