-- ==== Sys2Proof/Machine/Logbook.lean ====
section
/-! DEFINITION. The Logbook and the memories' protection code (spec/16_logbook_manifest_thermal.md, R434 to R441, R451). -/

namespace Sys2Proof.Machine

/-! ### The record area (R435 to R437) -/

def Mram.stored (m : Mram) : List LogRec := m.slots.filterMap (·.2)

/-- The record of a list with the lowest SEQ that meets `c`, and with the highest. -/
def seqLow (c : LogRec → Bool) (l : List LogRec) : Option LogRec :=
  (l.filter c).foldl (fun b r => match b with
    | none => some r
    | some x => if r.seq < x.seq then some r else some x) none
def seqHigh (c : LogRec → Bool) (l : List LogRec) : Option LogRec :=
  (l.filter c).foldl (fun b r => match b with
    | none => some r
    | some x => if x.seq < r.seq then some r else some x) none

/-- Slots of the record area. -/
def logSlots : Nat := 65536

/-- The lowest number from `n` on that a list does not hold, among `fuel` of them. -/
def firstFree (fuel n : Nat) (l : List Nat) : Nat :=
  match fuel with
  | 0 => n
  | k + 1 => if l.contains n then firstFree k (n + 1) l else n

def Dev.showLog (d : Dev) : Dev :=
  (d.setF LOG_STAT_STORED d.mram.stored.length).setF LOG_STAT_FBUF d.log.fbuf.length

/-- The record `r` into slot `n` (R436). -/
def Dev.putSlot (d : Dev) (n : Nat) (r : LogRec) : Dev :=
  let d := { d with mram := { d.mram with slots := spSet none d.mram.slots n (some r), badSlots := d.mram.badSlots.filter (· ≠ n) } }
  let d := d.showLog
  if d.getF LOG_CTRL_ALERT_SEV ≤ r.sev then d.evt LOG_EVT_REC else d

/-- A record is stored: in the lowest free slot, or over the lowest SEQ of no higher severity, or it is dropped (R435). -/
def Dev.storeRec (d : Dev) (r : LogRec) : Dev :=
  let n := firstFree logSlots 0 (d.mram.slots.map (·.1))
  if n < logSlots then d.putSlot n r
  else match seqLow (fun x => decide (x.sev ≤ r.sev)) d.mram.stored with
    | some x =>
      let n := ((d.mram.slots.find? fun e => e.2 = some x).map (·.1)).getD 0
      ((d.bump LOG_OVERWRITES).evt LOG_EVT_OVERWRITE).putSlot n r
    | none => (d.bump LOG_DROPPED).evt LOG_EVT_DROP

/-! ### Freezing (R439) -/

def Dev.frozen (d : Dev) : Bool := d.bit LOG_STAT_FROZEN

/-- The freeze ends: the buffered records are stored in SEQ order, then the record that ended it. -/
def Dev.unfreeze (d : Dev) (last : Option LogRec) : Dev :=
  let buf := d.log.fbuf
  let d := { (d.setF LOG_CTRL_FREEZE 0).setF LOG_STAT_FROZEN 0 with log := { d.log with fbuf := [] } }
  let d := (buf.foldl Dev.storeRec d).showLog
  match last with | some r => d.storeRec r | none => d

/-- The head of the write queue leaves it (R435, R439). -/
def recordStore (d : Dev) : Dev :=
  match d.log.queue with
  | [] => d
  | r :: rest =>
    let d := { d with log := { d.log with queue := rest } }
    if !d.frozen then d.storeRec r
    else if d.log.fbuf.length < 256 then
      { d with log := { d.log with fbuf := d.log.fbuf ++ [{ r with frz := true }] } }.showLog
    else if 6 ≤ r.sev then (d.evt LOG_EVT_FRZ_END).unfreeze (some r)
    else (d.bump LOG_FRZ_DROP).evt LOG_EVT_DROP

/-- A write of LOG_CTRL: FREEZE begins or ends a freeze. -/
def logCtrlEffect (v : Word) : WEff := fun d =>
  if v.toNat % 2 = 1 then (true, if d.frozen then d else (d.setF LOG_CTRL_FREEZE 1).setF LOG_STAT_FROZEN 1)
  else (true, if d.frozen then d.unfreeze none else d)

/-- The freeze has lasted FRZ_TMO s. -/
def freezeTimeout (d : Dev) : Dev := if d.frozen then (d.unfreeze none).evt LOG_EVT_FRZ_END else d

/-! ### Clearing (R440) -/

def logClrEffect (v : Word) : WEff := fun d =>
  if fldGet 0 16 v = 0xC1EA ∧ !d.frozen then
    (true, { d with log := { d.log with clearAfter := some d.mram.header.1 } })
  else (false, d)

/-- Every record accepted before the clear has been stored: the clear takes effect. -/
def clearExecute (d : Dev) : Dev :=
  match d.log.clearAfter with
  | none => d
  | some q =>
    if (d.log.queue ++ d.log.fbuf).any (fun r => decide (r.seq ≤ q)) then d
    else
      let l := d.mram.stored
      let lo := ((seqLow (fun _ => true) l).map (·.seq)).getD 0
      let hi := ((seqHigh (fun _ => true) l).map (·.seq)).getD 0
      let d := { d with mram := { d.mram with slots := [], badSlots := [] }, log := { d.log with clearAfter := none } }.showLog
      (d.logAccept 22 0x4001 (d.rd addr_LOG_STAT).toNat (l.length :: (words64 lo ++ words64 hi)) true).evt LOG_EVT_CLEARED

/-! ### Cursors (R438) -/

def Dev.cursor (d : Dev) (c : Nat) : Cursor := if c = 0 then d.log.cur0 else d.log.cur1
def Dev.setCursor (d : Dev) (c : Nat) (x : Cursor) : Dev :=
  if c = 0 then { d with log := { d.log with cur0 := x } } else { d with log := { d.log with cur1 := x } }

/-- The record a cursor command finds. -/
def Dev.curFind (d : Dev) (c op : Nat) : Option LogRec :=
  let l := d.mram.stored
  let x := d.cursor c
  let all : LogRec → Bool := fun _ => true
  if op = 1 then seqLow all l
  else if op = 2 then seqHigh all l
  else if op = 3 then (if x.valid then seqLow (fun r => decide (x.pos < r.seq)) l else seqLow all l)
  else if op = 4 then (if x.valid then seqHigh (fun r => decide (r.seq < x.pos)) l else seqHigh all l)
  else
    let q := (d.rd (addr_LOG_CUR_SEEK_LO c)).toNat + (d.rd (addr_LOG_CUR_SEEK_HI c)).toNat * 2 ^ 32
    seqLow (fun r => decide (q ≤ r.seq)) l

/-- A write of LOG_CURc_CMD. -/
def curEffect (c : Nat) (v : Word) : WEff := fun d =>
  let op := fldGet 28 4 v
  if op = 0 ∨ 5 < op ∨ d.bit (LOG_CUR_STAT_BUSY c) then (false, d)
  else match d.curFind c op with
    | some r =>
      let d := d.setCursor c { d.cursor c with pos := r.seq, copy := some r }
      (true, (d.setF (LOG_CUR_STAT_BUSY c) 1).setF (LOG_CUR_STAT_END c) 0)
    | none => (true, d.setF (LOG_CUR_STAT_END c) 1)

/-- A cursor's copy completes. -/
def cursorCopyDone (c : Nat) (d : Dev) : Dev :=
  match (d.cursor c).copy with
  | none => d
  | some r =>
    let bs := r.bytes
    let d := forN 16 (fun w d => d.wrN (addr_LOG_CUR_WIN c w) (leNat ((bs.drop (4 * w)).take 4))) d
    let d := d.setCursor c { d.cursor c with valid := true, copy := none }
    (d.setF (LOG_CUR_STAT_BUSY c) 0).setF (LOG_CUR_STAT_VALID c) 1

/-- The next SEQ and the lowest stored SEQ, as LOG_NEXT and LOG_OLD show them (R451). -/
def Dev.logNext (d : Dev) : Nat := (d.mram.header.1 + 1) % 2 ^ 64
def Dev.logOld (d : Dev) : Nat := ((seqLow (fun _ => true) d.mram.stored).map (·.seq)).getD 0

def nextLoRead (pn : Nat) (d : Dev) : Word × Dev :=
  (BitVec.ofNat 32 d.logNext, d.setLatch pn addr_LOG_NEXT_HI (d.logNext / 2 ^ 32))
def oldLoRead (pn : Nat) (d : Dev) : Word × Dev :=
  (BitVec.ofNat 32 d.logOld, d.setLatch pn addr_LOG_OLD_HI (d.logOld / 2 ^ 32))

/-! ### Recovery (R437) -/

/-- Step 3 of the start sequence: bad slots are free and counted; records in the queue and the freeze buffer are lost. -/
def Dev.logRecover (d : Dev) : Dev :=
  let n := d.mram.badSlots.length
  let d := if n = 0 then d else (d.bumpBy LOG_BADREC n).evt LOG_EVT_BADREC
  { d with log := {}, mram := { d.mram with badSlots := [] } }.showLog

/-! ### Memory protection (R441) -/

def setNth {α : Type} (l : List α) (n : Nat) (f : α → α) : List α := l.zipIdx.map fun e => if e.2 = n then f e.1 else e.1

/-- The effect of an uncorrectable word of MRAM. -/
def Dev.mramBad (d : Dev) (w : MramWord) : Dev :=
  match w with
  | .slot n =>
    if (spGet none d.mram.slots n).isSome then
      let d := { d with mram := { d.mram with slots := spErase d.mram.slots n, badSlots := d.mram.badSlots.filter (· ≠ n) } }
      ((d.bump LOG_BADREC).evt LOG_EVT_BADREC).showLog
    else d
  | .archive age => { d with mram := { d.mram with archive := setNth d.mram.archive age fun e => { e with bad := true } } }
  | .header second => { d with mram := if second then { d.mram with hdrB := none } else { d.mram with hdrA := none } }
  | .meter last => if last then { d with mram := { d.mram with meter := none, meterBad := true } } else d
  | .fails last => if last then { d with mram := { d.mram with fails := 0 } } else d
  | .other => d

/-- The effect of an uncorrectable word, by memory. The frames of memories 2, 3 and 5 are gone from the model when they are scrubbed:
only memory 2 leaves a count. The firmware of memory 4 stops; the watchdog's reset is a command of its own (R391). -/
def Dev.eccEffect (d : Dev) (f : ScrubWord) : Dev :=
  match f.mem with
  | 0 => forN 4 (fun i d => if 4 * f.word + i < 0x80000 then d.setMwN (4 * f.word + i) 0x7FC00000 else d) d
  | 1 => if d.hlm.bad.contains f.word then d else { d with hlm := { d.hlm with bad := f.word :: d.hlm.bad } }
  | 2 => (d.bump TWL_BAD_FRAME).evt TWL_EVT_BAD_FRAME
  | 6 => d.mramBad f.holds
  | _ => d

/-- A word read by the scrubber. -/
def scrub (f : ScrubWord) (d : Dev) : Dev :=
  if 6 < f.mem then d
  else if f.err = 1 then d.bump (LOG_ECC_COR f.mem)
  else if f.err = 2 then
    let d := ((d.bump (LOG_ECC_UNC f.mem)).evt LOG_EVT_ECC_UNC).setF LOG_ECC_LAST_MEM f.mem
    ((d.setF LOG_ECC_LAST_WORD f.word).logEvt 22 7 []).eccEffect f
  else d

/-! ### The commands -/

def State.curRow (s : State) (p : Path) (c op : Nat) : State :=
  let v : Word := BitVec.ofNat 32 (op * 2 ^ 28)
  s.inst (decide (c < 2)) fun s => s.writeRow p (addr_LOG_CUR_CMD c) v id (curEffect c v)

/-- A write of LOG_CTRL that changes FREEZE alone. -/
def State.freezeRow (s : State) (p : Path) (on : Bool) : State :=
  let v := fldPut 0 1 (b2n on) (s.dev.rd addr_LOG_CTRL)
  s.writeRow p addr_LOG_CTRL v id (logCtrlEffect v)

/-- RECORD_STORE (R435, R439). -/
def execRecordStore (s : State) : Host.Outcome State Fault Refusal := .next (s.onDev recordStore)

/-- OLDEST (R438). -/
def execOldest (p : Path) (c : Nat) (s : State) : Host.Outcome State Fault Refusal := .next (s.curRow p c 1)

/-- NEWEST (R438). -/
def execNewest (p : Path) (c : Nat) (s : State) : Host.Outcome State Fault Refusal := .next (s.curRow p c 2)

/-- NEXT (R438). -/
def execNext (p : Path) (c : Nat) (s : State) : Host.Outcome State Fault Refusal := .next (s.curRow p c 3)

/-- PREV (R438). -/
def execPrev (p : Path) (c : Nat) (s : State) : Host.Outcome State Fault Refusal := .next (s.curRow p c 4)

/-- SEEK (R438). -/
def execSeek (p : Path) (c : Nat) (s : State) : Host.Outcome State Fault Refusal := .next (s.curRow p c 5)

/-- CURSOR_COPY_DONE (R438). -/
def execCursorCopyDone (c : Nat) (s : State) : Host.Outcome State Fault Refusal :=
  .next (s.inst (decide (c < 2)) fun s => s.onDev (cursorCopyDone c))

/-- FREEZE (R439). -/
def execFreeze (p : Path) (s : State) : Host.Outcome State Fault Refusal := .next (s.freezeRow p true)

/-- UNFREEZE (R439). -/
def execUnfreeze (p : Path) (s : State) : Host.Outcome State Fault Refusal := .next (s.freezeRow p false)

/-- FREEZE_TIMEOUT (R439). -/
def execFreezeTimeout (s : State) : Host.Outcome State Fault Refusal := .next (s.onDev freezeTimeout)

/-- LOG_CLR (R440). -/
def execLogClr (p : Path) (v : Word) (s : State) : Host.Outcome State Fault Refusal :=
  .next (s.writeRow p addr_LOG_CLR v id (logClrEffect v))

/-- CLEAR_EXECUTE (R440). -/
def execClearExecute (s : State) : Host.Outcome State Fault Refusal := .next (s.onDev clearExecute)

/-- NEXT_LO_READ (R451, R460). -/
def execNextLoRead (p : Path) (s : State) : Host.Outcome State Fault Refusal :=
  .next (s.readRow p addr_LOG_NEXT_LO (nextLoRead (pathNo p)))

/-- OLD_LO_READ (R451, R460). -/
def execOldLoRead (p : Path) (s : State) : Host.Outcome State Fault Refusal :=
  .next (s.readRow p addr_LOG_OLD_LO (oldLoRead (pathNo p)))

/-- SCRUB (R441). -/
def execScrub (f : ScrubWord) (s : State) : Host.Outcome State Fault Refusal := .next (s.onDev (scrub f))

end Sys2Proof.Machine
end

