-- ==== Sys2Proof/Machine/Manifest.lean ====
section
/-! DEFINITION. What a read shows beside the register file, and the Manifest (spec/16_logbook_manifest_thermal.md, R442 to R445,
R452). -/

namespace Sys2Proof.Machine

/-! ### Registers that are formed when they are read -/

/-- Seconds of the present holdover (R67). -/
def Dev.hoTime (d : Dev) : Nat :=
  if d.tbsState = tbsHoldover then min (2 ^ 32 - 1) ((d.time - d.tbs.hoStart) / (10 ^ 9 * 2 ^ 32)) else 0

/-- 32 live source levels (R264, R271, R278). -/
def Dev.liveLevels (d : Dev) (lo : Nat) : Nat := ((List.range 32).map fun i => if d.srcActive (lo + i) then 2 ^ i else 0).sum

/-- LNK_LEVT_SUM (R98). -/
def Dev.levtSum (d : Dev) (lo n : Nat) : Nat :=
  ((List.range n).map fun i =>
    if flagged (d.rd (addr_LNK_LEVT (lo + i))) (d.rd (addr_LNK_LEVT_EN (lo + i))) then 2 ^ i else 0).sum

/-- What a read of address `a` finds in the main-supply part, without the side effects of the read. -/
def Dev.peek (d : Dev) (a : Nat) : Word :=
  if 0x200000 ≤ a ∧ a < 0x400000 then d.mw ((a - 0x200000) / 4)
  else if 0x190000 ≤ a ∧ a < 0x1A0000 then spGet 0 d.hlm.stage ((a - 0x190000) / 4)
  else if a = addr_BOT_SER_LO then BitVec.ofNat 32 Config.serialNo
  else if a = addr_BOT_SER_HI then BitVec.ofNat 32 (Config.serialNo / 2 ^ 32)
  else if a = addr_TBS_TIME_LO then BitVec.ofNat 32 (timeLo d.time)
  else if a = addr_TBS_HO_TIME then BitVec.ofNat 32 d.hoTime
  else if a = addr_CRG_BRTC_LO then BitVec.ofNat 32 (d.brtc / 32768)
  else if a = addr_TRP_LEVEL0 then BitVec.ofNat 32 (d.liveLevels 0)
  else if a = addr_TRP_LEVEL1 then BitVec.ofNat 32 (d.liveLevels 32)
  else if a = addr_LNK_LEVT_SUM0 then BitVec.ofNat 32 (d.levtSum 0 32)
  else if a = addr_LNK_LEVT_SUM1 then BitVec.ofNat 32 (d.levtSum 32 32)
  else if a = addr_LNK_LEVT_SUM2 then BitVec.ofNat 32 (d.levtSum 64 8)
  else if a = addr_LOG_NEXT_LO then BitVec.ofNat 32 d.logNext
  else if a = addr_LOG_OLD_LO then BitVec.ofNat 32 d.logOld
  else d.rd a

/-- The Manifest copies of block 19 lie in the main-supply part, like those of every block. -/
def safManAddr (a : Nat) : Bool := decide (addr_SAF_MAN 0 ≤ a ∧ a < addr_SAF_MAN 64)

/-- What a read of address `a` finds, without the side effects of the read. -/
def State.peek (s : State) (a : Nat) : Word :=
  if a = addr_MGT_ALERT_SUM then BitVec.ofNat 32 s.alertSum
  else if blockOf a = some 19 ∧ !safManAddr a then s.isl.rd a
  else s.dev.peek a

/-! ### The latch (R443, R444) -/

/-- The words of block `b` from offset 0xE00 on, as its chapter lists them; `tl` is the block's latch time. -/
def State.manWords (s : State) (b tl : Nat) : List Nat :=
  let d := s.dev
  let w := fun a => (s.peek a).toNat
  match b with
  | 0 => [w addr_MGT_STAT]
  | 1 => [w addr_CRG_STAT, w addr_CRG_RAIL, ((List.range 4).map fun n => d.getF (CRG_PLL_LOCK n) * 2 ^ n).sum]
  | 2 => [w addr_BOT_STAT, w addr_BOT_ARM]
  | 3 => [w addr_THM_STAT]
  | 4 => [timeLo tl, timeHi tl, timeFr tl, w addr_TBS_STAT]
  | 6 => [w addr_NET_STAT2]
  | 7 => [w addr_SVX_SUBVALID, w addr_SVX_SUBLOST]
  | 8 => [w addr_GSE_GB0, w addr_GSE_GB1, w addr_GSE_GT]
  | 9 =>
    let lk := fun lo n => ((List.range n).map fun i => if d.getF (LNK_LSTAT_BLK_ST (lo + i)) = 2 then 2 ^ i else 0).sum
    [lk 0 32, lk 32 32, lk 64 8, w addr_LNK_STAT]
  | 10 => (List.range 8).map (fun i => w (addr_TWL_STALE i)) ++ [w addr_TWL_STAT]
  | 11 => [w addr_CBK_STAT, w addr_CBK_LATE0, w addr_CBK_LATE1,
      ((List.range 16).map fun j => d.getF (CBK_LB_STAT_PIN_A j) * 4 ^ j + d.getF (CBK_LB_STAT_PIN_B j) * 2 * 4 ^ j).sum]
  | 12 => [w addr_HLM_STAT, w addr_HLM_LOOPST, w addr_HLM_RUN]
  | 13 => [w addr_GWY_OVS_SUM, ((List.range 32).map fun n => if d.gwyHolding n then 2 ^ n else 0).sum]
  | 14 => (List.range 8).map (fun a => w (addr_BLS_ARM_STAT a)) ++ [w addr_BLS_STAT]
  | 15 => [w addr_MOD_VALID, w addr_MOD_RANGE, w addr_MOD_CAPT_LO]
  | 16 => [w addr_SAR_STAT, ((List.range 5).map fun x => if (d.sarBusy x).isSome then 2 ^ x else 0).sum]
  | 17 => [w addr_WCM_LEVEL]
  | 18 => [w addr_TRP_STAT, w addr_TRP_LEVEL0, w addr_TRP_LEVEL1]
  | 19 => [w addr_SAF_STAT, w addr_SAF_IN, w addr_SAF_RAW]
  | 20 => [w addr_MTR_STAT, d.getF (MTR_DEM_HDR_SEQ 0) + d.getF (MTR_DEM_HDR_SEQ 1) * 2 ^ 16]
  | 21 => [w addr_MOR_STAT, w addr_MOR_OBEY]
  | 22 => [w addr_LOG_STAT]
  | 23 => [w addr_MFT_STAT]
  | _ => []

/-- Byte address of Manifest word `i` of block `b`. -/
def manAddr (b i : Nat) : Nat := statAddr b - 8 + 0xE00 + 4 * i

/-- The domain clock of block `b` is stopped (R385, R443). -/
def Dev.blockStopped (d : Dev) (b : Nat) : Bool := d.stopped (domOf (statAddr b))

/-- T_m: every block latches, and the Manifest is captured. `late` is each block's latch time minus T_m in ns. -/
def manifestLatch (late : List Nat) (s : State) : State :=
  match s.dev.mft.pend with
  | none => s
  | some p =>
    let words := (List.range 24).map fun b => s.manWords b (p.tm + nsU (late.getD b 0))
    let stop := (List.range 24).map s.dev.blockStopped
    s.onDev fun d =>
      let d := forN 24 (fun b d =>
        let d := (words.getD b []).zipIdx.foldl (fun d e => d.wrN (manAddr b e.2) e.1) d
        (d.setF (MFT_LAT_LATE b) (late.getD b 0)).setB (MFT_LAT_STOPPED b) (stop.getD b false)) d
      let num := ((d.rd addr_MFT_NUM).toNat + 1) % 2 ^ 32
      let d := ((d.wrN addr_MFT_TM_LO (timeLo p.tm)).wrN addr_MFT_TM_HI (timeHi p.tm)).wrN addr_MFT_TM_FR (timeFr p.tm)
      let d := ((d.wrN addr_MFT_NUM num).wrN addr_MFT_DETAIL p.det).setF MFT_STAT_SRC p.src
      let d := ((d.setF MFT_STAT_ARMED 0).evt MFT_EVT_CAPTURED).bump MFT_CAPTURES
      let e : ArcEntry :=
        { tm := p.tm, num := num, src := p.src, det := p.det,
          lat := (List.range 24).map fun b => late.getD b 0 % 65536,
          stopped := ((List.range 24).map fun b => if stop.getD b false then 2 ^ b else 0).sum,
          words := (List.range 24).foldl (fun m b => (List.range 64).foldl (fun m i =>
            spSet 0 m (64 * b + i) (d.rd (manAddr b i))) m) [],
          bad := false }
      let d := { d.setF MFT_STAT_ARC_BUSY 1 with mft := { d.mft with pend := none, arcNew := some e } }
      d.logEvt 23 0 (num :: timeWords p.tm)

/-! ### Re-arm and archive (R444, R445) -/

def Dev.mftArm (d : Dev) : Dev := { d.setF MFT_STAT_ARMED 1 with mft := { d.mft with rearm := false } }

/-- A write of MFT_CTRL: REARM first, then TRIG. -/
def mftCtrlEffect (v : Word) : WEff := fun d =>
  let d := if v.toNat % 2 = 1 then
      (if d.bit MFT_STAT_ARC_BUSY then { d with mft := { d.mft with rearm := true } } else d.mftArm)
    else d
  (true, if v.toNat / 2 % 2 = 1 then d.mftTrigger 5 0 else d)

/-- The archive write completes, or fails. -/
def archiveWriteDone (ok : Bool) (d : Dev) : Dev :=
  match d.mft.arcNew with
  | none => d
  | some e =>
    let d := { d with mft := { d.mft with arcNew := none },
                      mram := { d.mram with archive := ({ e with bad := !ok } :: d.mram.archive).take 32 } }
    let d := (d.setF MFT_STAT_ARC_BUSY 0).setF MFT_STAT_ARCN d.mram.archive.length
    let d := if ok then d else (d.evt MFT_EVT_ARC_FAIL).bump MFT_ARC_FAIL
    if d.bit MFT_CFG_AUTO || d.mft.rearm then d.mftArm else d

/-- Word `w` of slice `sl` of an archive entry: slice 0 is the header. -/
def ArcEntry.word (e : ArcEntry) (sl w : Nat) : Word :=
  if sl ≠ 0 then spGet 0 e.words (64 * (sl - 1) + w)
  else BitVec.ofNat 32 (match w with
    | 0 => timeLo e.tm | 1 => timeHi e.tm | 2 => timeFr e.tm | 3 => e.num | 4 => e.src | 5 => e.det | 18 => e.stopped
    | _ => if w < 18 then e.lat.getD (2 * (w - 6)) 0 + e.lat.getD (2 * (w - 6) + 1) 0 * 65536 else 0)

/-- A write of MFT_ASEL starts a copy. -/
def aselEffect (v : Word) : WEff := fun d =>
  if 24 < fldGet 0 5 v then (false, d)
  else
    let d := (plainWrite addr_MFT_ASEL v d).2
    (true, { d.setF MFT_ASTAT_BUSY 1 with mft := { d.mft with copy := some (fldGet 8 5 v, fldGet 0 5 v) } })

/-- The copy completes; with no such entry the window is left and VALID is 0. -/
def aselCopyDone (d : Dev) : Dev :=
  match d.mft.copy with
  | none => d
  | some (age, sl) =>
    let d := { d.setF MFT_ASTAT_BUSY 0 with mft := { d.mft with copy := none } }
    match d.mram.archive[age]? with
    | none => (d.setF MFT_ASTAT_VALID 0).setF MFT_ASTAT_BAD 0
    | some e =>
      let d := forN 64 (fun w d => d.wr (addr_MFT_AWIN w) (e.word sl w)) d
      (d.setF MFT_ASTAT_VALID 1).setB MFT_ASTAT_BAD e.bad

def tmLoRead (pn : Nat) (d : Dev) : Word × Dev :=
  (d.rd addr_MFT_TM_LO, (d.setLatch pn addr_MFT_TM_HI (d.rd addr_MFT_TM_HI).toNat).setLatch pn addr_MFT_TM_FR
    (d.rd addr_MFT_TM_FR).toNat)

/-- Sampling instants since the control period started; the periodic trigger at every PER_N-th one has T_m = S(k) (R442, R443). -/
def Dev.mftSample (d : Dev) : Dev :=
  let n := d.mft.perCnt + 1
  let per := d.getF MFT_CFG_PER_N
  let hit := decide (per ≤ n)
  let d := { d with mft := { d.mft with perCnt := if hit then 0 else n } }
  if hit then d.mftTriggerAt 6 0 (unitsOf125 d.per.sk) else d

/-! ### The commands -/

/-- MANIFEST_LATCH (R443, R444). -/
def execManifestLatch (late : List Nat) (s : State) : Host.Outcome State Fault Refusal := .next (manifestLatch late s)

/-- MANIN (R442). -/
def execManin (s : State) : Host.Outcome State Fault Refusal := .next (s.onDev (·.mftTrigger 4 0))

/-- MFT_TRIG (R442). -/
def execMftTrig (p : Path) (s : State) : Host.Outcome State Fault Refusal :=
  .next (s.writeRow p addr_MFT_CTRL 2 id (mftCtrlEffect 2))

/-- MFT_REARM (R444). -/
def execMftRearm (p : Path) (s : State) : Host.Outcome State Fault Refusal :=
  .next (s.writeRow p addr_MFT_CTRL 1 id (mftCtrlEffect 1))

/-- ARCHIVE_WRITE_DONE (R445). -/
def execArchiveWriteDone (ok : Bool) (s : State) : Host.Outcome State Fault Refusal := .next (s.onDev (archiveWriteDone ok))

/-- ASEL_WRITE (R445, R452). -/
def execAselWrite (p : Path) (v : Word) (s : State) : Host.Outcome State Fault Refusal :=
  .next (s.writeRow p addr_MFT_ASEL v id (aselEffect v))

/-- ASEL_COPY_DONE (R445). -/
def execAselCopyDone (s : State) : Host.Outcome State Fault Refusal := .next (s.onDev aselCopyDone)

/-- TM_LO_READ (R452, R460). -/
def execTmLoRead (p : Path) (s : State) : Host.Outcome State Fault Refusal :=
  .next (s.readRow p addr_MFT_TM_LO (tmLoRead (pathNo p)))

end Sys2Proof.Machine
end

