-- ==== Sys2Proof/Machine/Thermal.lean ====
section
/-! DEFINITION. Thermal management (spec/16_logbook_manifest_thermal.md, R446 to R450, R453). Temperatures are in 0.125 °C. -/

namespace Sys2Proof.Machine

/-- States of R447, as THM_STAT.STATE codes them. -/
def thmNormal : Nat := 0
def thmWarn : Nat := 1
def thmStage1 : Nat := 2
def thmStage2 : Nat := 3
def thmHold : Nat := 4

def Dev.thmState (d : Dev) : Nat := d.getF THM_STAT_STATE

/-- Degrees Celsius. -/
def degC (n : Nat) : Int := 8 * n

/-- The source of the matrix that the thermal hold drives (R263). -/
def srcThm : Nat := 62

/-- Insert into a rising list of integers. -/
def insInt (x : Int) (l : List Int) : List Int :=
  match l with
  | [] => [x]
  | a :: t => if x < a then x :: a :: t else a :: insInt x t

/-- The median of the nine readings. -/
def median (ts : List Int) : Int := (ts.foldl (fun l x => insInt x l) []).getD 4 0

/-- A reading is valid (R446). -/
def readingOk (med t : Int) : Bool := decide (-440 ≤ t ∧ t ≤ 1200) && decide ((t - med).natAbs ≤ 160)

/-! ### Effects of the states (R393, R447 to R449) -/

/-- SYC is divided, and the power state throttled, or both restored; QUIESCENT stays. -/
def Dev.throttle (d : Dev) (on : Bool) : Dev :=
  let d := d.setB CRG_STAT_SYC_DIV on
  let ps := d.getF CRG_STAT_PSTATE
  if ps = 1 ∨ ps = 2 then d.setF CRG_STAT_PSTATE (if on then 2 else 1) else d

/-- The period that the state asks for is requested (R448); a standby of a pair requests nothing. -/
def Dev.thmPeriod (d : Dev) : Dev :=
  let t := d.getF TBS_PER_PER
  let d := d.setB THM_STAT_NODBL (d.thmDoubles && decide (800000 < 2 * t))
  if d.drives then d.reqPeriod (d.lenFor t) else d

def Dev.setThm (d : Dev) (st : Nat) : Dev := { d.setF THM_STAT_STATE st with thm := { d.thm with up := 0, down := 0 } }

/-- Entry into HOLD (R449). -/
def Dev.enterHold (d : Dev) : Dev :=
  let was := d.thmState
  let d := d.setThm thmHold
  let tj := toSigned 12 (d.getF THM_STAT_TJ)
  let d := d.logEvt7 3 3 [ofSigned 32 tj, d.getF THM_STAT_HOT, d.getF THM_STAT_VALID]
  let d := { (d.bump THM_HOLDS).evt THM_EVT_HOLD with mram := { d.mram with hold := true } }
  let d := if was < thmStage1 then d.throttle true else d
  let d := if was < thmStage2 then d.thmPeriod else d
  (d.setSource srcThm true).morEval

/-- Exit from HOLD (R447). -/
def Dev.leaveHold (d : Dev) : Dev :=
  let d := (d.setThm thmWarn).setF THM_STAT_RESUME_OK 0
  let d := { d.evt THM_EVT_RELEASE with mram := { d.mram with hold := false } }
  (((d.logEvt 3 6 []).throttle false).thmPeriod).setSource srcThm false

/-- Entry into STAGE1. -/
def Dev.enterStage1 (d : Dev) : Dev :=
  let d := (d.setThm thmStage1).throttle true
  ((d.evt THM_EVT_THROTTLE).bump THM_THROTTLES).logEvt 3 1 []

/-- One measurement in the state machine of R447. -/
def Dev.thmStep (d : Dev) (tj : Int) : Dev :=
  let st := d.thmState
  if st ≠ thmHold ∧ degC 125 ≤ tj then d.enterHold
  else if st = thmHold then
    if degC 100 ≤ tj then { d.setF THM_STAT_RESUME_OK 0 with thm := { d.thm with down := 0 } }
    else
      let n := min 10 (d.thm.down + 1)
      let d := { d with thm := { d.thm with down := n } }
      if n < 10 ∨ d.bit THM_STAT_RESUME_OK then d
      else if d.bit THM_CTRL_AUTO then d.leaveHold
      else (d.setF THM_STAT_RESUME_OK 1).evt THM_EVT_RESUME_OK
  else if st < thmStage1 ∧ degC 115 ≤ tj then d.enterStage1
  else if st = thmNormal then
    if degC 105 ≤ tj then (((d.setThm thmWarn).evt THM_EVT_WARN).bump THM_WARNS).logEvt 3 0 [] else d
  else if st = thmWarn then
    let n := if tj < degC 100 then d.thm.down + 1 else 0
    if 10 ≤ n then d.setThm thmNormal else { d with thm := { d.thm with down := n } }
  else if st = thmStage1 then
    let u := if degC 115 ≤ tj then d.thm.up + 1 else 0
    let n := if tj < degC 110 then d.thm.down + 1 else 0
    if 10 ≤ u ∨ degC 120 ≤ tj then
      ((((d.setThm thmStage2).thmPeriod).evt THM_EVT_STAGE2).logEvt 3 2 []).morEval
    else if 100 ≤ n then (d.setThm thmWarn).throttle false
    else { d with thm := { d.thm with up := u, down := n } }
  else
    let n := if tj < degC 110 then d.thm.down + 1 else 0
    if 100 ≤ n then (d.setThm thmStage1).thmPeriod else { d with thm := { d.thm with down := n } }

/-- The readings of one measurement are taken: Tj with its sensor, the valid sensors, the highest Tj (R446, R453). Between sensors
that read alike the hottest one is a free value. -/
def Dev.thmRead (d : Dev) (ts : List Int) : Int × Dev :=
  let ts := (List.range 9).map fun n => ts.getD n 0
  let med := median ts
  let ok := ts.map (readingOk med)
  let d := forN 9 (fun n d =>
    let v := ok.getD n false
    let d := (d.setB (THM_TS_VALID n) v).setF (THM_TS_T n) (ofSigned 12 (ts.getD n 0))
    if v then d else (d.evt THM_EVT_SENSOR).bump THM_SENSOR_BAD) d
  let vs := (List.range 9).filter fun n => ok.getD n false
  let top := vs.foldl (fun m n => max m (ts.getD n 0)) (ts.getD (vs.headD 0) 0)
  let hot := vs.filter fun n => ts.getD n 0 = top
  let h := if hot.length ≤ 1 then (hot.headD 0, d) else d.freeOf hot
  let d := h.2
  let tj : Int := if vs.length < 5 then degC 125 else top
  let d := ((d.setF THM_STAT_TJ (ofSigned 12 tj)).setF THM_STAT_HOT h.1).setF THM_STAT_VALID (vs.map fun n => 2 ^ n).sum
  let max := toSigned 12 (d.getF THM_MAX_T)
  let d := if !d.thm.maxSet ∨ max < tj then d.setF THM_MAX_T (ofSigned 12 tj) else d
  (tj, { d with thm := { d.thm with maxSet := true } })

/-- THERMAL_MEASUREMENT. -/
def thermalMeasurement (ts : List Int) (d : Dev) : Dev :=
  let r := d.thmRead ts
  r.2.thmStep r.1

/-- Step 3 of the start sequence after a POR (R450). -/
def Dev.thmStart (d : Dev) (ts : List Int) : Dev :=
  let r := d.thmRead ts
  let d := r.2
  if degC 125 ≤ r.1 ∨ (degC 100 ≤ r.1 ∧ d.mram.hold) then d.enterHold
  else { d.setThm thmNormal with mram := { d.mram with hold := false } }

/-- A write of THM_CTRL: RESUME ends a hold that may end (R447). -/
def thmCtrlEffect (v : Word) : WEff := fun d =>
  if v.toNat / 2 % 2 = 0 then (true, d)
  else if d.bit THM_STAT_RESUME_OK then (true, d.leaveHold)
  else (false, d)

/-- A read of THM_MAX returns the highest Tj and clears it (R8, R453). -/
def thmMaxRead (d : Dev) : Word × Dev :=
  let r := d.readClear addr_THM_MAX
  (r.1, { r.2 with thm := { r.2.thm with maxSet := false } })

/-! ### The commands -/

/-- THERMAL_MEASUREMENT (R446, R447). -/
def execThermalMeasurement (ts : List Int) (s : State) : Host.Outcome State Fault Refusal :=
  .next (s.onDev (thermalMeasurement ts))

/-- RESUME (R447). -/
def execResume (p : Path) (s : State) : Host.Outcome State Fault Refusal :=
  let v := fldPut 1 1 1 (s.dev.rd addr_THM_CTRL)
  .next (s.writeRow p addr_THM_CTRL v id (thmCtrlEffect v))

/-- THM_MAX_READ (R8, R453). -/
def execThmMaxRead (p : Path) (s : State) : Host.Outcome State Fault Refusal := .next (s.readRow p addr_THM_MAX thmMaxRead)

end Sys2Proof.Machine
end

