-- ==== Sys2Proof/Machine/PowerReset.lean ====
section
/-! DEFINITION. Supplies, clocks and resets (spec/14_power_clocks_reset.md). What survives which reset is the table of R394. -/

namespace Sys2Proof.Machine

/-! ### What a reset does to the register file (R392, R394, R396) -/

/-- Every listed register takes a new value; what equals its reset value is no longer listed. -/
def remapRegs (f : Nat → Word → Word) (m : Sp Word) : Sp Word :=
  m.foldr (fun e acc => spSet (regReset e.1) acc e.1 (f e.1 e.2)) []

def Dev.remap (d : Dev) (f : Nat → Word → Word) : Dev := { d with regs := remapRegs f d.regs }

/-- The reset word of a row with the fields that `keep` names left as they are in `w`. -/
def RegRow.keeping (r : RegRow) (keep : RField → Bool) (w : Word) : Word :=
  r.fields.foldl (fun acc f => if keep f then fldPut f.lo f.width (fldGet f.lo f.width w) acc else acc) r.reset

/-- The word of register `a` after its fields but those that `keep` names went to their reset values. -/
def keepFields (keep : RField → Bool) (a : Nat) (w : Word) : Word :=
  match regRow? a with
  | some r => r.keeping keep w
  | none => regReset a

/-- One field of a reset word left as it is. -/
def keepOne (f : Fld) (w acc : Word) : Word := fldPut f.lo f.width (fldGet f.lo f.width w) acc

/-- Registers that keep their value through every reset of the device: the backup domain's and the copies in MRAM (R394). -/
def keptAlways (a : Nat) : Bool :=
  [addr_CRG_BRTC_TRIM, addr_BOT_FAILS, addr_BOT_FAILINFO, addr_BOT_SLIPCODE, addr_BOT_KIDS_LO, addr_BOT_KIDS_HI].contains a

/-- CRG counters and CRG_RSTCAUSE: kept through a system reset, not through a POR. -/
def keptSys (a : Nat) : Bool := decide (a = addr_CRG_RSTCAUSE) || decide (addr_CRG_BOR ≤ a ∧ a ≤ addr_CRG_XD_STOPPED)

/-- A register after a POR or (`sys`) a system reset. The slot pin stands in the backup domain; BAK_OK, AOC_OK and MAINT_OK report
what the reset does not touch; a thermal hold is kept through a system reset. -/
def resetWord (sys : Bool) (a : Nat) (w : Word) : Word :=
  if keptAlways a || (sys && keptSys a) then w
  else if a = addr_BOT_STAT then keepOne BOT_STAT_PIN w (regReset a)
  else if a = addr_CRG_STAT then keepOne CRG_STAT_BAK_OK w (keepOne CRG_STAT_AOC_OK w (regReset a))
  else if a = addr_MGT_STAT then keepOne MGT_STAT_MAINT_OK w (regReset a)
  else if a = addr_THM_STAT ∧ sys ∧ fldGet THM_STAT_STATE.lo THM_STAT_STATE.width w = thmHold then
    keepOne THM_STAT_STATE w (regReset a)
  else regReset a

/-! ### A reset of the device (R37, R276, R387, R388, R394) -/

/-- Pulse output `q` goes low. -/
def Dev.mpLow (d : Dev) (q : Nat) : Dev := if d.bit (MTR_MP_ST_PIN q) then d.emit .pin (210 + q) [0] else d

/-- Device time that the backup real-time counter gives (R37). -/
def timeOfBrtc (brtc : Nat) : Nat := brtc / 32768 * 10 ^ 9 * 2 ^ 32

/-- What the outside gives the device, and what a reset leaves alone: pin levels, the island's line, MRAM, the AOC phase. -/
def Dev.afterReset (d : Dev) (sys : Bool) : Dev :=
  { regs := remapRegs (resetWord sys) d.regs, time := timeOfBrtc d.brtc, brtc := d.brtc
    tbs := { aocPhase := d.tbs.aocPhase, trimCnt := d.tbs.trimCnt }
    net := { los := d.net.los }, wcm := { vin := d.wcm.vin, anaLow := d.wcm.anaLow }, saf := d.saf
    crg := { aocLost := d.crg.aocLost, fromPor := !sys }, mram := d.mram, sent := d.sent, freeCtr := d.freeCtr }

/-- A POR or a system reset: outputs low, transmission stopped, every lane OFF, and the contents of R394. -/
def Dev.fullReset (d : Dev) (sys : Bool) : Dev :=
  let d := (forN 4 (fun q d => d.mpLow q) (ppsoOff d.stopPeriod)).afterReset sys
  (d.setSource 61 d.saf).setSource srcThm (decide (d.thmState = thmHold))

/-- A system reset with its cause (R387). -/
def Dev.sysReset (d : Dev) (cause : Fld) : Dev := (d.fullReset true).evt cause

/-! ### Reset commands (R375, R380, R387, R390, R391) -/

/-- Brown-out by supply. -/
def brownOut (d : Dev) : Dev := (d.sysReset CRG_RSTCAUSE_BOR).bump CRG_BOR

/-- RESETN. -/
def resetN (d : Dev) : Dev := (d.sysReset CRG_RSTCAUSE_PIN).bump CRG_PIN_RST

/-- A software system reset. -/
def Dev.swReset (d : Dev) : Dev := (d.sysReset CRG_RSTCAUSE_SW).bump CRG_SW_RST

/-- The island as a POR leaves it: in START, its outputs low, its seal records kept (R279, R394). -/
def Island.restart (i : Island) : Island :=
  let n : Island := {}
  let n := (n.wr addr_SAF_SEAL_T (i.rd addr_SAF_SEAL_T)).wr addr_SAF_SEAL_N (i.rd addr_SAF_SEAL_N)
  n.setF SAF_STAT_BAK_LOST (n.getF SAF_SEAL_N_BAK_LOST)

/-- A power-on reset. -/
def por (s : State) : State :=
  let s := s.safDrive false false
  let d := { s.dev with saf := true }.fullReset false
  let d := (d.setB CRG_STAT_BAK_OK (!s.bak.lost)).setB CRG_RSTCAUSE_BAKPOR s.bak.lost
  let d := { d.setF MGT_STAT_MAINT_OK 0 with crg := {} }
  { s with dev := d.setF CRG_STAT_AOC_OK 1, isl := s.isl.restart, bak := { s.bak with main := true, lost := false } }

/-- A backup power-on reset (R293, R375, R377, R394). The slot pin, which the backup domain keeps, goes with its contents. -/
def backupPor (s : State) : State :=
  let d := { s.dev with brtc := 0, tbs := { s.dev.tbs with trimCnt := 0 } }
  let d := ((d.wr addr_CRG_BRTC_TRIM 0).setF BOT_FAILS_COUNT d.mram.fails).setF BOT_STAT_PIN 0
  let i := ((s.isl.wr addr_SAF_SEAL_T 0).wr addr_SAF_SEAL_N 0).setF SAF_SEAL_N_BAK_LOST 1
  let i := { i.setF SAF_STAT_BAK_LOST 1 with sealN := 0 }
  if s.bak.main then { s with dev := (d.evt CRG_RSTCAUSE_BAKPOR).setF CRG_STAT_BAK_OK 0, isl := i, bak := { s.bak with startT := 0 } }
  else { s with dev := d, isl := i, bak := { s.bak with lost := true, startT := 0 } }

/-- Main power is lost: only the backup domain runs on (R280, R293, R374, R393). A break that stands is not counted again. -/
def mainPowerLoss (s : State) : State :=
  if !s.bak.main then s
  else
    let broken := !s.isl.bit SAF_STAT_SEAL
    let s := s.safDrive false false
    { s with dev := { s.dev with saf := true }.fullReset false
             isl := { s.isl.restart with sealN := if broken then 2 else 0 }
             bak := { s.bak with main := false } }

def wdogWarn (d : Dev) : Dev := (d.evt CRG_EVT_WDOG_WARN).logEvt 1 1 []

/-- A refused reset sequence (R390). -/
def swrstRefused (d : Dev) : Dev := { d.evt CRG_EVT_SWRST_REFUSED with crg := { d.crg with swFirst := none } }

/-- A write of CRG_SWRST (R390). -/
def swrstEffect (v : Word) : WEff := fun d =>
  if !d.noArm then (false, swrstRefused d)
  else match d.crg.swFirst with
    | none => if v = 0xA55A then (true, { d with crg := { d.crg with swFirst := some d.time } }) else (false, swrstRefused d)
    | some t => if v = 0x5AA5 ∧ d.time ≤ t + nsU 1000000 then (true, d.swReset) else (false, swrstRefused d)

/-! ### Reset of one block (R392, R394) -/

/-- What the reset of block `b` leaves of register `a` beside LK fields: run-time remaps, loop states, live trip levels, the strap. -/
def keptByBlock (a : Nat) : Bool :=
  decide (addr_LNK_REMAP 0 ≤ a ∧ a ≤ addr_LNK_REMAP 3) || decide (a = addr_HLM_LOOP) || decide (a = addr_HLM_LOOPST) ||
    decide (a = addr_TRP_LEVEL0) || decide (a = addr_TRP_LEVEL1)

def Dev.blockRegs (d : Dev) (b : Nat) : Dev :=
  d.remap fun a w => if blockOf a = some b ∧ !keptByBlock a then keepFields (fun f => f.ty == .lk) a w else w

/-- The timebase returns to UNSET; the control period stops first (R37, R38). -/
def Dev.resetTbs (d : Dev) : Dev :=
  let d := d.stopPeriod
  let d := ppsoOff { (d.blockRegs 4) with
    time := timeOfBrtc d.brtc, tbs := { aocPhase := d.tbs.aocPhase, trimCnt := d.tbs.trimCnt, ppso := d.tbs.ppso } }
  (d.tbsEnter tbsUnset).enterFree.ptpSelect

/-- Every lane OFF; its endpoints meet a lane reset (R138); remaps stay, and the lanes may take their required states again. -/
def Dev.resetLnk (d : Dev) : Dev :=
  let d := (List.range 64).foldl (fun d n => d.laneReset n) d
  ({ d.blockRegs 9 with lanes := [], rxReady := [] }).showPeers

/-- Where a configured cell stands (R101, R151). -/
def Dev.twlPlaces (d : Dev) : Dev :=
  d.twl.map.foldl (fun d e => (d.setF (TWL_CST_LANE (e.2 - 1)) (e.1 / 4)).setF (TWL_CST_POS (e.2 - 1)) (e.1 % 4)) d

def Dev.resetTwl (d : Dev) : Dev :=
  let up := d.cells.filter fun c => decide (d.cellState c = cellBoarded)
  let d : Dev := { d.blockRegs 10 with twl := { map := d.twl.map, permit := d.twl.permit } }
  let d := up.foldl (fun d c => d.setCell c { gone := true }) d
  d.twlPlaces.gdUpdate

/-- Reference carriers stay in phase; leg history restarts as if every leg had been at 0b00 (R156, R394). -/
def Dev.resetCbk (d : Dev) : Dev :=
  let d := forN 16 (fun j d => (d.lbLow j (CBK_LB_STAT_PIN_A j) 0).lbLow j (CBK_LB_STAT_PIN_B j) 1) d
  let grps := (List.range 24).foldl (fun m g => spSet {} m g { (d.grp g) with set := none, commit := false, pendN := 0 }) []
  { d.blockRegs 11 with cbk := { grps := grps }, lb := [] }

/-- State, output and applied areas go to 0.0; banks, loop states and the stage table stay (R394). -/
def Dev.resetHlm (d : Dev) : Dev :=
  let keep : Nat × Word → Bool := fun e => decide (e.1 < 0x40000) || decide (0x60000 ≤ e.1 ∧ e.1 < 0x70000)
  let d := { d.blockRegs 12 with smem := d.smem.filter keep, hlm := { stage := d.hlm.stage, bad := d.hlm.bad } }
  forN 5 (fun i d => if d.srcActive (56 + i) then d.setSource (56 + i) false else d) d

/-- Membership OUT for every cell of an arm; the next sampling instant derives the states again (R223, R394). -/
def Dev.blsOutAll (d : Dev) : Dev :=
  let d := forN 256 (fun c d => if d.bit (BLS_CELL_CFG_IN_ARM c) then d.setMember c blsOut else d) d
  forN 8 (fun a d => if d.bit (BLS_ARM_CFG_EN a) then d.armStat a else d) d

def Dev.resetBls (d : Dev) : Dev :=
  let d := ({ d.blockRegs 14 with bls := {} }).blsOutAll
  d.setF BLS_STAT_ARMS (((List.range 8).filter fun a => d.bit (BLS_ARM_CFG_EN a)).map fun a => 2 ^ a).sum

/-- All groups latched without HORN (R276); the levels of the sources are what they are. -/
def Dev.resetTrp (d : Dev) : Dev :=
  let d := d.blockRegs 18
  let d := (d.wr addr_TRP_SEEN0 (d.rd addr_TRP_LEVEL0)).wr addr_TRP_SEEN1 (d.rd addr_TRP_LEVEL1)
  ((d.setSource 61 d.saf).lbForce).gdUpdate

/-- START in a pair, SOLO otherwise, with E_h = 0 (R394). -/
def Dev.morInit (d : Dev) : Dev := d.setF MOR_STAT_STATE (if d.paired then morStart else morSolo)

def Dev.resetMor (d : Dev) : Dev :=
  let role := d.getF MOR_STAT_ROLE
  let d := (({ d.blockRegs 21 with mor := { ident := d.mor.ident } }).setF MOR_STAT_ROLE role).morInit
  if d.srcActive 63 then d.setSource 63 false else d

/-- The registers come back from MRAM, and metering starts anew (R394). -/
def Dev.resetMtr (d : Dev) : Dev :=
  let d : Dev := forN 4 (fun q (d : Dev) => d.mpLow q) d
  (({ d with mtr := {} }.blockRegs 20).mtrRestore).mtrStart

/-- The reset of block `b`. -/
def Dev.resetBlock (d : Dev) (b : Nat) : Dev :=
  match b with
  | 4 => d.resetTbs
  | 5 => ({ d.blockRegs 5 with ptp1 := {}, ptp2 := {} }).ptpSelect
  | 6 => { d.blockRegs 6 with net := { los := d.net.los } }
  | 7 => ({ d.blockRegs 7 with svx := {} }).svAlign
  | 8 => ({ d.blockRegs 8 with gse := {} }).gseEval
  | 9 => d.resetLnk
  | 10 => d.resetTwl
  | 11 => d.resetCbk
  | 12 => d.resetHlm
  | 13 => { d.blockRegs 13 with gwy := [] }
  | 14 => d.resetBls
  | 15 => ({ d.blockRegs 15 with mod := {} }).modStart
  | 16 => { d.blockRegs 16 with sar := {} }
  | 17 => (d.blockRegs 17).wcmStart
  | 18 => d.resetTrp
  | 20 => d.resetMtr
  | 21 => d.resetMor
  | 22 => ({ d.blockRegs 22 with log := { d.log with fbuf := [], cur0 := {}, cur1 := {} } }).showLog
  | 23 => { d.blockRegs 23 with mft := {} }
  | _ => d

/-- Why the reset of a block is refused, 0 if it is accepted (R392, R398). -/
def Dev.brstReason (d : Dev) (b : Nat) : Nat :=
  if b < 4 ∨ b = 19 then 2
  else if (b = 4 ∨ 9 ≤ b ∧ b ≤ 18 ∨ b = 21) ∧ !d.noArm then 1
  else 0

def Dev.brstRefuse (d : Dev) (reason : Nat) : Dev :=
  (((d.setF CRG_BRST_STAT_REASON reason).evt CRG_EVT_BRST_REFUSED).bump CRG_BRST_REFUSED)

/-- A write of CRG_BRST refused for its class. -/
def brstRef (d : Dev) : Dev := (d.wrN addr_CRG_BRST_STAT 0).brstRefuse 4

/-- A write of CRG_BRST: each block of the mask is reset or refused; a reserved bit refuses the whole write. -/
def brstEffect (v : Word) : WEff := fun d =>
  let d := d.wrN addr_CRG_BRST_STAT 0
  if 2 ^ 24 ≤ v.toNat then (false, d.brstRefuse 3)
  else
    (true, forN 24 (fun b d =>
      if v.toNat / 2 ^ b % 2 = 0 then d
      else
        let r := d.brstReason b
        if r = 0 then (d.resetBlock b).setMaskBit addr_CRG_BRST_STAT b true else d.brstRefuse r) d)

/-! ### Counters (R396) -/

/-- Counters of the blocks in a mask go to 0. -/
def clearCounters (mask : Nat) (m : Sp Word) : Sp Word :=
  remapRegs (fun a w => if mask / 2 ^ ((blockOf a).getD 24) % 2 = 1 then keepFields (fun f => !(f.ty == .ct)) a w else w) m

def cntclrEffect (v : Word) : WEff := fun d =>
  let mask := v.toNat % 2 ^ 24
  let d := { d with regs := clearCounters mask d.regs }
  let d := d.wrN addr_CRG_SAT (Nat.land (d.rd addr_CRG_SAT).toNat (2 ^ 32 - 1 - mask))
  (true, d.logReg 1 0x68 [v.toNat])

/-- A write of CRG_CNTCLR; the island's counters stand in the island. -/
def State.cntclr (s : State) (p : Path) (v : Word) : Nat × State :=
  if !s.bak.main then (stR10, s)
  else
    let r := s.dev.guardW (s.classOf p) (pathNo p) addr_CRG_CNTCLR v id (cntclrEffect v)
    let s := { s with dev := r.2 }
    (r.1, if r.1 = stDone then s.setIsl fun i => { i with regs := clearCounters (v.toNat % 2 ^ 24) i.regs } else s)

/-! ### PLLs and REFCLK (R378 to R380) -/

/-- A PLL locks; in QUIESCENT PLL-H is off. -/
def pllLock (n band : Nat) (d : Dev) : Dev :=
  if 4 ≤ n ∨ d.crg.retry ∨ d.getF (CRG_PLL_STATE n) = 2 ∨ (n = 1 ∧ d.getF CRG_STAT_PSTATE = 3) then d
  else ((d.setF (CRG_PLL_STATE n) 2).setF (CRG_PLL_LOCK n) 1).setF (CRG_PLL_BAND n) band

/-- A PLL reports FAIL: in the start sequence that ends as R415 says; after it, a brown-out by clock. -/
def pllFail (n : Nat) (d : Dev) : Dev :=
  if 4 ≤ n ∨ d.bit (CRG_PLL_LOCK n) ∨ (n = 1 ∧ d.getF CRG_STAT_PSTATE = 3) then d
  else
    let d := d.setF (CRG_PLL_STATE n) 3
    if d.applied then d.sysReset CRG_RSTCAUSE_CLK else d

def pllLoss (n : Nat) (d : Dev) : Dev :=
  if n < 4 ∧ d.bit (CRG_PLL_LOCK n) then
    (d.bump (CRG_PLL_LOSS n)).sysReset CRG_RSTCAUSE_CLK
  else d

def refclkLoss (d : Dev) : Dev := d.setF CRG_STAT_REF_OK 0

/-! ### Power states (R393) -/

def Dev.pwrRefused (d : Dev) : Dev := d.evt CRG_EVT_PWR_REFUSED

/-- Entry into QUIESCENT: the control period stops, every lane goes OFF, every endpoint departs, PLL-H is off. -/
def Dev.quiesce (d : Dev) : Dev :=
  let d := d.stopPeriod
  let d := (List.range 64).foldl (fun d n => d.laneReset n) d
  let d := forN 72 (fun n d => (d.setPow n true 0).setPow n false 0) d
  let d := { d with gwy := [], cbk := { d.cbk with cells := [], lbHist := [], lbCand := [], applied := [] } }.blsOutAll
  let d := (d.setF CRG_STAT_PSTATE 3).setF CRG_PWR_REQ 1
  d.wrN (addr_CRG_PLL 1) 0

/-- Exit from QUIESCENT: PLL-H searches its band; the period starts again only with BOT_ARM_SET. -/
def Dev.leaveQuiescent (d : Dev) : Dev :=
  let d := (d.setF CRG_STAT_PSTATE (if 2 ≤ d.thmState then 2 else 1)).setF CRG_PWR_REQ 0
  d.setF (CRG_PLL_STATE 1) 1

/-- A write of CRG_PWR. -/
def pwrEffect (v : Word) : WEff := fun d =>
  let q := fldGet 0 2 v
  let ps := d.getF CRG_STAT_PSTATE
  if 2 ≤ q ∨ (q = 1 ∧ (ps = 0 ∨ !d.noArm)) then (false, d.pwrRefused)
  else if q = 1 then (true, if ps = 3 then d else d.quiesce)
  else (true, if ps = 3 then d.leaveQuiescent else d)

/-! ### Backup real-time counter (R377, R398) -/

/-- The trim of one stretch of 2^20 AOC cycles. -/
def brtcTrim (s : State) : State :=
  let d := s.dev
  if d.crg.aocLost then s
  else
    let b : Int := d.brtc + toSigned 8 (d.getF CRG_BRTC_TRIM_STEP)
    { s with dev := { d with brtc := (b % (2 ^ 55 : Nat)).toNat, tbs := { d.tbs with trimCnt := 0 } } }

/-- Reading BRTC_LO latches the other two words for the path. -/
def brtcLoRead (pn : Nat) (d : Dev) : Word × Dev :=
  (BitVec.ofNat 32 (d.brtc / 32768),
   (d.setLatch pn addr_CRG_BRTC_HI (d.brtc / 32768 / 2 ^ 32)).setLatch pn addr_CRG_BRTC_SUB (d.brtc % 32768))

/-! ### The commands -/

/-- POR (R387). -/
def execPor (s : State) : Host.Outcome State Fault Refusal := .next (por s)

/-- BACKUP_POR (R375). -/
def execBackupPor (s : State) : Host.Outcome State Fault Refusal := .next (backupPor s)

/-- BROWN_OUT (R387). -/
def execBrownOut (s : State) : Host.Outcome State Fault Refusal := .next (s.onDev brownOut)

/-- RESETN (R387, R389). -/
def execResetn (s : State) : Host.Outcome State Fault Refusal := .next (s.onDev resetN)

/-- WATCHDOG_WARN (R391). -/
def execWatchdogWarn (s : State) : Host.Outcome State Fault Refusal := .next (s.onDev wdogWarn)

/-- SWRST (R390). -/
def execSwrst (p : Path) (v : Word) (s : State) : Host.Outcome State Fault Refusal :=
  .next (s.writeRow p addr_CRG_SWRST v swrstRefused (swrstEffect v))

/-- BLOCK_RESET (R392). -/
def execBlockReset (p : Path) (v : Word) (s : State) : Host.Outcome State Fault Refusal :=
  .next (s.writeRow p addr_CRG_BRST v brstRef (brstEffect v)).noteSeen

/-- CNTCLR (R396). -/
def execCntclr (p : Path) (v : Word) (s : State) : Host.Outcome State Fault Refusal :=
  .next (State.replied (s.cntclr p v) p addr_CRG_CNTCLR)

/-- PLL_LOCK (R379). -/
def execPllLock (n band : Nat) (s : State) : Host.Outcome State Fault Refusal := .next (s.onDev (pllLock n band))

/-- PLL_FAIL (R379, R380). -/
def execPllFail (n : Nat) (s : State) : Host.Outcome State Fault Refusal := .next (s.onDev (pllFail n))

/-- PLL_LOSS_OF_LOCK (R380). -/
def execPllLossOfLock (n : Nat) (s : State) : Host.Outcome State Fault Refusal := .next (s.onDev (pllLoss n))

/-- REFCLK_LOSS (R378). -/
def execRefclkLoss (s : State) : Host.Outcome State Fault Refusal := .next (s.onDev refclkLoss)

/-- QUIESCENT_REQUEST (R393). -/
def execQuiescentRequest (p : Path) (s : State) : Host.Outcome State Fault Refusal :=
  .next (s.writeRow p addr_CRG_PWR 1 id (pwrEffect 1))

/-- RUN_REQUEST (R393). -/
def execRunRequest (p : Path) (s : State) : Host.Outcome State Fault Refusal :=
  .next (s.writeRow p addr_CRG_PWR 0 id (pwrEffect 0))

/-- MAIN_POWER_LOSS (R393). -/
def execMainPowerLoss (s : State) : Host.Outcome State Fault Refusal := .next (mainPowerLoss s)

/-- BRTC_TRIM (R377). -/
def execBrtcTrim (s : State) : Host.Outcome State Fault Refusal := .next (brtcTrim s)

/-- BRTC_LO_READ (R398, R460). -/
def execBrtcLoRead (p : Path) (s : State) : Host.Outcome State Fault Refusal :=
  .next (s.readRow p addr_CRG_BRTC_LO (brtcLoRead (pathNo p)))

end Sys2Proof.Machine
end

