-- ==== Sys2Proof/Machine/Image.lean ====
section
/-! DEFINITION. The configuration key and the image on it (spec/15_boot.md, R399 to R411; spec/17_management_map.md, R471): header,
firmware, records, and what a record does to the blocks. -/

namespace Sys2Proof.Machine

/-! ### The key's bytes (R399, R401) -/

/-- Bytes of the key that the device ever reads or writes. -/
def keySize : Nat := 0x2000000
def slotSize : Nat := 0x1000000

/-- What an erased or unlisted byte reads as. -/
def erased : Byte := 0xFF

/-- The canonical form of the key's contents: addresses rising, no erased byte listed. -/
def Memory.wf (k : List Host.Cell) : Bool := spWf (fun _ => erased) k

/-- `n` bytes from address `a`; `k` holds no cell below `a`. -/
def cellBytes (n a : Nat) (k : List Host.Cell) : List Nat :=
  match n with
  | 0 => []
  | n + 1 => match k with
    | [] => 255 :: cellBytes n (a + 1) []
    | (b, x) :: t => if b = a then x.toNat :: cellBytes n (a + 1) t else 255 :: cellBytes n (a + 1) ((b, x) :: t)

/-- `n` bytes of the key from address `a`. -/
def keyBytes (k : List Host.Cell) (a n : Nat) : List Nat := cellBytes n a (k.dropWhile fun c => decide (c.1 < a))

/-- The key with the bytes `bs` at address `a`. -/
def keyPut (k : List Host.Cell) (a : Nat) (bs : List Nat) : List Host.Cell :=
  match bs with
  | [] => k
  | b :: t => keyPut (spSet erased k a (BitVec.ofNat 8 b)) (a + 1) t

/-- `n` bytes of a byte list at an offset, and the little-endian number there. -/
def bytesAt (h : List Nat) (o n : Nat) : List Nat := (h.drop o).take n
def numAt (h : List Nat) (o n : Nat) : Nat := leNat (bytesAt h o n)
def zeroAt (h : List Nat) (o n : Nat) : Bool := (bytesAt h o n).all (· = 0)

/-! ### The header (R402, R403) -/

def hdrFlags (h : List Nat) : Nat := numAt h 0x00E 2
def hdrSeq (h : List Nat) : Nat := numAt h 0x010 8
def hdrSvn (h : List Nat) : Nat := numAt h 0x018 4
def hdrNrec (h : List Nat) : Nat := numAt h 0x01C 4
def hdrFwOfs (h : List Nat) : Nat := numAt h 0x020 4
def hdrFwLen (h : List Nat) : Nat := numAt h 0x024 4
def hdrRecOfs (h : List Nat) : Nat := numAt h 0x028 4
def hdrRecLen (h : List Nat) : Nat := numAt h 0x02C 4
def hdrPairId (h : List Nat) : List Nat := bytesAt h 0x0A0 48
def hdrOwnKey (h : List Nat) : List Nat := bytesAt h 0x200 97

/-- A signature by the uncompressed point `key` over SHA-384 of `msg`. -/
def sigOk (key msg sig : List Nat) : Bool := decide (key.headD 0 = 4) && ecdsaVerify (key.drop 1) (sha384 msg) sig

/-- The conditions on a header in the order of R402, then R403, then DEV_BIND; beside each the code of R423 it is reported with, 0
where R423 gives none. -/
def hdrChecks (ownKh : List Nat) (floor serial : Nat) (h : List Nat) : List (Bool × Nat) :=
  [ (decide (numAt h 0 4 = 0x4B4C4447 ∧ numAt h 4 2 = 1 ∧ numAt h 6 2 = 1024), 0),
    (decide (numAt h 8 4 = 0x2560 ∧ numAt h 0x00C 2 = 1), 0x09),
    (decide (hdrFlags h < 2), 0),
    (decide (hdrSvn h < 64), 0),
    (decide (floor ≤ hdrSvn h), 0x0B),
    (decide (hdrFwOfs h % 4 = 0 ∧ 0x400 ≤ hdrFwOfs h ∧ hdrRecOfs h % 4 = 0 ∧ hdrFwOfs h + hdrFwLen h ≤ hdrRecOfs h ∧
      hdrRecOfs h + hdrRecLen h ≤ slotSize), 0),
    (zeroAt h 0x038 8 && (decide (hdrFlags h % 2 = 1) || zeroAt h 0x0A0 48) && zeroAt h 0x0E0 288 && zeroAt h 0x261 31 &&
      zeroAt h 0x2E0 288, 0),
    (ownKh.isEmpty || decide (sha384 (hdrOwnKey h) = ownKh), 0x03),
    (sigOk (hdrOwnKey h) (h.take 0x280) (bytesAt h 0x280 96), 0x02),
    (decide (numAt h 0x030 8 = 0 ∨ numAt h 0x030 8 = serial), 0x0A) ]

/-- The first condition a header fails, as its code; `none` where it fails none. -/
def hdrFail (ownKh : List Nat) (floor serial : Nat) (h : List Nat) : Option Nat :=
  ((hdrChecks ownKh floor serial h).find? fun c => !c.1).map (·.2)

/-! ### The firmware (R404) -/

def fwAuthentic (fw : List Nat) : Bool :=
  decide (512 ≤ fw.length) && decide (numAt fw 0 4 = 0x5746444A) && decide (512 + numAt fw 8 4 = fw.length) &&
    zeroAt fw 0x00C 4 && zeroAt fw 0x0A1 15 && zeroAt fw 0x110 240 &&
    decide (bytesAt fw 0x010 48 = sha384 (fw.drop 512)) && decide (sha384 (bytesAt fw 0x040 97) = Config.jalKh) &&
    sigOk (bytesAt fw 0x040 97) (fw.take 0xB0) (bytesAt fw 0xB0 96)

/-! ### Records (R405, R406) -/

/-- One record: its index, TYPE, RFLAGS, payload, and all its bytes. -/
structure Rec where
  idx : Nat
  type : Nat
  flags : Nat
  pay : List Nat
  raw : List Nat
  deriving DecidableEq, Repr

def Rec.devspec (r : Rec) : Bool := decide (r.flags % 2 = 1)

/-- The records of a section, and the index of the first that breaks the format of R405 or R406. The section ends with END, which is
record `nrec - 1`; `fuel` bounds the number of records. -/
def parseRecs (fuel i nrec : Nat) (bs : List Nat) : List Rec × Option Nat :=
  match fuel with
  | 0 => ([], some i)
  | fuel + 1 =>
    let len := numAt bs 4 4
    let type := numAt bs 0 2
    let r : Rec := ⟨i, type, numAt bs 2 2, bytesAt bs 8 len, bs.take (8 + len)⟩
    if bs.length < 8 + len ∨ len % 4 ≠ 0 ∨ 2 ≤ r.flags then ([], some i)
    else if type = 0xFF then
      if len = 0 ∧ bs.length = 8 ∧ i + 1 = nrec then ([r], none) else ([], some i)
    else if 1 ≤ type ∧ type ≤ 5 then
      let t := parseRecs fuel (i + 1) nrec (bs.drop (8 + len))
      (r :: t.1, t.2)
    else ([], some i)

/-- The 32-bit words of a payload. -/
def payWords (fuel : Nat) (bs : List Nat) : List Nat :=
  match fuel with
  | 0 => []
  | n + 1 => if bs.isEmpty then [] else leNat (bs.take 4) :: payWords n (bs.drop 4)

def Rec.words (r : Rec) : List Nat := payWords r.pay.length r.pay

/-! ### ACCESS and NETIF records (R471) -/

def parseKey (e : List Nat) : AccKey := ⟨numAt e 0 2, numAt e 2 1, numAt e 4 4, numAt e 8 4, bytesAt e 12 32⟩

def keyOk (e : List Nat) : Bool :=
  decide (1 ≤ numAt e 0 2) && decide (1 ≤ numAt e 2 1 ∧ numAt e 2 1 ≤ 3) && zeroAt e 3 1

def noRepeat (l : List Nat) : Bool :=
  match l with
  | [] => true
  | a :: t => !t.contains a && noRepeat t

def parseAccess (p : List Nat) : Option AccRec :=
  let n := numAt p 0 1
  let es := (List.range n).map fun i => bytesAt p (4 + 44 * i) 44
  let r : AccRec := ⟨numAt p 1 1, numAt p 2 2, es.map parseKey⟩
  if p.length = 4 + 44 * n ∧ n ≤ 16 ∧ r.spiClass < 4 ∧ 10 ≤ r.idleTmo ∧ r.idleTmo ≤ 3600 ∧ es.all keyOk = true ∧
    noRepeat (r.keys.map (·.kid)) = true then some r else none

def parseNet (e : List Nat) : NetIf :=
  ⟨numAt e 0 1, numAt e 1 1, numAt e 2 2, numAt e 4 4, numAt e 8 4, numAt e 12 4, numAt e 16 2⟩

/-- A netmask of ones followed by zeros, its first octet first. -/
def maskOk (bs : List Nat) : Bool := (List.range 33).any fun k => decide (beNat bs + 2 ^ k = 2 ^ 32)

def netOk (e : List Nat) : Bool :=
  let x := parseNet e
  decide (x.port = 1 ∨ x.port = 3) && decide (x.flags < 2) && decide (1024 ≤ x.udp) && decide (x.ip ≠ 0) && maskOk (bytesAt e 8 4) &&
    zeroAt e 18 2

def parseNetif (p : List Nat) : Option (List NetIf) :=
  let n := numAt p 0 1
  let es := (List.range n).map fun i => bytesAt p (4 + 20 * i) 20
  let ns := es.map parseNet
  if p.length = 4 + 20 * n ∧ 1 ≤ n ∧ n ≤ 2 ∧ zeroAt p 1 3 = true ∧ es.all netOk = true ∧ noRepeat (ns.map (·.port)) = true then some ns
  else none

/-! ### IDENT records (R409) -/

/-- One identity string. -/
structure Ident where
  kind : Nat
  index : Nat
  field : Nat
  str : List Nat
  /-- a field is out of its range -/
  bad : Bool
  deriving DecidableEq, Repr

/-- Streams or control blocks of a kind. -/
def identCount (kind : Nat) : Nat :=
  match kind with
  | 0 => 8 | 1 => 32 | 2 => 16 | 3 => 128 | _ => 0

/-- The register that holds an identity hash; an entry that names none is held against the first of its kind, or the first of all. -/
def identReg (kind index : Nat) : Nat :=
  let i := if index < identCount kind then index else 0
  match kind with
  | 0 => addr_SVX_PUB_HASH i
  | 1 => addr_SVX_SUB_HASH i
  | 2 => addr_GSE_PUB_HASH i
  | 3 => addr_GSE_SUB_HASH i
  | _ => addr_SVX_PUB_HASH 0

def parseIdent (fuel : Nat) (p : List Nat) : List Ident :=
  match fuel with
  | 0 => []
  | n + 1 =>
    if p.isEmpty then []
    else
      let kind := p.headD 0
      let index := p.getD 1 0
      let field := p.getD 2 0
      let len := p.getD 3 0
      let pad := (len + 3) / 4 * 4
      let bad := decide (identCount kind ≤ index) || decide ((if kind < 2 then 2 else 3) ≤ field) || decide (len < 1 ∨ 129 < len) ||
        decide (p.length < 4 + pad)
      ⟨kind, index, field, bytesAt p 4 len, bad⟩ :: parseIdent n (p.drop (4 + pad))

/-! ### What the records leave (R407, R408, R410, R411) -/

/-- The blocks held in reset while records are applied; writes of the safety island's registers; the access and IP settings; the
identity strings. -/
structure Applied where
  dev : Dev
  isl : List (Nat × Word) := []
  acc : Option AccRec := none
  netif : List NetIf := []
  ident : List Ident := []
  deriving DecidableEq, Repr

/-- The bits of a row's LK and RW fields. -/
def RegRow.imageBits (r : RegRow) : Nat :=
  ((r.fields.filter fun f => f.ty == .lk || f.ty == .rw).map fun f => (2 ^ f.width - 1) * 2 ^ f.lo).sum

/-- A record may write a register of this row: it holds an LK or RW field, and nothing but these and RO fields. -/
def RegRow.imageOk (r : RegRow) : Bool :=
  r.fields.any (fun f => f.ty == .lk || f.ty == .rw) &&
    r.fields.all (fun f => f.ty == .lk || f.ty == .rw || f.ty == .ro || f.ty == .ct)

/-- The LK and RW fields of a row take their value. -/
def imageWord (r : RegRow) (v w : Word) : Word :=
  r.fields.foldl (fun w f => if f.ty == .lk || f.ty == .rw then fldPut f.lo f.width (fldGet f.lo f.width v) w else w) w

/-- One pair of a REGSET record; `none` where its target is not permitted. -/
def applyPair (x : Applied) (a : Nat) (v : Word) : Option Applied :=
  match regRow? a with
  | none => none
  | some r =>
    if a % 4 ≠ 0 ∨ r.imageOk = false ∨ Nat.land v.toNat (2 ^ 32 - 1 - r.imageBits) ≠ 0 then none
    else if blockOf a = some 19 then some { x with isl := x.isl ++ [(a, v)] }
    else some { x with dev := x.dev.wr a (imageWord r v (x.dev.rd a)) }

def applyPairs (x : Applied) (ws : List Nat) : Option Applied :=
  match ws with
  | [] => some x
  | a :: v :: t => match applyPair x a (BitVec.ofNat 32 v) with
    | none => none
    | some y => applyPairs y t
  | [_] => none

/-- One word of a BULK record: the stage table, or bank 0 and bank 1 of the coefficients. -/
def applyWord (d : Dev) (a : Nat) (v : Word) : Option Dev :=
  if a % 4 ≠ 0 then none
  else if 0x190000 ≤ a ∧ a < 0x1A0000 then
    some { d with hlm := { d.hlm with stage := spSet 0 d.hlm.stage ((a - 0x190000) / 4) v } }
  else if 0x200000 ≤ a ∧ a < 0x280000 then
    some ((d.setMw ((a - 0x200000) / 4) v).setMw ((a - 0x200000) / 4 + 0x20000) v)
  else none

def applyBulk (d : Dev) (a : Nat) (ws : List Nat) : Option Dev :=
  match ws with
  | [] => some d
  | v :: t => match applyWord d a (BitVec.ofNat 32 v) with
    | none => none
    | some d => applyBulk d (a + 4) t

/-- Apply one record: what it leaves, or the code it makes the image invalid with. -/
def applyRec (x : Applied) (r : Rec) : Applied × Option Nat :=
  match r.type with
  | 1 => if r.pay.length % 8 ≠ 0 then (x, some 0x06) else match applyPairs x r.words with
    | some y => (y, none)
    | none => (x, some 0x07)
  | 2 => match r.words with
    | [] => (x, some 0x06)
    | a :: ws => if r.devspec then (x, some 0x07) else match applyBulk x.dev a ws with
      | some d => ({ x with dev := d }, none)
      | none => (x, some 0x07)
  | 3 => ({ x with ident := x.ident ++ parseIdent r.pay.length r.pay }, none)
  | 4 => match parseAccess r.pay with
    | some a => ({ x with acc := some a }, none)
    | none => (x, some 0x06)
  | 5 => match parseNetif r.pay with
    | some n => ({ x with netif := n }, none)
    | none => (x, some 0x06)
  | _ => if r.devspec then (x, some 0x07) else (x, none)

/-- Records in order, until the first offending one: its index and code. -/
def applyRecs (x : Applied) (rs : List Rec) : Applied × Option (Nat × Nat) :=
  match rs with
  | [] => (x, none)
  | r :: t => match applyRec x r with
    | (y, none) => applyRecs y t
    | (y, some c) => (y, some (r.idx, c))

/-- An address that a device-specific REGSET record may write (R410); whether a publisher is in pair mode is what the records leave. -/
def devspecAddr (d : Dev) (a : Nat) : Bool :=
  (List.range 3).any (fun n => decide (a = addr_NET_MACLO n) || decide (a = addr_NET_MACHI n)) ||
  decide (a = addr_PTP_P1_LAT) || decide (a = addr_PTP_P2_LAT) || decide (a = addr_CRG_BRTC_TRIM) ||
  (List.range 72).any (fun n => decide (a = addr_LNK_LQF_THR n)) ||
  (List.range 24).any (fun n => decide (a = addr_WCM_CMP_THR n)) ||
  (List.range 8).any (fun n => (decide (a = addr_SVX_PUB_ID n) || decide (a = addr_SVX_PUB_HASH n)) && !d.bit (SVX_PUB_CFG_PAIRMODE n)) ||
  (List.range 16).any (fun n => (decide (a = addr_GSE_PUB_ID n) || decide (a = addr_GSE_PUB_HASH n)) && !d.bit (GSE_PUB_CFG_PAIRMODE n))

/-- The addresses of a REGSET payload. -/
def pairAddrs (ws : List Nat) : List Nat :=
  match ws with
  | a :: _ :: t => a :: pairAddrs t
  | _ => []

/-- The first device-specific REGSET record with an address outside the list. -/
def devspecBad (d : Dev) (rs : List Rec) : Option Nat :=
  (rs.find? fun r => decide (r.type = 1) && r.devspec && !(pairAddrs r.words).all (devspecAddr d)).map (·.idx)

/-- Of two offending records the first in image order. -/
def firstBad (a b : Option (Nat × Nat)) : Option (Nat × Nat) :=
  match a, b with
  | some x, some y => if y.1 < x.1 then some y else some x
  | some x, none => some x
  | none, y => y

/-- PAIR_ID as the device computes it. -/
def pairId (rs : List Rec) : List Nat := sha384 ((rs.filter fun r => !r.devspec).flatMap (·.raw))

/-- The records of an image applied to blocks in reset: what they leave, or code and detail. -/
def applyImage (d : Dev) (h recs : List Nat) : Applied × Option (Nat × Nat) :=
  let p := parseRecs (hdrNrec h + 1) 0 (hdrNrec h) recs
  let x := applyRecs { dev := d } p.1
  let e := firstBad (firstBad x.2 (p.2.map fun i => (i, 0x06))) ((devspecBad x.1.dev p.1).map fun i => (i, 0x07))
  match e with
  | some (i, c) => (x.1, some (c, i))
  | none =>
    if hdrFlags h % 2 = 1 ∧ pairId p.1 ≠ hdrPairId h then (x.1, some (0x06, 0xFFFFFF)) else (x.1, none)

end Sys2Proof.Machine
end

