-- ==== Sys2Proof/Machine/Validate.lean ====
section
/-! DEFINITION. Block validation (R411, step 3): the conditions that the chapters state as failing validation, block by block. A check
names the register that a failure is reported with (R423). -/

namespace Sys2Proof.Machine

/-- A condition on the register at `a`: its address where it fails. -/
def chk (a : Nat) (ok : Bool) : List Nat := if ok then [] else [a]

/-- A field lies in a range. -/
def Dev.inR (d : Dev) (f : Fld) (lo hi : Nat) : Bool := decide (lo ≤ d.getF f ∧ d.getF f ≤ hi)

/-- `f 0 ++ … ++ f (n-1)`. -/
def upTo (n : Nat) (f : Nat → List Nat) : List Nat := (List.range n).flatMap f

/-- The binary32 value of a register. -/
def Dev.f32At (d : Dev) (a : Nat) : FV := fdec f32 (d.rd a).toNat

/-! ### Clocks, timebase, PTP (R50, R67, R68, R398) -/

def valCrg (d : Dev) : List Nat :=
  chk addr_CRG_CTRL (d.inR CRG_CTRL_WDT_TMO 1 100) ++ chk addr_CRG_SSC (d.inR CRG_SSC_DEPTH 0 8) ++
    chk addr_CRG_BRTC_TRIM (decide (d.getF CRG_BRTC_TRIM_STEP ≠ 128))

def valTbs (d : Dev) : List Nat :=
  let lo := d.getF TBS_PERMIN_PER
  let hi := d.getF TBS_PERMAX_PER
  chk addr_TBS_INCR_LIM (d.inR TBS_INCR_LIM_PPM 1 1000) ++ chk addr_TBS_HO_LIM (decide (1 ≤ d.getF TBS_HO_LIM_S)) ++
    chk addr_TBS_PERMIN (decide (lo ≤ hi ∧ 8000 ≤ lo)) ++ chk addr_TBS_PERMAX (decide (hi ≤ 800000)) ++
    chk addr_TBS_PER (d.inR TBS_PER_PER lo hi) ++
    chk addr_TBS_PHI (decide (1920 ≤ d.getF TBS_PHI_PHI ∧ d.getF TBS_PHI_PHI + 800 ≤ lo)) ++
    chk addr_TBS_TLMDUE (decide (320 ≤ d.getF TBS_TLMDUE_TLM))

def valPtp (d : Dev) : List Nat :=
  chk addr_PTP_CTRL (d.inR PTP_CTRL_SERVO_TC 3 8 && d.inR PTP_CTRL_PROFILE 0 1) ++
    chk addr_PTP_JUMP_LIM (d.inR PTP_JUMP_LIM_NS 100 1000000)

/-! ### Process bus (R324, R340, R347 to R349, R409) -/

def valNet (d : Dev) : List Nat :=
  let m := fun n => d.getF (NET_PCFG_MEDIA n)
  chk addr_NET_CTRL (d.inR NET_CTRL_SUP_INT 1 60 && d.inR NET_CTRL_ENTRY_FGT 10 10000) ++
    upTo 3 (fun n => chk (addr_NET_PCFG n) (decide (m n = 0 ∨ (m n = 1 ∧ n < 2) ∨ (m n = 2 ∧ n = 2)))) ++
    chk (addr_NET_PCFG 0) (decide (m 0 = m 1))

/-- The strings of a stream or control block, as its identity hash covers them. -/
def identBytes (ids : List Ident) (kind index : Nat) : List Nat :=
  (List.range 3).flatMap fun f => (ids.filter fun e => decide (e.kind = kind ∧ e.index = index ∧ e.field = f)).flatMap (·.str)

def identRepeated (ids : List Ident) (e : Ident) : Bool :=
  decide (1 < (ids.filter fun x => decide (x.kind = e.kind ∧ x.index = e.index ∧ x.field = e.field)).length)

def valIdent (d : Dev) (ids : List Ident) : List Nat :=
  (ids.filter fun e => e.bad || identRepeated ids e).map (fun e => identReg e.kind e.index) ++
    upTo 4 (fun k => upTo (identCount k) fun i =>
      chk (identReg k i) (decide (crc32c (identBytes ids k i) = (d.rd (identReg k i)).toNat)))

def valSvx (d : Dev) : List Nat :=
  upTo 8 (fun n => chk (addr_SVX_PUB_CFG n) (d.inR (SVX_PUB_CFG_NASDU n) 1 8) ++
    chk (addr_SVX_PUB_ID n) (d.inR (SVX_PUB_ID_APPID n) 0x4000 0x7FFF && d.inR (SVX_PUB_ID_MAC n) 0 0x1FF)) ++
  upTo 32 (fun m => chk (addr_SVX_SUB_CFG m) (decide (1 ≤ d.getF (SVX_SUB_CFG_LEARN_N m))) ++
    chk (addr_SVX_SUB_TMO m) (d.inR (SVX_SUB_TMO_US m) 250 100000)) ++
  upTo 256 (fun i => chk (addr_SVX_SLOT_CFG i) (decide (d.getF (SVX_SLOT_CFG_SYNC_MIN i) ≠ 3)))

/-- A source of a GOOSE element that the table of R340 names. -/
def gseSrcOk (s : Nat) : Bool :=
  decide (s < 2 ∨ (0x10 ≤ s ∧ s < 0x20) ∨ (0x40 ≤ s ∧ s < 0x83) ∨ (0x90 ≤ s ∧ s < 0x98) ∨ (0xA0 ≤ s ∧ s < 0xE0))

def valGse (d : Dev) : List Nat :=
  upTo 16 (fun n => chk (addr_GSE_PUB_CFG n) (d.inR (GSE_PUB_CFG_NELEM n) 1 32) ++
    chk (addr_GSE_PUB_ID n) (d.inR (GSE_PUB_ID_APPID n) 0 0x3FFF) ++
    chk (addr_GSE_PUB_TIM n) (d.inR (GSE_PUB_TIM_T0 n) 100 60000 && decide (500 ≤ d.getF (GSE_PUB_TIM_T1 n))) ++
    upTo 32 (fun j => chk (addr_GSE_ELEM n j) (gseSrcOk (d.getF (GSE_ELEM_SRC n j)))))

/-! ### Lanes and Towline (R71, R90, R99, R150, R151) -/

def valLnk (d : Dev) : List Nat :=
  upTo 4 (fun m => chk (addr_LNK_LCTRL (64 + m)) (!d.bit (LNK_LCTRL_RATE (64 + m)))) ++
    chk addr_LNK_CTRL (d.inR LNK_CTRL_BUOY_INT 4 1024 && decide (16 ≤ d.getF LNK_CTRL_WAKE_BLK)) ++
    upTo 4 (fun i => chk (addr_LNK_REMAP i) (!d.bit (LNK_REMAP_EN i) || (decide (d.getF (LNK_REMAP_SRC i) < 64) &&
      !(List.range i).any fun j => d.bit (LNK_REMAP_EN j) && decide (d.getF (LNK_REMAP_SRC j) = d.getF (LNK_REMAP_SRC i)))))

def valTwl (d : Dev) : List Nat :=
  chk addr_TWL_CTRL (d.inR TWL_CTRL_TXN_TMO 10 10000 && decide (1 ≤ d.getF TWL_CTRL_XINT) && decide (4 ≤ d.getF TWL_CTRL_DEPART)) ++
    chk addr_TWL_EPCFG (!d.paired || decide (d.getF TWL_EPCFG_LEASE_PERIODS + 1 < d.getF TWL_EPCFG_COAST)) ++
    upTo 64 (fun n => chk (addr_TWL_XALLOW n) (d.inR (TWL_XALLOW_ALLOW n) 0 32000)) ++
    upTo 256 (fun c => chk (addr_TWL_EPDT c) (d.inR (TWL_EPDT_DEADT c) 320 320000) ++
      chk (addr_TWL_EPGDB c) (decide (1 ≤ d.getF (TWL_EPGDB_TRIES c) ∧ 1 ≤ d.getF (TWL_EPGDB_WAIT c))))

/-! ### Carrier bank (R152, R164, R181) -/

/-- Modes that group `g` accepts, of which OFF 0, CC 1, SQ 2, NL 3, BAND 4. -/
def cgModeOk (g m : Nat) : Bool :=
  if 16 ≤ g then decide (m ≤ 2) else if g % 2 = 0 then decide (m = 0 ∨ m = 1 ∨ m = 3 ∨ m = 4) else decide (m = 0 ∨ m = 2)

def valCbk (d : Dev) : List Nat :=
  chk addr_CBK_CTRL (decide (d.getF CBK_CTRL_IDLE_L6 = 0 ∨ d.getF CBK_CTRL_IDLE_L6 = 3)) ++
    upTo 24 (fun g =>
      let m := d.getF (CBK_CG_CFG_MODE g)
      let l := d.getF (CBK_CG_CFG_LATCH g)
      chk (addr_CBK_CG_CFG g) (cgModeOk g m && decide (l ≠ 3) && !(decide (l = 2) && decide (m = 2 ∨ m = 3)) &&
        d.inR (CBK_CG_CFG_PSRC g) 0 1) ++
      chk (addr_CBK_CG_PER g) (d.inR (CBK_CG_PER_TC g) 32000 64000000) ++
      chk (addr_CBK_CG_PMAX g) (decide (d.getF (CBK_CG_PMIN_TC g) ≤ d.getF (CBK_CG_PMAX_TC g))) ++
      chk (addr_CBK_CG_BSR g) (decide (1 ≤ d.getF (CBK_CG_BSR_HOLD g)) && d.inR (CBK_CG_BSR_MIN g) 80 8000)) ++
    upTo 16 (fun j => chk (addr_CBK_LB_CFG j) ((!d.bit (CBK_LB_CFG_FORM j) || d.inR (CBK_LB_CFG_DT j) 16 4000) &&
      decide (d.getF (CBK_LB_CFG_SLOT j) ≤ 4)))

/-! ### The stage table (R188 to R194, R201, R203, R209) -/

/-- Areas of state memory (R182): 0 a coefficient bank, 1 state, 2 input, 3 output, 4 applied. -/
def areaOf (w : Nat) : Nat :=
  if w < 0x40000 then 0 else if w < 0x60000 then 1 else if w < 0x70000 then 2 else if w < 0x78000 then 3 else 4

/-- Absolute vectors that a descriptor reads: first word and length. -/
def descReads (x : Nat) : List (Nat × Nat) :=
  let r := descRows x
  match descOp x with
  | 1 => (descSrc x, bitsOf 98 6 x + 1) :: (if bitsOf 95 1 x = 1 then [(bitsOf 20 19 x, r)] else [])
  | 3 => [(bitsOf 56 19 x, r), (bitsOf 37 19 x, r), (bitsOf 18 19 x, 1)]
  | 0 => []
  | _ => [(descSrc x, r)]

/-- The words a descriptor writes. -/
def descWrites (x : Nat) : List Nat := if descOp x = 0 then [] else (List.range (descRows x)).map (descDst x + ·)

/-- Bank-relative words a descriptor reads: first word and length. -/
def descCoefs (x : Nat) : List (Nat × Nat) :=
  let r := descRows x
  match descOp x with
  | 1 => [(bitsOf 39 17 x, r * (bitsOf 98 6 x + 1) * (if bitsOf 19 1 x = 1 then 2 else 1))]
  | 2 => let n := if bitsOf 97 1 x = 1 then 1 else r
         [(bitsOf 39 17 x, n), (bitsOf 22 17 x, n)]
  | 4 => [(bitsOf 39 17 x, bitsOf 94 10 x + 3)]
  | _ => []

/-- Reserved fields hold zero and no field holds a reserved value (R187 to R192, R201). -/
def descFormOk (x : Nat) : Bool :=
  let lim := if descClass x = 0 then 8 else 64
  let c := bitsOf 98 6 x + 1
  decide (descOp x ≤ 4 ∧ descClass x ≤ 2) &&
    (match descOp x with
    | 0 => true
    | 1 => decide (bitsOf 0 19 x = 0) && (decide (bitsOf 95 1 x = 1) || decide (bitsOf 20 19 x = 0)) && decide (c ≤ lim) &&
        (decide (bitsOf 94 1 x = 0) || (decide (descClass x = 0) && (decide (bitsOf 97 1 x = 1) || decide (descRows x ≤ c))))
    | 2 => decide (bitsOf 102 2 x ≠ 3) && decide (bitsOf 94 3 x = 0) && decide (bitsOf 0 22 x = 0)
    | 3 => decide (bitsOf 94 8 x = 0) && decide (bitsOf 0 18 x = 0)
    | _ => decide (1 ≤ bitsOf 94 10 x) && decide (bitsOf 0 39 x = 0)) &&
    (decide (descOp x = 0) || decide (descRows x ≤ lim))

/-- OWNER names a configured cell or arm, or is zero. -/
def Dev.ownerOk (d : Dev) (x : Nat) : Bool :=
  let o := descOwner x
  if descClass x = 0 then d.twl.map.any (fun e => decide (e.2 = o + 1))
  else if descClass x = 1 then decide (o < 8) && d.bit (BLS_ARM_CFG_EN o)
  else decide (o = 0)

/-- A word of the output or applied area, at offset `o`, belongs to the owner of a cell or arm stage; `w` words of eight are used. -/
def Dev.ownsUg (d : Dev) (x o w : Nat) : Bool :=
  decide (o % 8 < w) &&
    (if descClass x = 0 then decide (o / 8 = descOwner x)
     else if 256 ≤ o / 8 then decide ((o / 8 - 256) / 2 = descOwner x)
     else d.inArm (descOwner x) (o / 8))

/-- A state-area word with writers `ws` may be read. -/
def Dev.stateReadable (d : Dev) (x : Nat) (ws : List Nat) : Bool :=
  let o := descOwner x
  ws.all fun y =>
    if descClass x = 0 then
      (decide (descClass y = 0) && decide (descOwner y = o)) || (decide (descClass y = 1) && d.inArm (descOwner y) o) ||
        decide (descClass y = 2)
    else (decide (descClass y = 1) && decide (descOwner y = o)) || (decide (descClass y = 0) && d.inArm o (descOwner y))

/-- A word that a descriptor may read (R194). -/
def Dev.mayRead (d : Dev) (tab : List Nat) (x w : Nat) : Bool :=
  if descClass x = 2 then true
  else match areaOf w with
    | 1 => d.stateReadable x (tab.filter fun y => (descWrites y).contains w)
    | 2 =>
      let o := w - 0x60000
      decide (descClass x = 1 ∨ o / 8 = descOwner x ∨ o = 0x800 + descOwner x ∨ (0x900 ≤ o ∧ o < 0x940) ∨ (0xA80 ≤ o ∧ o < 0xAC0))
    | 3 => d.ownsUg x (w - 0x70000) 6
    | _ => d.ownsUg x (w - 0x78000) 8

/-- A word that a descriptor may write (R194). -/
def Dev.mayWrite (d : Dev) (x w : Nat) : Bool :=
  decide (areaOf w = 1) || (decide (areaOf w = 3) && (decide (descClass x = 2) || d.ownsUg x (w - 0x70000) 6))

/-- A vector stays in one area, outside the banks. -/
def vecOk (v : Nat × Nat) : Bool :=
  decide (areaOf v.1 ≠ 0 ∧ v.1 + v.2 ≤ 0x80000 ∧ areaOf v.1 = areaOf (v.1 + v.2 - 1))

/-- A descriptor obeys R188 and R194; `before` are the descriptors above it, nearest first. -/
def Dev.descOk (d : Dev) (tab before : List Nat) (x : Nat) : Bool :=
  let reads := descReads x
  let words := descWrites x
  let g := descLoop x
  descFormOk x && d.ownerOk x && reads.all vecOk && (words.isEmpty || vecOk (descDst x, descRows x)) &&
    (descCoefs x).all (fun v => decide (d.getF (HLM_GRP_BASE_W g) ≤ v.1 ∧ v.1 + v.2 ≤ d.getF (HLM_GRP_LIM_W g) + 1)) &&
    words.all (fun w => d.mayWrite x w && before.all fun y =>
      !(descWrites y).contains w || (decide (descClass y = descClass x) && decide (descOwner y = descOwner x))) &&
    (reads.flatMap fun v => (List.range v.2).map (v.1 + ·)).all (d.mayRead tab x)

/-- Indexes of descriptors that break a rule. -/
def Dev.badDescs (d : Dev) (tab before rest : List Nat) (i : Nat) : List Nat :=
  match rest with
  | [] => []
  | x :: t => (if d.descOk tab before x then [] else [i]) ++ d.badDescs tab (x :: before) t (i + 1)

/-- A LIM descriptor in CLAMP mode with positive lower limits that replaces a NaN by a limit (R209). -/
def Dev.bandLim (d : Dev) (x : Nat) : Bool :=
  let n := if bitsOf 97 1 x = 1 then 1 else descRows x
  decide (descOp x = 2 ∧ bitsOf 102 2 x = 0 ∧ bitsOf 98 2 x ≤ 1) &&
    (List.range n).all fun i => fvLt fvZero (d.mwF (bitsOf 39 17 x + i))

/-- Every cell of a BAND arm has its u1 written, the last time through such a descriptor (R209). -/
def Dev.bandOk (d : Dev) (tab : List Nat) : Bool :=
  (List.range 256).all fun c =>
    !d.bit (BLS_CELL_CFG_IN_ARM c) || decide (d.getF (CBK_CG_CFG_MODE (2 * d.getF (BLS_CELL_CFG_ARM c))) ≠ 4) ||
      (match (tab.filter fun x => (descWrites x).contains (0x70000 + 8 * c + 1)).reverse with
      | [] => false
      | x :: _ => d.bandLim x)

def valHlm (d : Dev) : List Nat :=
  let n := d.getF HLM_NDESC_N
  let tab := (List.range (min n 4096)).map d.desc
  let b := fun i => d.getF (HLM_GRP_BASE_W i)
  let l := fun i => d.getF (HLM_GRP_LIM_W i)
  chk addr_HLM_TNOM (d.inR HLM_TNOM_PER 8000 800000) ++ chk addr_HLM_NDESC (decide (n ≤ 4096) && d.bandOk tab) ++
    upTo 16 (fun i => chk (addr_HLM_GRP_BASE i) (decide (l i < b i) ||
      !(List.range i).any fun j => decide (b j ≤ l j ∧ b j ≤ l i ∧ b i ≤ l j))) ++
    upTo 16 (fun t => chk (addr_HLM_CT t) (decide (1 ≤ d.getF (HLM_CT_H t)))) ++
    (d.badDescs tab [] tab 0).map (fun i => 0x190000 + 16 * i)

/-! ### Gangway and Ballast (R219, R221, R233) -/

/-- A binary32 value is finite and positive, finite and not negative. -/
def fvPos (v : FV) : Bool := fvIsFin v && fvLt fvZero v
def fvNonneg (v : FV) : Bool := fvIsFin v && fvLe fvZero v

def valGwy (d : Dev) : List Nat :=
  upTo 32 fun n =>
    let ta := d.getF (GWY_CH_CFG_TADDR n)
    let lo := d.f32At (addr_GWY_CH_MIN n)
    let hi := d.f32At (addr_GWY_CH_MAX n)
    let x := d.f32At (addr_GWY_CH_INIT n)
    chk (addr_GWY_CH_CFG n) (!d.bit (GWY_CH_CFG_TSRC n) || decide (areaOf ta = 1 ∨ areaOf ta = 3)) ++
      chk (addr_GWY_CH_V n) (fvPos (d.f32At (addr_GWY_CH_V n))) ++ chk (addr_GWY_CH_A n) (fvPos (d.f32At (addr_GWY_CH_A n))) ++
      chk (addr_GWY_CH_J n) (fvPos (d.f32At (addr_GWY_CH_J n))) ++ chk (addr_GWY_CH_MIN n) (!fvLt hi lo) ++
      chk (addr_GWY_CH_INIT n) (fvLe lo x && fvLe x hi)

/-- Where a cell of the map stands. -/
def Dev.mapLane (d : Dev) (c : Nat) : Option Nat := (d.twl.map.find? fun e => decide (e.2 = c + 1)).map fun e => e.1 / 4

/-- The cells of an arm lie on lanes of one Towline version. -/
def Dev.oneVersion (d : Dev) (cs : List Nat) : Bool :=
  let vs := (cs.filterMap d.mapLane).map d.laneVer
  vs.all fun v => decide (v = vs.headD 0)

def valArm (d : Dev) (a : Nat) : List Nat :=
  let cs := d.armCells a
  let act := (cs.filter fun c => decide (d.getF (BLS_CELL_CFG_ROLE c) = 0)).length
  let ntgt := d.getF (BLS_ARM_CFG_NTGT a)
  let w := d.getF (BLS_ARM_ISRC_W a)
  chk (addr_BLS_ARM_CFG a) (decide (cs.length ≤ 128) && d.oneVersion cs) ++
    (if d.bit (BLS_ARM_CFG_EN a) then
      chk (addr_BLS_ARM_CFG a) (decide (ntgt ≤ act ∧ d.getF (BLS_ARM_CFG_NMIN a) ≤ ntgt)) ++
        chk (addr_BLS_ARM_ISRC a) (decide ((0x60900 ≤ w ∧ w < 0x60920) ∨ areaOf w = 1)) ++
        chk (addr_BLS_ARM_ADM_VLO a) (fvLt (d.f32At (addr_BLS_ARM_ADM_VLO a)) (d.f32At (addr_BLS_ARM_ADM_VHI a))) ++
        chk (addr_BLS_ARM_ADM a) (decide (1 ≤ d.getF (BLS_ARM_ADM_HOLD a) ∧ 1 ≤ d.getF (BLS_ARM_ADM_TMO a)))
     else [])

def valBls (d : Dev) : List Nat :=
  upTo 8 (valArm d) ++
    upTo 256 (fun c => chk (addr_BLS_CELL_CFG c) (d.inR (BLS_CELL_CFG_ROLE c) 0 1 &&
      (!d.bit (BLS_CELL_CFG_IN_ARM c) || d.bit (BLS_ARM_CFG_EN (d.getF (BLS_CELL_CFG_ARM c))))))

/-! ### Measurement inputs and trip matrix (R238, R260 to R265, R278) -/

def valMod (d : Dev) : List Nat :=
  chk addr_MOD_CTRL (d.inR MOD_CTRL_DIV 32 160 && (!d.bit MOD_CTRL_ALIGN || d.bit MOD_CTRL_SRC)) ++
    chk addr_MOD_DRCFG (decide (1 ≤ d.getF MOD_DRCFG_HOLD)) ++
    upTo 32 (fun c =>
      let k := d.getF (MOD_CH_CFG_STUCK c)
      chk (addr_MOD_CH_CFG c) (d.inR (MOD_CH_CFG_OSR c) 8 64 && decide (k = 0 ∨ 16 ≤ k)) ++
      chk (addr_MOD_CH_MCFG c) (d.inR (MOD_CH_MCFG_MOSR c) 16 256))

def valSar (d : Dev) : List Nat :=
  chk addr_SAR_CTRL (d.inR SAR_CTRL_TICK 10 1000) ++
    upTo 5 (fun x => chk (addr_SAR_SL_LEN x) (d.inR (SAR_SL_LEN_BGLEN x) 0 16 && d.inR (SAR_SL_LEN_SEQLEN x) 0 16))

def valTrp (d : Dev) : List Nat :=
  chk addr_TRP_EN1 (d.maskBit addr_TRP_EN1 29) ++
    upTo 16 (fun p => chk (addr_TRP_PINCFG p) (decide (d.getF (TRP_PINCFG_SCLK p) ≠ 3))) ++
    chk addr_TRP_MAP61 (decide (d.getF TRP_MAP61_GROUPS = 0xFFFF)) ++
    upTo 16 (fun g => chk (addr_TRP_GRP_REARM g) (decide (1 ≤ d.getF (TRP_GRP_REARM_TRIES g) ∧ 1 ≤ d.getF (TRP_GRP_REARM_DELAY g))))

/-! ### Metering (R298, R309, R315, R318) -/

def valPoint (d : Dev) (m : Nat) : List Nat :=
  chk (addr_MTR_PT_CFG m) (decide (d.getF (MTR_PT_CFG_KIND m) ≠ 3) && decide (1 ≤ d.getF (MTR_PT_CFG_NCYC m)) &&
      d.inR (MTR_PT_CFG_ZTO m) 5 1000) ++
    chk (addr_MTR_PT_ISTART m) (fvNonneg (d.f32At (addr_MTR_PT_ISTART m))) ++
    chk (addr_MTR_PT_ZHYS m) (fvNonneg (d.f32At (addr_MTR_PT_ZHYS m))) ++
    upTo 3 (fun ph => chk (addr_MTR_PT_CH m ph) (d.bit (MTR_PT_CFG_SRC m) ||
      (d.inR (MTR_PT_CH_VSRC m ph) 0 31 && d.inR (MTR_PT_CH_ISRC m ph) 0 31))) ++
    chk (addr_MTR_DEM_CFG m) (d.inR (MTR_DEM_CFG_LEN m) 1 60 && d.inR (MTR_DEM_CFG_OFS m) 0 3599 &&
      decide (d.getF (MTR_DEM_CFG_OFS m) < 60 * d.getF (MTR_DEM_CFG_LEN m)))

/-- An energy register's quantity exists in its mode, on its point (R309). -/
def eregOk (d : Dev) (r : Nat) : Bool :=
  let q := d.getF (MTR_E_ECFG_QTY r)
  let mode := d.getF (MTR_E_ECFG_MODE r)
  let m := d.getF (MTR_E_ECFG_POINT r)
  decide (mode ≤ 2 ∧ q ≤ 6) &&
    (!d.bit (MTR_E_ECFG_EN r) ||
      ((decide (q ≤ 1) || decide (mode = 1)) && d.bit (MTR_PT_CFG_EN m) &&
        (decide (d.getF (MTR_PT_CFG_KIND m) ≠ 2) || decide (q = 0 ∨ q = 2))))

def valMtr (d : Dev) : List Nat :=
  upTo 2 (valPoint d) ++
    upTo 4 (fun q => chk (addr_MTR_MP_CFG q) (d.inR (MTR_MP_CFG_WIDTH q) 10 100 && decide (1 ≤ d.getF (MTR_MP_CFG_K q)) &&
      (!d.bit (MTR_MP_CFG_EN q) || d.inR (MTR_E_ECFG_MODE (d.getF (MTR_MP_CFG_REG q))) 1 2))) ++
    upTo 32 (fun r => chk (addr_MTR_E_ECFG r) (eregOk d r))

/-! ### Mooring, Logbook, Manifest (R371, R410, R451, R452) -/

def valMor (d : Dev) (pair : Bool) : List Nat :=
  chk addr_MOR_CFG (decide (1 ≤ d.getF MOR_CFG_MIS_LIM ∧ 1 ≤ d.getF MOR_CFG_START_TMO) && (d.paired == pair)) ++
    chk addr_MOR_CFG2 (d.inR MOR_CFG2_TOFS_LIM 10 1000 && d.inR MOR_CFG2_XM 0 16000)

def valLogMft (d : Dev) : List Nat :=
  chk addr_LOG_CTRL (decide (1 ≤ d.getF LOG_CTRL_FRZ_TMO)) ++ chk addr_MFT_CFG (decide (1 ≤ d.getF MFT_CFG_PER_N))

/-! ### All blocks -/

/-- Every register that fails a validation check. -/
def validate (x : Applied) (pair : Bool) : List Nat :=
  let d := x.dev
  valCrg d ++ valTbs d ++ valPtp d ++ valNet d ++ valIdent d x.ident ++ valSvx d ++ valGse d ++ valLnk d ++ valTwl d ++ valCbk d ++
    valHlm d ++ valGwy d ++ valBls d ++ valMod d ++ valSar d ++ valTrp d ++ valMtr d ++ valMor d pair ++ valLogMft d

/-- First byte address of a block. -/
def blockBase (b : Nat) : Nat := if b = 9 then 0x100000 else statAddr b - 8

/-- DETAIL of code 0x08: block index and word offset of the register. -/
def valDetail (a : Nat) : Nat :=
  let b := (blockOf a).getD 0
  b * 2 ^ 19 + (a - blockBase b) / 4

/-- DETAIL of the lowest register that fails; `none` where none fails. Blocks stand in the address space in the order of their index. -/
def validateDetail (x : Applied) (pair : Bool) : Option Nat :=
  match validate x pair with
  | [] => none
  | a :: t => some (valDetail (t.foldl min a))

end Sys2Proof.Machine
end

