-- ==== Sys2Proof/Machine/Boot.lean ====
section
/-! DEFINITION. The start sequence, failed starts, Slipway mode, key programming and the arm commands (spec/15_boot.md). -/

namespace Sys2Proof.Machine

/-! ### Failed starts and Slipway mode (R415 to R419) -/

/-- BOT_FAILS and its mirror in MRAM. -/
def Dev.setFails (d : Dev) (n : Nat) : Dev := { d.setF BOT_FAILS_COUNT n with mram := { d.mram with fails := n } }

def Dev.setFailInfo (d : Dev) (code detail : Nat) : Dev := (d.setF BOT_FAILINFO_CODE code).setF BOT_FAILINFO_DETAIL detail

/-- Every record that waits is stored. -/
def Dev.drainLog (d : Dev) : Dev := forN 64 (fun _ d => recordStore d) d

/-- The blocks return to reset during a start, or at its failure: records that wait are kept, BOT_KID still shows this start. -/
def Dev.startReset (d : Dev) (retry : Bool) : Dev :=
  let r := d.fullReset true
  ({ r with log := { r.log with queue := d.log.queue }, crg := { r.crg with retry := retry, fromPor := d.crg.fromPor } }.wr
    addr_BOT_KID_LO (d.rd addr_BOT_KID_LO)).wr addr_BOT_KID_HI (d.rd addr_BOT_KID_HI)

/-- The settings of the ACCESS and NETIF records in force: from an image (1) or from the access copy (2) (R414, R419, R463). -/
def Dev.setAccess (d : Dev) (acc : Option AccRec) (netif : List NetIf) (src : Nat) : Dev :=
  let d := { d with mgt := { d.mgt with acc := acc, netif := netif } }
  (d.setF MGT_STAT_SPI_GRANT ((acc.map (·.spiClass)).getD 3)).setF MGT_STAT_ACC_SRC (if acc.isSome then src else 0)

/-- Step 1 of R412: the PLLs that are not locked search their bands. -/
def Dev.startPlls (d : Dev) (e : StartEnv) : Dev :=
  let d := (d.setB CRG_STAT_REF_OK e.refclk).setF CRG_RAIL_OK 63
  forN 4 (fun n d =>
    if d.bit (CRG_PLL_LOCK n) then d
    else match e.bands.getD n none with
      | some b => if e.refclk then ((d.setF (CRG_PLL_STATE n) 2).setF (CRG_PLL_LOCK n) 1).setF (CRG_PLL_BAND n) b
                  else d.setF (CRG_PLL_STATE n) 3
      | none => d.setF (CRG_PLL_STATE n) 3) d

/-- The first PLL that is not locked. -/
def Dev.unlocked (d : Dev) : Option Nat := (List.range 4).find? fun n => !d.bit (CRG_PLL_LOCK n)

/-- What OTP gives the registers (step 2 of R412). -/
def Dev.readOtp (d : Dev) (o : Otp) : Dev := (d.setF BOT_SVN_FLOOR o.svnFloor).setB BOT_STAT_OWNKH (!o.ownKh.isEmpty)

/-- Step 3 of R412 but for the verdict of the self-test: sensors after a POR (R450), Logbook recovery (R437). -/
def Dev.startTests (d : Dev) (e : StartEnv) : Dev :=
  let d := if d.crg.fromPor then d.thmStart e.temps else d
  d.logRecover

/-- The Slipway program runs, with the access copy (R419). -/
def State.runSlipway (s : State) (e : Option StartEnv) : State :=
  let d := s.dev
  let d := ((d.setF BOT_STAT_STAGE 2).setF BOT_STAT_SLIPWAY 1).setAccess d.mram.access d.mram.netif 2
  let d := { d with crg := { d.crg with retry := false } }
  let d := match e with
    | none => d
    | some e => match e.test with
      | [] => d
      | t :: _ => (d.setFailInfo t.1 t.2).logReg7 2 0x24 [t.1, t.2]
  { s with dev := d }.safDemand 0x0B

/-- Slipway entry (R387, R419): the reset has been taken; steps 1 to 3 of the start sequence run. -/
def State.slipwayEntry (s : State) (code : Nat) (e : Option StartEnv) : State :=
  let d := s.dev
  let d := ((d.evt CRG_RSTCAUSE_SLIPWAY).setF BOT_SLIPCODE_CODE code).wr addr_BOT_KIDS_LO (d.rd addr_BOT_KID_LO)
  let d := d.wr addr_BOT_KIDS_HI (d.rd addr_BOT_KID_HI)
  let d := match e with
    | none => d.readOtp s.otp
    | some e => ((d.startPlls e).readOtp s.otp).startTests e
  let d := d.logReg7 2 0x28 [code]
  { s with dev := d, bak := { s.bak with startT := d.brtc } }.runSlipway e

/-- A failed start (R415, R416): counted, recorded, and followed by the retry or by Slipway entry. `wdog`: its reset has been taken and
the sequence starts at once. -/
def State.startFail (s : State) (code detail : Nat) (e : Option StartEnv) (wdog : Bool) : State :=
  let n := min 15 (s.dev.getF BOT_FAILS_COUNT + 1)
  let d := s.dev.startReset (decide (n < 3) && !wdog)
  let d := ((d.setFails n).setFailInfo code detail).logReg7 2 0x24 [code, detail]
  let s := { s with dev := d.drainLog }
  if n < 3 then s else s.slipwayEntry code e

/-- Watchdog reset (R387, R391, R415, R419): less than 60 s of backup-counter time after the start of the start sequence it is a failed
start, but not in Slipway mode. -/
def watchdogReset (s : State) : State :=
  if !s.bak.main then s
  else
    let early := decide ((s.dev.brtc + 2 ^ 55 - s.bak.startT) % 2 ^ 55 < 60 * 32768)
    let slip := s.dev.bit BOT_STAT_SLIPWAY
    let d := (s.dev.sysReset CRG_RSTCAUSE_WDOG).bump CRG_WDOG_RST
    let d := if slip then d
      else (d.wr addr_BOT_KID_LO (s.dev.rd addr_BOT_KID_LO)).wr addr_BOT_KID_HI (s.dev.rd addr_BOT_KID_HI)
    let s := { s with dev := d }
    if early && !slip then s.startFail 0x30 0 none true else s

/-! ### Candidates (R411, R418) -/

/-- The two headers as read, slot A first. -/
def slotHeader (k : List Host.Cell) (slot : Nat) : List Nat := keyBytes k (slot * slotSize) 1024

/-- The key identity (R418). -/
def keyIdent (k : List Host.Cell) : Nat := beNat ((sha384 (slotHeader k 0 ++ slotHeader k 1)).take 8)

def Dev.setKid (d : Dev) (n : Nat) : Dev := (d.wrN addr_BOT_KID_LO n).wrN addr_BOT_KID_HI (n / 2 ^ 32)

/-- The slot pin permits a slot. -/
def Dev.slotAllowed (d : Dev) (slot : Nat) : Bool := decide (d.getF BOT_STAT_PIN = 0 ∨ d.getF BOT_STAT_PIN = slot + 1)

/-- The verdict on each permitted slot's header: the first condition it fails. -/
def State.headers (s : State) : List (Nat × List Nat × Option Nat) :=
  ((List.range 2).filter s.dev.slotAllowed).map fun sl =>
    let h := slotHeader s.key sl
    (sl, h, hdrFail s.otp.ownKh s.otp.svnFloor Config.serialNo h)

/-- Candidates by SEQ, highest first; slot A first on equal SEQ. -/
def orderCands (l : List (Nat × List Nat)) : List (Nat × List Nat) :=
  match l with
  | [a, b] => if hdrSeq a.2 < hdrSeq b.2 then [b, a] else [a, b]
  | l => l

/-- The image of a slot, tried against blocks in reset (R411, step 3): what its records leave, FW_VER, or the code and detail. -/
def tryImage (k : List Host.Cell) (d : Dev) (slot : Nat) (h : List Nat) : (Applied × Nat) ⊕ (Nat × Nat) :=
  let fw := keyBytes k (slot * slotSize + hdrFwOfs h) (hdrFwLen h)
  let recs := keyBytes k (slot * slotSize + hdrRecOfs h) (hdrRecLen h)
  if sha384 fw ≠ bytesAt h 0x040 48 ∨ sha384 recs ≠ bytesAt h 0x070 48 then .inr (0x05, slot)
  else if !fwAuthentic fw then .inr (0x04, slot)
  else match applyImage d h recs with
    | (_, some cd) => .inr cd
    | (x, none) => match validateDetail x (decide (hdrFlags h % 2 = 1)) with
      | some detail => .inr (0x08, detail)
      | none => .inl (x, numAt fw 4 4)

/-! ### A start that completes (R412, step 8) -/

/-- Registers that report the image in use. -/
def Dev.showImage (d : Dev) (slot fw : Nat) (h : List Nat) (fallback : Bool) : Dev :=
  let d := ((d.wrN addr_BOT_SEQ_LO (hdrSeq h)).wrN addr_BOT_SEQ_HI (hdrSeq h / 2 ^ 32)).setF BOT_SVN_IMAGE (hdrSvn h)
  let d := ((d.wrN addr_BOT_FWVER fw).setF BOT_STAT_SLOT slot).setB BOT_STAT_FALLBACK fallback
  d.setF BOT_STAT_STAGE 1

/-- The device leaves the start sequence: RUN, or THROTTLED where a thermal stage is in force (R393). -/
def Dev.enterRun (d : Dev) : Dev :=
  let hot := decide (thmStage1 ≤ d.thmState)
  (d.setF CRG_STAT_PSTATE (if hot then 2 else 1)).setB CRG_STAT_SYC_DIV hot

/-- An increment that the image sets goes to the accumulator (R34, R35). -/
def Dev.imageIncr (d : Dev) : Dev :=
  let v := d.getF TBS_INCR_NS_NS * 2 ^ 32 + (d.rd addr_TBS_INCR_FR).toNat
  if v = incrNominal then d else d.transferIncr v

/-- The blocks are released with the settings of the image. -/
def Dev.release (d : Dev) (role : Bool) : Dev :=
  let d := (d.setB MOR_STAT_ROLE role).morInit
  let d := d.twlPlaces.blsOutAll
  let d := d.setF BLS_STAT_ARMS (((List.range 8).filter fun a => d.bit (BLS_ARM_CFG_EN a)).map fun a => 2 ^ a).sum
  let d := (((d.imageIncr.acqApplied).mtrRestore).mtrStart).svAlign
  let d := (d.enterFree.ptpSelect).showPeers
  let d := (((d.setSource 61 d.saf).lbForce).gdUpdate).gseEval
  let d := if d.bit LOG_CTRL_FREEZE then d.setF LOG_STAT_FROZEN 1 else d
  if d.thmDoubles then d.thmPeriod else d

/-- The safety island's registers that the image sets. -/
def Island.applyImage (i : Island) (ws : List (Nat × Word)) : Island :=
  ws.foldl (fun i p => match regRow? p.1 with
    | some r => i.wr p.1 (imageWord r p.2 (i.rd p.1))
    | none => i) i

/-- OWN_KH is fused while it is blank (R403). -/
def Otp.fuse (o : Otp) (h : List Nat) : Otp := if o.ownKh.isEmpty then { o with ownKh := sha384 (hdrOwnKey h) } else o

/-- Step 8: the image is in force. -/
def State.startDone (s : State) (e : StartEnv) (x : Applied) (fw slot : Nat) (h : List Nat) (fallback : Bool) : State :=
  let d := (x.dev.showImage slot fw h fallback).enterRun
  let d := d.setAccess x.acc x.netif 1
  let d := { d with mram := { d.mram with access := x.acc, netif := x.netif }, mor := { d.mor with ident := leNat (hdrPairId h) },
                    crg := { d.crg with retry := false } }
  let d := d.release e.role
  let d := if s.otp.ownKh.isEmpty then (d.setF BOT_STAT_OWNKH 1).logReg 2 0x08 [1] else d
  { s with dev := d.logReg 2 0x08 [], isl := s.isl.applyImage x.isl, otp := s.otp.fuse h }

/-- A candidate has failed and a further one is tried (step 4 of R411). -/
def Dev.fellBack (d : Dev) (code detail : Nat) : Dev :=
  (((d.setFailInfo code detail).evt BOT_EVT_FALLBACK).bump BOT_FALLBACKS).logEvt 2 0 [code, detail]

/-- The candidates in order, until one starts (R411, steps 3 to 5). -/
def State.tryAll (s : State) (e : StartEnv) (cands : List (Nat × List Nat)) (fallback : Bool) : State :=
  match cands with
  | [] => s.startFail 0x01 0 (some e) false
  | (slot, h) :: rest => match tryImage s.key s.dev slot h with
    | .inl (x, fw) => s.startDone e x fw slot h fallback
    | .inr (code, detail) =>
      if rest.isEmpty then s.startFail code detail (some e) false
      else { s with dev := s.dev.fellBack code detail }.tryAll e rest true

/-! ### The start sequence (R411 to R413, R421) -/

/-- The cell map of the image (R101): lane * 4 + position ↦ cell + 1. -/
def cellMap (l : List (Nat × Nat × Nat)) : Sp Nat :=
  l.foldl (fun m c => if c.1 < 256 ∧ c.2.1 < 64 ∧ c.2.2 < 4 then spSet 0 m (c.2.1 * 4 + c.2.2) (c.1 + 1) else m) []

/-- The candidates, in the order in which they are tried (R411, steps 1 and 2). -/
def State.cands (s : State) : List (Nat × List Nat) :=
  orderCands ((s.headers.filter fun h => h.2.2.isNone).map fun h => (h.1, h.2.1))

/-- The key has been found and its headers have been read: what BOT_KINFO, BOT_KID and BOT_FAILINFO show, and the cell map. -/
def Dev.keyRead (d : Dev) (e : StartEnv) (kid : Nat) (hs : List (Nat × List Nat × Option Nat)) : Dev :=
  let d := (d.setF BOT_KINFO_MBIT (min e.mbit 65535)).setKid kid
  let d := hs.foldl (fun d h => match h.2.2 with
    | some c => if c = 0 then d else d.setFailInfo c h.1
    | none => d) d
  { d with twl := { d.twl with map := cellMap e.cells, permit := e.permit } }

/-- Steps 4 to 8: the key is found, and the candidates are tried. -/
def State.startKey (s : State) (e : StartEnv) : State :=
  if !e.keyOk ∨ e.mbit < 256 then s.startFail 0x31 0 (some e) false
  else { s with dev := s.dev.keyRead e (keyIdent s.key) s.headers }.tryAll e s.cands false

/-- Steps 3 to 8. -/
def State.startRest (s : State) (e : StartEnv) : State :=
  let s := { s with dev := s.dev.startTests e }
  match e.test with
  | t :: _ => s.startFail t.1 t.2 (some e) false
  | [] => s.startKey e

/-- Step 2 with BOT_FAILS at 3 or more (R421). -/
def State.startHeld (s : State) (e : StartEnv) : State :=
  let kids := (s.dev.rd addr_BOT_KIDS_LO).toNat + (s.dev.rd addr_BOT_KIDS_HI).toNat * 2 ^ 32
  if !s.dev.crg.fromPor then { s with dev := s.dev.startTests e }.runSlipway (some e)
  else
    let kid := if e.keyOk ∧ 256 ≤ e.mbit then keyIdent s.key else kids
    let s := { s with dev := s.dev.setKid kid }
    if kid = kids then { s with dev := s.dev.startTests e }.runSlipway (some e)
    else { s with dev := ((s.dev.setFails 0).logReg 2 0x20 [0]).drainLog }.startRest e

/-- The start sequence. With TESTEN high the device stays in reset (R490). -/
def startRun (e : StartEnv) (s : State) : State :=
  if e.testen then s
  else
    let s := { s with dev := { s.dev with crg := { s.dev.crg with retry := false } }.startPlls e }
    if !e.refclk then s.startFail 0x21 0 (some e) false
    else match s.dev.unlocked with
      | some n => s.startFail 0x20 n (some e) false
      | none =>
        let s := { s with dev := s.dev.readOtp s.otp, bak := { s.bak with startT := s.dev.brtc } }
        if 3 ≤ s.dev.getF BOT_FAILS_COUNT then s.startHeld e else s.startRest e

/-- A start sequence can begin: main power, out of reset, none has completed. -/
def State.canStart (s : State) (retry : Bool) : Bool :=
  s.bak.main && decide (s.dev.getF BOT_STAT_STAGE = 0) && !s.dev.applied && (s.dev.crg.retry == retry)

def startSequence (e : StartEnv) (s : State) : State := if s.canStart false then startRun e s else s
def startRetry (e : StartEnv) (s : State) : State := if s.canStart true then startRun e s else s

/-- 10 min after the start completed (R417). -/
def failsClear (d : Dev) : Dev :=
  if d.getF BOT_STAT_STAGE = 1 then ((d.setFails 0).setF BOT_STAT_PIN 0).logReg 2 0x20 [] else d

/-! ### BOT_CTRL and the SVN floor (R403, R420, R428) -/

/-- A refused write of BOT_CTRL or BOT_SVNBURN. -/
def ctrlRefused (d : Dev) : Dev := d.evt BOT_EVT_CTRL_REFUSED

/-- The relaunch of R420. Its record is stored before the reset. -/
def Dev.relaunch (d : Dev) (slot : Nat) : Dev := (((d.setF BOT_STAT_PIN slot).setFails 0).logReg 2 0x04 [slot]).drainLog.swReset

/-- A write of BOT_CTRL. -/
def botCtrlEffect (v : Word) : WEff := fun d =>
  let pin := decide (fldGet 1 1 v = 1)
  let rel := decide (fldGet 0 1 v = 1)
  let slot := fldGet 4 2 v
  let slip := d.bit BOT_STAT_SLIPWAY
  if rel then
    (if !pin ∧ slip ∧ fldGet 16 16 v = 0x5A1A ∧ slot ≠ 3 then (true, d.relaunch slot) else (false, ctrlRefused d))
  else if pin then
    (if !slip ∧ d.noArm ∧ slot ≠ 3 then (true, d.setF BOT_STAT_PIN slot) else (false, ctrlRefused d))
  else (true, d)

/-- A write of BOT_SVNBURN raises the fused floor to the SVN of the image in use. -/
def State.svnBurn (s : State) (p : Path) (v : Word) : Nat × State :=
  if !s.bak.main then (stR10, s)
  else
    let ok := decide (fldGet 16 16 v = 0xA51E) && !s.dev.bit BOT_STAT_SLIPWAY
    let n := max s.otp.svnFloor (s.dev.getF BOT_SVN_IMAGE)
    let r := s.dev.guardW (s.classOf p) (pathNo p) addr_BOT_SVNBURN v ctrlRefused fun d =>
      if ok then (true, d.setF BOT_SVN_FLOOR n) else (false, ctrlRefused d)
    (r.1, { s with dev := r.2, otp := if r.1 = stDone then { s.otp with svnFloor := n } else s.otp })

/-! ### Key programming (R422) -/

/-- Bytes an operation covers. -/
def kcmdSize (op : Nat) : Nat := if op = 3 then 4096 else if op = 4 then 65536 else 256

/-- Why a key command is refused, 0 if it is not, as KSTAT.RESULT codes it. -/
def Dev.kcmdReason (d : Dev) (op : Nat) : Nat :=
  let a := d.getF BOT_KADDR_ADDR
  let n := kcmdSize op
  if op = 0 ∨ 4 < op then 6
  else if d.kcmd.isSome then 2
  else if a % n ≠ 0 ∨ keySize < a + n ∨ (!d.bit BOT_STAT_SLIPWAY ∧ a / slotSize = d.getF BOT_STAT_SLOT) then 1
  else 0

/-- A refused key command. -/
def Dev.kcmdRefuse (d : Dev) (r : Nat) : Dev := (d.setF BOT_KSTAT_RESULT r).bump BOT_KCMD_REFUSED

/-- `n` bytes that nothing constrains. -/
def Dev.freeBytes (d : Dev) (n : Nat) : List Nat × Dev :=
  match n with
  | 0 => ([], d)
  | n + 1 =>
    let r := d.free 256
    let t := r.2.freeBytes n
    (r.1 :: t.1, t.2)

/-- The page in BOT_KBUF. -/
def Dev.kbuf (d : Dev) : List Nat := (List.range 64).flatMap fun w => leBytes 4 (d.rd (addr_BOT_KBUF w)).toNat

/-- The bytes a command leaves: what it reads, the page ANDed onto what was there, or erased bytes (log entry 42). -/
def kcmdBytes (op : Nat) (old page : List Nat) : List Nat :=
  match op with
  | 1 => old
  | 2 => (old.zip page).map fun x => Nat.land x.1 x.2
  | _ => old.map fun _ => 255

/-- A command starts: while it runs, the area it writes holds what nothing constrains. -/
def State.kcmdStart (s : State) (op : Nat) : State :=
  let a := s.dev.getF BOT_KADDR_ADDR
  let old := keyBytes s.key a (kcmdSize op)
  let page := s.dev.kbuf
  let d := { (s.dev.setF BOT_KSTAT_BUSY 1).setF BOT_KSTAT_RESULT 0 with kcmd := some ⟨op, a, page, kcmdBytes op old page⟩ }
  if op = 1 then { s with dev := d }
  else
    let r := d.freeBytes (kcmdSize op)
    { s with dev := r.2, key := keyPut s.key a r.1 }

/-- A write of BOT_KCMD. -/
def State.kcmdWrite (s : State) (p : Path) (v : Word) : Nat × State :=
  if !s.bak.main then (stR10, s)
  else
    let op := fldGet 0 3 v
    let r := s.dev.guardW (s.classOf p) (pathNo p) addr_BOT_KCMD v (fun d => d.kcmdRefuse 5) fun d =>
      let q := d.kcmdReason op
      if q = 0 then (true, d) else (false, d.kcmdRefuse q)
    let s := { s with dev := r.2 }
    (r.1, if r.1 = stDone then s.kcmdStart op else s)

/-- A command completes, or the key does not answer in time. -/
def kcmdDone (timeout : Bool) (s : State) : State :=
  match s.dev.kcmd with
  | none => s
  | some c =>
    let res := if timeout then 4 else if c.op = 2 ∧ c.bytes ≠ c.want then 3 else 0
    let d := { ((s.dev.setF BOT_KSTAT_BUSY 0).setF BOT_KSTAT_RESULT res).evt BOT_EVT_KCMD_DONE with kcmd := none }
    if timeout then { s with dev := d }
    else if c.op = 1 then { s with dev := forN 64 (fun w d => d.wrN (addr_BOT_KBUF w) (numAt c.bytes (4 * w) 4)) d }
    else { s with dev := d, key := keyPut s.key c.addr c.bytes }

/-! ### Arm commands (R11, R424 to R427) -/

/-- Why an arm write is refused, 0 if it is not; the conditions in the order of R424. A disable needs the first and the last. -/
def Dev.armReason (d : Dev) (set : Bool) (v : Word) : Nat :=
  let mask := fldGet 0 8 v
  if !d.applied ∨ d.bit BOT_STAT_SLIPWAY then 1
  else if set ∧ d.getF CRG_STAT_PSTATE = 3 then 2
  else if set ∧ !d.bit TBS_STAT_STEPPED then 3
  else if set && (List.range 8).any (fun a => decide (mask / 2 ^ a % 2 = 1) && !d.bit (BLS_ARM_CFG_EN a)) then 4
  else if !d.drives then 5
  else 0

def Dev.armRefuse (d : Dev) (r : Nat) : Dev :=
  (((d.setF BOT_ARM_STAT_ACCEPTED 0).setF BOT_ARM_STAT_REASON r).evt BOT_EVT_ARM_REFUSED).bump BOT_ARM_REFUSED

/-- What an arm write refused for its class, or in a standby, shows. -/
def armRef (set : Bool) (v : Word) (d : Dev) : Dev :=
  let r := d.armReason set v
  d.armRefuse (if r = 0 then 6 else r)

/-- In a pair, before the period runs, the holder sends an arm command and its S(0) at once (R427). -/
def Dev.armSend (d : Dev) (a : Nat) (v : Word) : Dev :=
  if d.paired && !d.per.running then { d with mor := { d.mor with out := d.mor.out ++ [(a, v)] } }.sendPeriod else d

/-- A write of BOT_ARM_SET or BOT_ARM_CLR. -/
def armEffect (set : Bool) (v : Word) : WEff := fun d =>
  let r := d.armReason set v
  let a := if set then addr_BOT_ARM_SET else addr_BOT_ARM_CLR
  if r ≠ 0 then (false, d.armRefuse r)
  else
    let d := ((d.setF BOT_ARM_STAT_ACCEPTED 1).setF BOT_ARM_STAT_REASON 0).logReg 2 (if set then 0x80 else 0x84) []
    let d := if set then d.placePeriod d.firstSample else d
    (true, (d.armPend set v).armSend a v)

/-- Reading BOT_SEQ_LO latches BOT_SEQ_HI for the path (R428, R460). -/
def seqLoRead (pn : Nat) (d : Dev) : Word × Dev :=
  (d.rd addr_BOT_SEQ_LO, d.setLatch pn addr_BOT_SEQ_HI (d.rd addr_BOT_SEQ_HI).toNat)

/-! ### The commands -/

/-- WATCHDOG_RESET (R391, R415). -/
def execWatchdogReset (s : State) : Host.Outcome State Fault Refusal := .next (watchdogReset s)

/-- START_SEQUENCE (R412). -/
def execStartSequence (e : StartEnv) (s : State) : Host.Outcome State Fault Refusal := .next (startSequence e s)

/-- START_RETRY (R416). -/
def execStartRetry (e : StartEnv) (s : State) : Host.Outcome State Fault Refusal := .next (startRetry e s)

/-- FAILS_CLEAR (R417). -/
def execFailsClear (s : State) : Host.Outcome State Fault Refusal := .next (s.onDev failsClear)

/-- RELAUNCH (R420). -/
def execRelaunch (p : Path) (v : Word) (s : State) : Host.Outcome State Fault Refusal :=
  .next (s.writeRow p addr_BOT_CTRL v ctrlRefused (botCtrlEffect v))

/-- PIN (R428). -/
def execPin (p : Path) (v : Word) (s : State) : Host.Outcome State Fault Refusal :=
  .next (s.writeRow p addr_BOT_CTRL v ctrlRefused (botCtrlEffect v))

/-- SVNBURN (R403). -/
def execSvnburn (p : Path) (v : Word) (s : State) : Host.Outcome State Fault Refusal :=
  .next (State.replied (s.svnBurn p v) p addr_BOT_SVNBURN)

/-- KEY_READ (R422). -/
def execKeyRead (p : Path) (s : State) : Host.Outcome State Fault Refusal :=
  .next (State.replied (s.kcmdWrite p 1) p addr_BOT_KCMD)

/-- KEY_PROGRAM (R422). -/
def execKeyProgram (p : Path) (s : State) : Host.Outcome State Fault Refusal :=
  .next (State.replied (s.kcmdWrite p 2) p addr_BOT_KCMD)

/-- ERASE_4K (R422). -/
def execErase4k (p : Path) (s : State) : Host.Outcome State Fault Refusal :=
  .next (State.replied (s.kcmdWrite p 3) p addr_BOT_KCMD)

/-- ERASE_64K (R422). -/
def execErase64k (p : Path) (s : State) : Host.Outcome State Fault Refusal :=
  .next (State.replied (s.kcmdWrite p 4) p addr_BOT_KCMD)

/-- KCMD_DONE (R422). -/
def execKcmdDone (timeout : Bool) (s : State) : Host.Outcome State Fault Refusal :=
  .next (if s.bak.main then kcmdDone timeout s else s)

/-- SEQ_LO_READ (R428, R460). -/
def execSeqLoRead (p : Path) (s : State) : Host.Outcome State Fault Refusal :=
  .next (s.readRow p addr_BOT_SEQ_LO (seqLoRead (pathNo p)))

/-- ARM_SET (R424). -/
def execArmSet (p : Path) (v : Word) (s : State) : Host.Outcome State Fault Refusal :=
  .next (s.writeRow p addr_BOT_ARM_SET v (armRef true v) (armEffect true v))

/-- ARM_CLR (R424). -/
def execArmClr (p : Path) (v : Word) (s : State) : Host.Outcome State Fault Refusal :=
  .next (s.writeRow p addr_BOT_ARM_CLR v (armRef false v) (armEffect false v))

end Sys2Proof.Machine
end

