-- ==== Sys2Proof/Machine/Effects.lean ====
section
/-! DEFINITION. A write by its address: which effect the addressed register has, and REGISTER_WRITE (R4 to R10). Every register
command, the management SPI and Landing write through `State.writeAt`. -/

namespace Sys2Proof.Machine

/-! ### What a write does, block by block -/

/-- TBS_STEP: RESTEP, then GO. -/
def stepWrite (v : Word) : WEff := fun d =>
  let r := if v.toNat / 2 % 2 = 1 then restepEffect d else (true, d)
  if r.1 && decide (v.toNat % 2 = 1) then stepGoEffect r.2 else r

def effCrg (a : Nat) (v : Word) : WEff :=
  if a = addr_CRG_PWR then pwrEffect v
  else if a = addr_CRG_SWRST then swrstEffect v
  else if a = addr_CRG_BRST then brstEffect v
  else plainWrite a v

def effBot (a : Nat) (v : Word) : WEff :=
  if a = addr_BOT_CTRL then botCtrlEffect v
  else if a = addr_BOT_ARM_SET then armEffect true v
  else if a = addr_BOT_ARM_CLR then armEffect false v
  else plainWrite a v

def effTbs (a : Nat) (v : Word) : WEff :=
  if a = addr_TBS_CTRL then tbsCtrlEffect v
  else if a = addr_TBS_INCR_NS then incrNsEffect v
  else if a = addr_TBS_INCR_FR then incrFrEffect v
  else if a = addr_TBS_STEP then stepWrite v
  else if addr_TBS_STEP_OFS_LO ≤ a ∧ a ≤ addr_TBS_STEP_OFS_FR then stepOfsEffect a v
  else if a = addr_TBS_PER then perEffect v
  else plainWrite a v

def effPtp (a : Nat) (v : Word) : WEff :=
  if a = addr_PTP_TSQ_POP 0 then tsqPopEffect 1 v
  else if a = addr_PTP_TSQ_POP 1 then tsqPopEffect 2 v
  else if a = addr_PTP_RXQ_POP 0 then rxqPopEffect 1 v
  else if a = addr_PTP_RXQ_POP 1 then rxqPopEffect 2 v
  else plainWrite a v

/-- A register of lane `n`. -/
def effLane (isl : Island) (pn n a : Nat) (v : Word) : WEff :=
  if a = addr_LNK_LCTRL n then lctrlEffect n v
  else if a = addr_LNK_LQF_THR n then lqfThrEffect n v
  else if a = addr_LNK_EQ0 n then eqEffect n false v
  else if a = addr_LNK_EQ1 n then eqEffect n true v
  else if a = addr_LNK_SLIP n then slipWrite n v
  else if a = addr_LNK_FI_CTRL n then fiWrite isl pn n v
  else plainWrite a v

def effLnk (isl : Island) (pn a : Nat) (v : Word) : WEff :=
  if a < 0x112000 then effLane isl pn ((a - 0x100000) / 0x400) a v
  else match idxOf a (addr_LNK_REMAP 0) 4 4 with
    | some i => remapEffect i v
    | none => plainWrite a v

def effTwl (cls a : Nat) (v : Word) : WEff :=
  if a = addr_TWL_TXQ_GO then txqGoEffect cls v
  else if a = addr_TWL_TXC_POP then txcPopEffect v
  else plainWrite a v

def effCbk (a : Nat) (v : Word) : WEff :=
  match idxOf a (addr_CBK_LB_OVR 0) (addr_CBK_LB_OVR 1 - addr_CBK_LB_OVR 0) 16 with
  | some j => lbOvrEffect j v
  | none => if addr_CBK_CG_CTRL 0 ≤ a ∧ a ≤ addr_CBK_CG_SH_U 23 5 then effGroup a v else plainWrite a v

def effWcm (a : Nat) (v : Word) : WEff :=
  match idxOf a (addr_WCM_CMP_THR 0) (addr_WCM_CMP_THR 1 - addr_WCM_CMP_THR 0) 24 with
  | some n => wcmThrEffect n v
  | none => plainWrite a v

def effLog (a : Nat) (v : Word) : WEff :=
  if a = addr_LOG_CTRL then logCtrlEffect v
  else if a = addr_LOG_CLR then logClrEffect v
  else if a = addr_LOG_CUR_CMD 0 then curEffect 0 v
  else if a = addr_LOG_CUR_CMD 1 then curEffect 1 v
  else plainWrite a v

def effMft (a : Nat) (v : Word) : WEff :=
  if a = addr_MFT_CTRL then mftCtrlEffect v
  else if a = addr_MFT_ASEL then aselEffect v
  else plainWrite a v

/-- One register of a block acts, the others are plain. -/
def effOne (a at_ : Nat) (e : WEff) (v : Word) : WEff := if a = at_ then e else plainWrite a v

/-- The effect of an accepted write of `v` at address `a` by a path of number `pn` and class `cls`; block 19 is the island's. -/
def effAt (isl : Island) (pn cls a : Nat) (v : Word) : WEff :=
  match blockOf a with
  | some 1 => effCrg a v
  | some 2 => effBot a v
  | some 3 => effOne a addr_THM_CTRL (thmCtrlEffect v) v
  | some 4 => effTbs a v
  | some 5 => effPtp a v
  | some 9 => effLnk isl pn a v
  | some 10 => effTwl cls a v
  | some 11 => effCbk a v
  | some 12 => effHlm a v
  | some 13 => effGwy a v
  | some 14 => effOne a addr_BLS_CMD (blsCmdEffect v) v
  | some 16 => effOne a addr_SAR_URG (urgEffect v) v
  | some 17 => effWcm a v
  | some 18 => effOne a addr_TRP_CLR (trpClrEffect v) v
  | some 20 => effOne a addr_MTR_ECLR (eclrEffect v) v
  | some 21 => effOne a addr_MOR_CTRL (morCtrlEffect v) v
  | some 22 => effLog a v
  | some 23 => effMft a v
  | _ => plainWrite a v

/-! ### What a write refused for its class, or in a standby, sets in addition (R507) -/

def refLnk (a : Nat) (v : Word) : Dev → Dev :=
  if a < 0x112000 then
    let n := (a - 0x100000) / 0x400
    if a = addr_LNK_FI_CTRL n then fiRef n v else id
  else if (idxOf a (addr_LNK_REMAP 0) 4 4).isSome then remapRef else id

def refCbk (a : Nat) : Dev → Dev :=
  if (idxOf a (addr_CBK_LB_OVR 0) (addr_CBK_LB_OVR 1 - addr_CBK_LB_OVR 0) 16).isSome ∨
      (addr_CBK_CG_CTRL 0 ≤ a ∧ a ≤ addr_CBK_CG_SH_U 23 5 ∧
        (let g := (a - addr_CBK_CG_CTRL 0) / (addr_CBK_CG_CTRL 1 - addr_CBK_CG_CTRL 0)
         a = addr_CBK_CG_CTRL g ∨ (addr_CBK_CG_SH_PER g ≤ a ∧ a ≤ addr_CBK_CG_SH_U g 5))) then Dev.cbkRef else id

def refBot (a : Nat) (v : Word) : Dev → Dev :=
  if a = addr_BOT_CTRL then ctrlRefused
  else if a = addr_BOT_ARM_SET then armRef true v
  else if a = addr_BOT_ARM_CLR then armRef false v
  else id

def refAt (cls a : Nat) (v : Word) : Dev → Dev :=
  match blockOf a with
  | some 1 => if a = addr_CRG_SWRST then swrstRefused else if a = addr_CRG_BRST then brstRef else id
  | some 2 => refBot a v
  | some 4 => if a = addr_TBS_STEP then Dev.stepRefused else id
  | some 9 => refLnk a v
  | some 11 => refCbk a
  | some 13 => if (idxOf a (addr_GWY_CH_PRESET 0) (addr_GWY_CH_PRESET 1 - addr_GWY_CH_PRESET 0) 32).isSome then gwyRef else id
  | some 14 => if a = addr_BLS_CMD then blsRef cls v else id
  | some 16 => if a = addr_SAR_URG then fun d => d.urgStat (fldGet 0 6 v) 3 else id
  | some 17 => if (idxOf a (addr_WCM_CMP_THR 0) (addr_WCM_CMP_THR 1 - addr_WCM_CMP_THR 0) 24).isSome then thrRefused else id
  | _ => id

/-! ### The write -/

/-- A write that needs no more than the main-supply part. -/
def State.writeDev (s : State) (p : Path) (a : Nat) (v : Word) : Nat × State :=
  if !s.bak.main then (stR10, s)
  else
    let c := s.classOf p
    let r := s.dev.guardW c (pathNo p) a v (refAt c a v) (effAt s.isl (pathNo p) c a v)
    (r.1, { s with dev := r.2 })

/-- A write by its address: status, and the state after. -/
def State.writeAt (s : State) (p : Path) (a : Nat) (v : Word) : Nat × State :=
  let r :=
    if blockOf a = some 19 ∧ !safManAddr a then (if a = addr_SAF_CTRL then s.safCtrl p v else s.safPlain p a v)
    else if a = addr_CRG_CNTCLR then s.cntclr p v
    else if a = addr_BOT_SVNBURN then s.svnBurn p v
    else if a = addr_BOT_KCMD then s.kcmdWrite p v
    else s.writeDev p a v
  (r.1, r.2.noteSeen)

/-- REGISTER_WRITE (R4 to R10, R454 to R457, R507). -/
def execRegisterWrite (p : Path) (a : Nat) (v : Word) (s : State) : Host.Outcome State Fault Refusal :=
  .next (State.replied (s.writeAt p a v) p a)

end Sys2Proof.Machine
end

