-- ==== Sys2Proof/Machine/Period.lean ====
section
/-! DEFINITION. The control period and its marks (spec/01_architecture.md): S(k), S(k) + TLM_DUE, the Helm deadline, S(k) + φout and
the end of the Helm run. A mark of period k that is overdue when a later one comes is performed first (log entry 7). -/

namespace Sys2Proof.Machine

/-- A mark of the present period: device time has reached S(k) plus `ofs` (in 1.25 ns). -/
def Dev.markAt (d : Dev) (ofs : Nat) : Dev := d.advanceTo (unitsOf125 (d.per.sk + ofs))

/-! ### S(k) + TLM_DUE (R14, R15, R18, R19, R200) -/

/-- A configured cell whose frame was not accepted is stale; a boarded one counts towards its departure (R144). -/
def Dev.dueCell (d : Dev) (c : Nat) : Dev :=
  let x := d.cell c
  let d := d.hlmStale c
  let d := (d.setB (TWL_CST_STALE c) (!x.accepted)).setMaskBit (addr_TWL_STALE (c / 32)) (c % 32) (!x.accepted)
  if d.cellState c = cellBoarded ∧ !x.accepted then d.setCell c { d.cell c with noTlm := (d.cell c).noTlm + 1 } else d

/-- The cell stages of the cells that are stale (R18). -/
def Dev.dueStages (d : Dev) : Dev := forN 256 (fun c d => if (d.cell c).accepted then d else d.hlmCell c true) d

/-- S(k) + TLM_DUE. -/
def Dev.tlmDueMark (d : Dev) : Dev :=
  if !d.per.running ∨ d.per.duePassed then d
  else
    let d := d.markAt (d.getF TBS_TLMDUE_TLM)
    let d := (d.cells.foldl Dev.dueCell d).dueStages
    let d := ((d.svWords true).blsDue).sendPeriod
    { d with per := { d.per with duePassed := true } }

/-! ### The Helm deadline, the interval start, the end of the run (R21, R23 to R25) -/

/-- S(k) + φout - 0.6 µs (R24): 480 units of 1.25 ns before φout. -/
def Dev.helmDeadline (d : Dev) : Dev :=
  let d := d.tlmDueMark
  if !d.per.running ∨ d.per.deadlinePassed then d
  else
    let d := d.markAt (d.getF TBS_PHI_PHI - 480)
    let d := { d with per := { d.per with deadlinePassed := true } }
    if d.bit HLM_STAT_RUNNING then d.hlmMiss else d

/-- S(k) + φout (R23, R358). -/
def Dev.intervalStart (d : Dev) : Dev :=
  let d := d.helmDeadline
  if !d.per.running ∨ d.per.phiPassed then d
  else
    let d := d.markAt (d.getF TBS_PHI_PHI)
    { d with per := { d.per with phiPassed := true } }.cbkApply.morDigest

/-- The Helm run ends `ns` after S(k); before its deadline the final schedules follow, on every lane but those in `late` (R21, R25). -/
def Dev.helmRunComplete (ns : Nat) (late : List Nat) (d : Dev) : Dev :=
  let d := d.tlmDueMark
  if !d.bit HLM_STAT_RUNNING then d
  else
    let d := d.hlmFinish ns
    if d.per.deadlinePassed || !d.hlm.bad.isEmpty then d else d.cbkFinal late

/-! ### S(k) (R11, R12, R20, R425) -/

/-- Period k ends: marks and a run that have not come are performed, cells from which nothing came are counted (R25, R150). -/
def Dev.periodEnd (d : Dev) : Dev :=
  let d := d.intervalStart
  let d := if d.bit HLM_STAT_RUNNING then d.hlmFinish (d.per.len * 5 / 4) else d
  d.cells.foldl (fun d c => if d.cellState c = cellBoarded ∧ !(d.cell c).arrived then d.bump (TWL_CNT_MISS c) else d) d

/-- Period k begins: its instant and its length (R11, R12, R50). -/
def Dev.periodBegin (d : Dev) : Dev :=
  let p := d.per
  let d := if p.running then { d with per :=
        { started := true, running := true, k := p.k + 1, sk := p.sk + p.len, len := p.nextA.getD p.len, nextA := p.nextB } }
    else { d with per := { p with running := true, k := 0, duePassed := false, phiPassed := false, deadlinePassed := false } }
  ((d.advanceTo (unitsOf125 d.per.sk)).setF TBS_PERNOW_PER d.per.len).showNext

/-- Arms become enabled and disabled (R425); injection without permission stops first (R97). -/
def Dev.applyArms (d : Dev) (live : Bool) : Dev :=
  let pend := d.getF BOT_ARM_PEND
  let en := Nat.xor (d.getF BOT_ARM_EN) pend
  let d := if Nat.land en pend ≠ 0 && !live then d.fiEnd 4 (fun _ _ => true) else d
  (d.setF BOT_ARM_EN en).setF BOT_ARM_PEND 0

/-- Inputs of the period: telemetry starts afresh; samples of the modulator inputs, results and values that waited. -/
def Dev.sampleInputs (d : Dev) (caps : List Capture) (capT prevLen : Nat) : Dev :=
  let d := d.cells.foldl (fun d c => d.setCell c { d.cell c with arrived := false, accepted := false }) d
  ((d.morSample.blsSample).modSample caps capT prevLen).hlmSample.gwySample.sarPending.svWords false

/-- What leaves at S(k): CLAIM, fallback schedules, RENEW or KEEPALIVE (R20, R365). -/
def Dev.sampleSend (d : Dev) : Dev := ((d.sendClaims.cbkSample).sendLeases)

/-- Writes accepted in the last 2.0 µs of the period before count as accepted in this one (R354). -/
def Dev.takeDeferred (d : Dev) : Dev :=
  let w := d.mor.defer
  let d := w.foldl Dev.applyCarried { d with mor := { d.mor with defer := [] } }
  { d with mor := { d.mor with out := d.mor.out ++ w } }

/-- S(k), with live-injection permission `live`; `caps` and `capT` as SAMPLING_INSTANT brings them. -/
def Dev.sampling (live : Bool) (caps : List Capture) (capT : Nat) (d : Dev) : Dev :=
  if !d.per.started then d
  else
    let was := d.per
    let d := if was.running then d.periodEnd else d
    let d := ({ d with mor := { d.mor with skPrev := was.sk } }.periodBegin).applyArms live
    let d := if was.running then d else { d.morPeriodStart with mft := { d.morPeriodStart.mft with perCnt := 0 } }
    let d := (d.sampleInputs caps capT (if was.running then was.len else 0)).sampleSend
    ((d.sarTrigger d.time).mftSample).takeDeferred.drainRx

/-! ### The commands -/

/-- SAMPLING_INSTANT (R11). -/
def execSamplingInstant (caps : List Capture) (capT : Nat) (s : State) : Host.Outcome State Fault Refusal :=
  .next (s.onDev (·.sampling (liveInject s.isl) caps capT))

/-- TLM_DUE (R14). -/
def execTlmDue (s : State) : Host.Outcome State Fault Refusal := .next (s.onDev (·.tlmDueMark.drainRx))

/-- HELM_RUN_COMPLETE (R21). -/
def execHelmRunComplete (ns : Nat) (late : List Nat) (s : State) : Host.Outcome State Fault Refusal :=
  .next (s.onDev fun d => (d.helmRunComplete ns late).drainRx)

/-- HELM_DEADLINE (R24). -/
def execHelmDeadline (s : State) : Host.Outcome State Fault Refusal := .next (s.onDev (·.helmDeadline))

/-- INTERVAL_START (R23). -/
def execIntervalStart (s : State) : Host.Outcome State Fault Refusal := .next (s.onDev (·.intervalStart))

end Sys2Proof.Machine
end

