-- ==== Sys2Proof/Machine/Access.lean ====
section
/-! DEFINITION. The access paths (spec/17_management_map.md): reads by address with their side effects, the management SPI
(R461 to R463), and the operations of a Landing REQUEST (R467, R468). -/

namespace Sys2Proof.Machine

/-! ### Reads by address (R8, R460) -/

/-- Registers whose read latches others for the path, in the blocks with one such register each. -/
def loEff (pn a : Nat) : Option (Dev → Word × Dev) :=
  if a = addr_TBS_TIME_LO then some (timeLoRead pn)
  else if a = addr_TBS_PPSI_LO then some (ppsiLoRead pn)
  else if a = addr_PTP_GM_ID_LO then some (gmIdLoRead pn)
  else if a = addr_MOD_CAPT_LO then some (captLoRead pn)
  else if a = addr_MOR_DIG_LO then some (digLoRead pn)
  else if a = addr_CRG_BRTC_LO then some (brtcLoRead pn)
  else if a = addr_BOT_SEQ_LO then some (seqLoRead pn)
  else if a = addr_LOG_NEXT_LO then some (nextLoRead pn)
  else if a = addr_LOG_OLD_LO then some (oldLoRead pn)
  else if a = addr_MFT_TM_LO then some (tmLoRead pn)
  else if a = addr_THM_MAX then some thmMaxRead
  else if a = addr_HLM_RUNMAX then some runmaxRead
  else none

/-- The same of register arrays. -/
def arrEff (pn a : Nat) : Option (Dev → Word × Dev) :=
  match idxOf a (addr_GWY_CH_OUT_P 0) (addr_GWY_CH_OUT_P 1 - addr_GWY_CH_OUT_P 0) 32 with
  | some n => some (outPRead pn n)
  | none => match idxOf a (addr_TRP_GRP_TLO 0) (addr_TRP_GRP_TLO 1 - addr_TRP_GRP_TLO 0) 16 with
    | some g => some (tloRead pn g)
    | none => match idxOf a (addr_MTR_E_ELO 0) (addr_MTR_E_ELO 1 - addr_MTR_E_ELO 0) 32 with
      | some r => some (eloRead pn r)
      | none => match idxOf a (addr_MTR_PT_RSEQ 0) (addr_MTR_PT_RSEQ 1 - addr_MTR_PT_RSEQ 0) 2 with
        | some m => some (rseqRead pn m)
        | none => match idxOf a (addr_MTR_DEM_HDR 0) (addr_MTR_DEM_HDR 1 - addr_MTR_DEM_HDR 0) 2 with
          | some m => some (demHdrRead pn m)
          | none => (idxOf a (addr_SVX_SUB_LAT 0) (addr_SVX_SUB_LAT 1 - addr_SVX_SUB_LAT 0) 32).map subLatRead

/-- A register of an array of `n`, `stride` bytes apart. -/
def inArr (a base stride n : Nat) : Bool := (idxOf a base stride n).isSome

/-- Registers that are read from the path's own latched copy. -/
def latchedReg (a : Nat) : Bool :=
  [addr_TBS_TIME_HI, addr_TBS_TIME_FR, addr_TBS_PPSI_HI, addr_TBS_PPSI_FR, addr_PTP_GM_ID_HI, addr_MOD_CAPT_HI, addr_MOR_DIG_HI,
    addr_MOR_PDIG_LO, addr_MOR_PDIG_HI, addr_MOR_DIG_K, addr_CRG_BRTC_HI, addr_CRG_BRTC_SUB, addr_BOT_SEQ_HI, addr_LOG_NEXT_HI,
    addr_LOG_OLD_HI, addr_MFT_TM_HI, addr_MFT_TM_FR].contains a ||
  inArr a (addr_GWY_CH_OUT_V 0) (addr_GWY_CH_OUT_V 1 - addr_GWY_CH_OUT_V 0) 32 ||
  inArr a (addr_GWY_CH_OUT_A 0) (addr_GWY_CH_OUT_A 1 - addr_GWY_CH_OUT_A 0) 32 ||
  inArr a (addr_TRP_GRP_THI 0) (addr_TRP_GRP_THI 1 - addr_TRP_GRP_THI 0) 16 ||
  inArr a (addr_MTR_E_EHI 0) (addr_MTR_E_EHI 1 - addr_MTR_E_EHI 0) 32 ||
  (List.range 2).any (fun m => (List.range 4).any fun k => inArr a (addr_MTR_RES0 m 0 + 32 * k) 4 6) ||
  (List.range 2).any (fun m => inArr a (addr_MTR_DEM_HDR m + 4) 4 6)

/-- A read by its address: status, data, and the state after. -/
def State.readAt (s : State) (p : Path) (a : Nat) : Nat × Word × State :=
  if !s.bak.main then (stR10, 0, s)
  else
    let pn := pathNo p
    let eff : Dev → Word × Dev := match loEff pn a with
      | some e => e
      | none => match arrEff pn a with
        | some e => e
        | none => if latchedReg a then fun d => (d.latched pn a, d) else fun d => (s.peek a, d)
    let r := s.dev.guardR (s.classOf p) pn a eff
    (r.1, r.2.1, { s with dev := r.2.2 })

/-! ### Management SPI (R461, R462) -/

/-- A frame without an access. -/
def Dev.spiErr (d : Dev) : Dev := (d.evt MGT_EVT_SPI_ERR).bump MGT_SPI_ERR

/-- The result bytes of a frame, with DCRC. -/
def Dev.spiResult (d : Dev) (bytes : List Nat) : Dev := d.emit .spiStatus 0 (bytes ++ [crc8 bytes])

/-- A READ frame; `rcrc` is the RCRC received. -/
def mspiRead (a rcrc : Nat) (s : State) : State :=
  if crc8 (3 :: beBytes 3 a) ≠ rcrc then s.onDev fun d => d.spiErr.spiResult [0xC4]
  else
    let r := s.readAt .spi (a % 2 ^ 24)
    r.2.2.onDev fun d => d.spiResult (r.1 :: if r.1 = stDone then beBytes 4 r.2.1.toNat else [])

/-- A WRITE frame. -/
def mspiWrite (a : Nat) (v : Word) (rcrc : Nat) (s : State) : State :=
  if crc8 (2 :: beBytes 3 a ++ beBytes 4 v.toNat) ≠ rcrc then s.onDev fun d => d.spiErr.spiResult [0xC4]
  else
    let r := s.writeAt .spi (a % 2 ^ 24) v
    r.2.onDev fun d => d.spiResult [r.1]

/-- MSPI_CSN rose before RCRC: counted, no flag. -/
def mspiCsnRise (d : Dev) : Dev := d.bump MGT_SPI_ERR

/-! ### Landing REQUESTs (R465, R467, R468) -/

/-- The body of a REQUEST. -/
def reqBody (ops : List (Nat × Nat × Nat)) : List Nat :=
  ops.flatMap fun o => o.1 % 256 :: leBytes 3 o.2.1 ++ leBytes 4 o.2.2

/-- One entry of a RESPONSE. -/
def respEntry (st a v : Nat) : List Nat := st :: leBytes 3 a ++ leBytes 4 v

/-- A REQUEST is judged by its SEQ (R467): executed, answered again, or discarded. -/
def Dev.landTake (d : Dev) (n : Nat) (r : LandReq) : Dev :=
  let x := d.sess n
  if r.seq = (x.lastSeq + 1) % 2 ^ 32 then
    (d.setSess n { x with lastSeq := r.seq, lastTag := r.tag, todo := r.ops, resp := [] }).setF (MGT_SESS_STATE n) 2
  else if r.seq = x.lastSeq ∧ r.tag = x.lastTag ∧ x.lastResp ≠ [] then
    d.ipSend .landing (d.getF (MGT_SESS_PORT n)) (d.getF (MGT_SESS_IP n) :: d.getF (MGT_SESS_UDP n) :: x.lastResp)
  else (d.bump MGT_REPLAY).evt MGT_EVT_REPLAY

/-- The RESPONSE of an executed REQUEST leaves, and is stored. -/
def Dev.landRespond (d : Dev) (n : Nat) : Dev :=
  let x := d.sess n
  let bytes := landMsg x.sk 4 (d.getF (MGT_SESS_SID n)) ((x.txSeq + 1) % 2 ^ 32) x.resp
  (d.landSend n 4 x.resp).setSess n { x with txSeq := (x.txSeq + 1) % 2 ^ 32, lastResp := bytes, resp := [] }

/-- What needs no access is done: reserved OPCs are answered with 0xC5; a finished REQUEST with its RESPONSE; held ones follow. -/
def Dev.landPump (d : Dev) (n : Nat) (fuel : Nat) : Dev :=
  match fuel with
  | 0 => d
  | k + 1 =>
    let x := d.sess n
    match x.todo with
    | (opc, a, _) :: rest =>
      if opc = 1 ∨ opc = 2 then d
      else
        let d := d.setSess n { x with todo := rest, resp := x.resp ++ respEntry 0xC5 a 0 }
        (if rest = [] then d.landRespond n else d).landPump n k
    | [] => match x.held with
      | [] => d
      | r :: t => ((d.setSess n { x with held := t }).landTake n r).landPump n k

/-- Steps enough for five REQUESTs of 64 operations. -/
def landFuel : Nat := 400

/-- A REQUEST whose TAG verifies: taken, or held while another executes (R467). -/
def Dev.landReq (d : Dev) (n : Nat) (r : LandReq) : Dev :=
  let x := d.sess n
  if x.todo = [] then (d.landTake n r).landPump n landFuel
  else if x.held.length < 4 then d.setSess n { x with held := x.held ++ [r] }
  else d.bump MGT_QDROP

def landRequest (m : LandMsg) (ops : List (Nat × Nat × Nat)) (d : Dev) : Dev :=
  if !d.ipUp m.port then d
  else if ops.length = 0 ∨ 64 < ops.length then d.bump MGT_MSG_BAD
  else match d.landSlot m 3 (reqBody ops) with
    | none => d.tagFail
    | some n => d.landReq n ⟨m.seq, ops, m.tag⟩

/-- An operation of slot `n` has been carried out. -/
def Dev.landDone (d : Dev) (n st a v : Nat) : Dev :=
  let x := d.sess n
  let d := d.setSess n { x with todo := x.todo.tail, resp := x.resp ++ respEntry st a v }
  (if x.todo.tail = [] then d.landRespond n else d).landPump n landFuel

/-- The next operation of slot `n` is a READ, and completes. -/
def landingRead (n : Nat) (s : State) : State :=
  match (s.dev.sess n).todo with
  | (1, a, _) :: _ =>
    let r := s.readAt (.landing n) (a % 2 ^ 24)
    r.2.2.onDev fun d => d.landDone n r.1 a (if r.1 = stDone then r.2.1.toNat else 0)
  | _ => s

/-- The next operation of slot `n` is a WRITE, and completes. A write that ends the session leaves nothing to answer. -/
def landingWrite (n : Nat) (s : State) : State :=
  match (s.dev.sess n).todo with
  | (2, a, v) :: _ =>
    let r := s.writeAt (.landing n) (a % 2 ^ 24) (BitVec.ofNat 32 v)
    r.2.onDev fun d => if d.sessState n = 0 then d else d.landDone n r.1 a 0
  | _ => s

/-! ### The commands -/

/-- MSPI_READ (R461, R462). -/
def execMspiRead (a rcrc : Nat) (s : State) : Host.Outcome State Fault Refusal := .next (mspiRead a rcrc s)

/-- MSPI_WRITE (R461, R462). -/
def execMspiWrite (a : Nat) (v : Word) (rcrc : Nat) (s : State) : Host.Outcome State Fault Refusal := .next (mspiWrite a v rcrc s)

/-- MSPI_CSN_RISE (R462). -/
def execMspiCsnRise (s : State) : Host.Outcome State Fault Refusal := .next (s.onDev mspiCsnRise)

/-- MSPI_RESERVED_OP (R462): no access, whichever the OP. -/
def execMspiReservedOp (op : Nat) (s : State) : Host.Outcome State Fault Refusal :=
  .next (s.inst (decide (op ≠ 2 ∧ op ≠ 3)) fun s => s.onDev fun d => d.spiErr.spiResult [0xC5])

/-- LANDING_REQUEST (R465, R467). -/
def execLandingRequest (m : LandMsg) (ops : List (Nat × Nat × Nat)) (s : State) : Host.Outcome State Fault Refusal :=
  .next (s.onDev (landRequest m ops))

/-- LANDING_READ (R468). -/
def execLandingRead (n : Nat) (s : State) : Host.Outcome State Fault Refusal := .next (s.inst s.bak.main (landingRead n))

/-- LANDING_WRITE (R468). -/
def execLandingWrite (n : Nat) (s : State) : Host.Outcome State Fault Refusal := .next (s.inst s.bak.main (landingWrite n))

end Sys2Proof.Machine
end

