-- ==== Sys2Proof/Machine/Dispatch.lean ====
section
/-! DEFINITION. One arm per command: the direct call of its meaning. -/

namespace Sys2Proof.Machine

def exec (i : Instr) (s : State) : Host.Outcome State Fault Refusal :=
  match i with
  | .registerWrite p a v => Sys2Proof.Machine.execRegisterWrite p a v s
  | .samplingInstant caps capT => Sys2Proof.Machine.execSamplingInstant caps capT s
  | .tlmDue => Sys2Proof.Machine.execTlmDue s
  | .helmRunComplete ns late => Sys2Proof.Machine.execHelmRunComplete ns late s
  | .helmDeadline => Sys2Proof.Machine.execHelmDeadline s
  | .intervalStart => Sys2Proof.Machine.execIntervalStart s
  | .incrNsWrite p v => Sys2Proof.Machine.execIncrNsWrite p v s
  | .incrFrWrite p v => Sys2Proof.Machine.execIncrFrWrite p v s
  | .restep p => Sys2Proof.Machine.execRestep p s
  | .stepGo p => Sys2Proof.Machine.execStepGo p s
  | .sync m => Sys2Proof.Machine.execSync m s
  | .followUp m => Sys2Proof.Machine.execFollowUp m s
  | .announce m => Sys2Proof.Machine.execAnnounce m s
  | .announceReceiptTimeout port => Sys2Proof.Machine.execAnnounceReceiptTimeout port s
  | .holdoverLimit => Sys2Proof.Machine.execHoldoverLimit s
  | .pdelayReqSend port seq t => Sys2Proof.Machine.execPdelayReqSend port seq t s
  | .pdelayReq port seq src => Sys2Proof.Machine.execPdelayReq port seq src s
  | .pdelayResp m => Sys2Proof.Machine.execPdelayResp m s
  | .pdelayRespFollowUp m => Sys2Proof.Machine.execPdelayRespFollowUp m s
  | .tsqPop p port => Sys2Proof.Machine.execTsqPop p port s
  | .rxqPop p port => Sys2Proof.Machine.execRxqPop p port s
  | .brtcWrite => Sys2Proof.Machine.execBrtcWrite s
  | .perWrite p v => Sys2Proof.Machine.execPerWrite p v s
  | .ppsoPulse => Sys2Proof.Machine.execPpsoPulse s
  | .ppsoPulseEnd => Sys2Proof.Machine.execPpsoPulseEnd s
  | .ppsiEdge falling t => Sys2Proof.Machine.execPpsiEdge falling t s
  | .ppsiMiss => Sys2Proof.Machine.execPpsiMiss s
  | .timeLoRead p => Sys2Proof.Machine.execTimeLoRead p s
  | .ppsiLoRead p => Sys2Proof.Machine.execPpsiLoRead p s
  | .gmIdLoRead p => Sys2Proof.Machine.execGmIdLoRead p s
  | .lanePowerRequest p lane tx rx => Sys2Proof.Machine.execLanePowerRequest p lane tx rx s
  | .powerTransitionDone lane rx => Sys2Proof.Machine.execPowerTransitionDone lane rx s
  | .dozeWake lane => Sys2Proof.Machine.execDozeWake lane s
  | .dozeReturn lane => Sys2Proof.Machine.execDozeReturn lane s
  | .lqfUpdate lane h v => Sys2Proof.Machine.execLqfUpdate lane h v s
  | .blockHeader lane hdr payload => Sys2Proof.Machine.execBlockHeader lane hdr payload s
  | .slip p lane => Sys2Proof.Machine.execSlip p lane s
  | .buoySend disp launch => Sys2Proof.Machine.execBuoySend disp launch s
  | .mooringBuoy m skew => Sys2Proof.Machine.execMooringBuoy m skew s
  | .buoyMiss m => Sys2Proof.Machine.execBuoyMiss m s
  | .remapWrite p n v => Sys2Proof.Machine.execRemapWrite p n v s
  | .testModeWrite p lane v => Sys2Proof.Machine.execTestModeWrite p lane v s
  | .fiStart p lane v => Sys2Proof.Machine.execFiStart p lane v s
  | .fiStop p lane => Sys2Proof.Machine.execFiStop p lane s
  | .fiReorderRelease lane rx => Sys2Proof.Machine.execFiReorderRelease lane rx s
  | .invite lane => Sys2Proof.Machine.execInvite lane s
  | .hello f => Sys2Proof.Machine.execHello f s
  | .leave lane pos bepoch reason => Sys2Proof.Machine.execLeave lane pos bepoch reason s
  | .crossProbe cell => Sys2Proof.Machine.execCrossProbe cell s
  | .crossEcho lane pos id turn rtt => Sys2Proof.Machine.execCrossEcho lane pos id turn rtt s
  | .echoTimeout cell id => Sys2Proof.Machine.execEchoTimeout cell id s
  | .boardingTimeout cell => Sys2Proof.Machine.execBoardingTimeout cell s
  | .refusedExpiry cell => Sys2Proof.Machine.execRefusedExpiry cell s
  | .tlm f => Sys2Proof.Machine.execTlm f s
  | .departTimeout cell => Sys2Proof.Machine.execDepartTimeout cell s
  | .foreignFrame lane ftype => Sys2Proof.Machine.execForeignFrame lane ftype s
  | .txnRead p cell a => Sys2Proof.Machine.execTxnRead p cell a s
  | .txnWrite p cell a v => Sys2Proof.Machine.execTxnWrite p cell a v s
  | .txnWritePosted p cell a v => Sys2Proof.Machine.execTxnWritePosted p cell a v s
  | .txnResponse lane pos tag a status v => Sys2Proof.Machine.execTxnResponse lane pos tag a status v s
  | .txnTimeout cell tag => Sys2Proof.Machine.execTxnTimeout cell tag s
  | .txcPop p => Sys2Proof.Machine.execTxcPop p s
  | .shadowWrite p n r v => Sys2Proof.Machine.execShadowWrite p n r v s
  | .commit p n v => Sys2Proof.Machine.execCommit p n v s
  | .manWrite p n v => Sys2Proof.Machine.execManWrite p n v s
  | .disWrite p n v => Sys2Proof.Machine.execDisWrite p n v s
  | .lbOvrWrite p j v => Sys2Proof.Machine.execLbOvrWrite p j v s
  | .lbEdge j on => Sys2Proof.Machine.execLbEdge j on s
  | .delayLineCalibration j taps => Sys2Proof.Machine.execDelayLineCalibration j taps s
  | .loopWrite p v => Sys2Proof.Machine.execLoopWrite p v s
  | .banksw p v => Sys2Proof.Machine.execBanksw p v s
  | .coefWrite p w v => Sys2Proof.Machine.execCoefWrite p w v s
  | .runmaxRead p => Sys2Proof.Machine.execRunmaxRead p s
  | .preset p n v => Sys2Proof.Machine.execPreset p n v s
  | .outPRead p n => Sys2Proof.Machine.execOutPRead p n s
  | .bypass p c => Sys2Proof.Machine.execBypass p c s
  | .admitCell p c => Sys2Proof.Machine.execAdmitCell p c s
  | .spare p c => Sys2Proof.Machine.execSpare p c s
  | .admissionTimeout c => Sys2Proof.Machine.execAdmissionTimeout c s
  | .mclkFault => Sys2Proof.Machine.execMclkFault s
  | .mckiFreqMeasure khz => Sys2Proof.Machine.execMckiFreqMeasure khz s
  | .meteringSample caps => Sys2Proof.Machine.execMeteringSample caps s
  | .sarTick => Sys2Proof.Machine.execSarTick s
  | .conversionEnd x code => Sys2Proof.Machine.execConversionEnd x code s
  | .sarUrg p v => Sys2Proof.Machine.execSarUrg p v s
  | .calWindowEnd => Sys2Proof.Machine.execCalWindowEnd s
  | .comparatorOutput n nv anaLow => Sys2Proof.Machine.execComparatorOutput n nv anaLow s
  | .settleEnd n => Sys2Proof.Machine.execSettleEnd n s
  | .wcmThrWrite p n v => Sys2Proof.Machine.execWcmThrWrite p n v s
  | .dacStep n => Sys2Proof.Machine.execDacStep n s
  | .tripSourceActive ss => Sys2Proof.Machine.execTripSourceActive ss s
  | .tripPin p active => Sys2Proof.Machine.execTripPin p active s
  | .pinKnown p active => Sys2Proof.Machine.execPinKnown p active s
  | .bankMonitorLow => Sys2Proof.Machine.execBankMonitorLow s
  | .trpClr p v => Sys2Proof.Machine.execTrpClr p v s
  | .rearm g => Sys2Proof.Machine.execRearm g s
  | .rearmCountReset g => Sys2Proof.Machine.execRearmCountReset g s
  | .islandPowerOn sw levels sealHigh lorHigh => Sys2Proof.Machine.execIslandPowerOn sw levels sealHigh lorHigh s
  | .islandStart sw => Sys2Proof.Machine.execIslandStart sw s
  | .switchRead sw => Sys2Proof.Machine.execSwitchRead sw s
  | .safetyInput x a b => Sys2Proof.Machine.execSafetyInput x a b s
  | .discrepancyTimeout x => Sys2Proof.Machine.execDiscrepancyTimeout x s
  | .lorPress cycles sw ballA ballB => Sys2Proof.Machine.execLorPress cycles sw ballA ballB s
  | .testPulse chB low => Sys2Proof.Machine.execTestPulse chB low s
  | .safeoffReadbackFault chB => Sys2Proof.Machine.execSafeoffReadbackFault chB s
  | .aocLoss => Sys2Proof.Machine.execAocLoss s
  | .islandSupplyLow => Sys2Proof.Machine.execIslandSupplyLow s
  | .faultCauseEnd supply => Sys2Proof.Machine.execFaultCauseEnd supply s
  | .sealBreak => Sys2Proof.Machine.execSealBreak s
  | .sealWatchPulse high => Sys2Proof.Machine.execSealWatchPulse high s
  | .sealClr p => Sys2Proof.Machine.execSealClr p s
  | .safDemand p => Sys2Proof.Machine.execSafDemand p s
  | .lossOfVoltage m ph => Sys2Proof.Machine.execLossOfVoltage m ph s
  | .fallbackBoundary m => Sys2Proof.Machine.execFallbackBoundary m s
  | .eclr p v => Sys2Proof.Machine.execEclr p v s
  | .eloRead p r => Sys2Proof.Machine.execEloRead p r s
  | .rseqRead p m => Sys2Proof.Machine.execRseqRead p m s
  | .demandClose m => Sys2Proof.Machine.execDemandClose m s
  | .demHdrRead p m => Sys2Proof.Machine.execDemHdrRead p m s
  | .pulseStart q => Sys2Proof.Machine.execPulseStart q s
  | .pulseEnd q => Sys2Proof.Machine.execPulseEnd q s
  | .meterSave ok => Sys2Proof.Machine.execMeterSave ok s
  | .linkDown port los => Sys2Proof.Machine.execLinkDown port los s
  | .linkUp port speed => Sys2Proof.Machine.execLinkUp port speed s
  | .supervisionSend => Sys2Proof.Machine.execSupervisionSend s
  | .supervisionFrame e => Sys2Proof.Machine.execSupervisionFrame e s
  | .nodeForget mac => Sys2Proof.Machine.execNodeForget mac s
  | .entryForget mac seq => Sys2Proof.Machine.execEntryForget mac seq s
  | .svPublish n smp => Sys2Proof.Machine.execSvPublish n smp s
  | .svFrame f => Sys2Proof.Machine.execSvFrame f s
  | .svTimeout m => Sys2Proof.Machine.execSvTimeout m s
  | .subLatRead p m => Sys2Proof.Machine.execSubLatRead p m s
  | .gooseScan => Sys2Proof.Machine.execGooseScan s
  | .gooseRepeat n => Sys2Proof.Machine.execGooseRepeat n s
  | .gooseMessage g => Sys2Proof.Machine.execGooseMessage g s
  | .gooseTalExpiry m => Sys2Proof.Machine.execGooseTalExpiry m s
  | .pairFrame f => Sys2Proof.Machine.execPairFrame f s
  | .pairingCheck => Sys2Proof.Machine.execPairingCheck s
  | .periodFrame f => Sys2Proof.Machine.execPeriodFrame f s
  | .mooringDeadline => Sys2Proof.Machine.execMooringDeadline s
  | .timeFrame rtt turn ofs => Sys2Proof.Machine.execTimeFrame rtt turn ofs s
  | .syncFrame phase prog items => Sys2Proof.Machine.execSyncFrame phase prog items s
  | .resyncComplete => Sys2Proof.Machine.execResyncComplete s
  | .handoverFrame h => Sys2Proof.Machine.execHandoverFrame h s
  | .startTimeout => Sys2Proof.Machine.execStartTimeout s
  | .handover p => Sys2Proof.Machine.execHandover p s
  | .resync p => Sys2Proof.Machine.execResync p s
  | .digLoRead p => Sys2Proof.Machine.execDigLoRead p s
  | .por => Sys2Proof.Machine.execPor s
  | .backupPor => Sys2Proof.Machine.execBackupPor s
  | .brownOut => Sys2Proof.Machine.execBrownOut s
  | .resetn => Sys2Proof.Machine.execResetn s
  | .watchdogWarn => Sys2Proof.Machine.execWatchdogWarn s
  | .watchdogReset => Sys2Proof.Machine.execWatchdogReset s
  | .swrst p v => Sys2Proof.Machine.execSwrst p v s
  | .blockReset p v => Sys2Proof.Machine.execBlockReset p v s
  | .cntclr p v => Sys2Proof.Machine.execCntclr p v s
  | .pllLock n band => Sys2Proof.Machine.execPllLock n band s
  | .pllFail n => Sys2Proof.Machine.execPllFail n s
  | .pllLossOfLock n => Sys2Proof.Machine.execPllLossOfLock n s
  | .refclkLoss => Sys2Proof.Machine.execRefclkLoss s
  | .quiescentRequest p => Sys2Proof.Machine.execQuiescentRequest p s
  | .runRequest p => Sys2Proof.Machine.execRunRequest p s
  | .mainPowerLoss => Sys2Proof.Machine.execMainPowerLoss s
  | .brtcTrim => Sys2Proof.Machine.execBrtcTrim s
  | .brtcLoRead p => Sys2Proof.Machine.execBrtcLoRead p s
  | .startSequence e => Sys2Proof.Machine.execStartSequence e s
  | .startRetry e => Sys2Proof.Machine.execStartRetry e s
  | .failsClear => Sys2Proof.Machine.execFailsClear s
  | .relaunch p v => Sys2Proof.Machine.execRelaunch p v s
  | .pin p v => Sys2Proof.Machine.execPin p v s
  | .svnburn p v => Sys2Proof.Machine.execSvnburn p v s
  | .keyRead p => Sys2Proof.Machine.execKeyRead p s
  | .keyProgram p => Sys2Proof.Machine.execKeyProgram p s
  | .erase4k p => Sys2Proof.Machine.execErase4k p s
  | .erase64k p => Sys2Proof.Machine.execErase64k p s
  | .kcmdDone timeout => Sys2Proof.Machine.execKcmdDone timeout s
  | .seqLoRead p => Sys2Proof.Machine.execSeqLoRead p s
  | .armSet p v => Sys2Proof.Machine.execArmSet p v s
  | .armClr p v => Sys2Proof.Machine.execArmClr p v s
  | .recordStore => Sys2Proof.Machine.execRecordStore s
  | .oldest p c => Sys2Proof.Machine.execOldest p c s
  | .newest p c => Sys2Proof.Machine.execNewest p c s
  | .next p c => Sys2Proof.Machine.execNext p c s
  | .prev p c => Sys2Proof.Machine.execPrev p c s
  | .seek p c => Sys2Proof.Machine.execSeek p c s
  | .cursorCopyDone c => Sys2Proof.Machine.execCursorCopyDone c s
  | .freeze p => Sys2Proof.Machine.execFreeze p s
  | .unfreeze p => Sys2Proof.Machine.execUnfreeze p s
  | .freezeTimeout => Sys2Proof.Machine.execFreezeTimeout s
  | .logClr p v => Sys2Proof.Machine.execLogClr p v s
  | .clearExecute => Sys2Proof.Machine.execClearExecute s
  | .nextLoRead p => Sys2Proof.Machine.execNextLoRead p s
  | .oldLoRead p => Sys2Proof.Machine.execOldLoRead p s
  | .scrub f => Sys2Proof.Machine.execScrub f s
  | .manifestLatch late => Sys2Proof.Machine.execManifestLatch late s
  | .manin => Sys2Proof.Machine.execManin s
  | .mftTrig p => Sys2Proof.Machine.execMftTrig p s
  | .mftRearm p => Sys2Proof.Machine.execMftRearm p s
  | .archiveWriteDone ok => Sys2Proof.Machine.execArchiveWriteDone ok s
  | .aselWrite p v => Sys2Proof.Machine.execAselWrite p v s
  | .aselCopyDone => Sys2Proof.Machine.execAselCopyDone s
  | .tmLoRead p => Sys2Proof.Machine.execTmLoRead p s
  | .tloRead p g => Sys2Proof.Machine.execTloRead p g s
  | .captLoRead p => Sys2Proof.Machine.execCaptLoRead p s
  | .thermalMeasurement ts => Sys2Proof.Machine.execThermalMeasurement ts s
  | .resume p => Sys2Proof.Machine.execResume p s
  | .thmMaxRead p => Sys2Proof.Machine.execThmMaxRead p s
  | .mspiRead a rcrc => Sys2Proof.Machine.execMspiRead a rcrc s
  | .mspiWrite a v rcrc => Sys2Proof.Machine.execMspiWrite a v rcrc s
  | .mspiCsnRise => Sys2Proof.Machine.execMspiCsnRise s
  | .landingHello m kid cls note cnonce => Sys2Proof.Machine.execLandingHello m kid cls note cnonce s
  | .landingRequest m ops => Sys2Proof.Machine.execLandingRequest m ops s
  | .landingRead n => Sys2Proof.Machine.execLandingRead n s
  | .landingWrite n => Sys2Proof.Machine.execLandingWrite n s
  | .landingClose m reason => Sys2Proof.Machine.execLandingClose m reason s
  | .landingKeepalive m => Sys2Proof.Machine.execLandingKeepalive m s
  | .welcomeTimeout n => Sys2Proof.Machine.execWelcomeTimeout n s
  | .idleTimeout n => Sys2Proof.Machine.execIdleTimeout n s
  | .notify n => Sys2Proof.Machine.execNotify n s
  | .sealIntact => Sys2Proof.Machine.execSealIntact s
  | .crossComparisonFault => Sys2Proof.Machine.execCrossComparisonFault s
  | .filteredFrame port kind => Sys2Proof.Machine.execFilteredFrame port kind s
  | .arpRequest port ip => Sys2Proof.Machine.execArpRequest port ip s
  | .icmpEcho port ip dst data => Sys2Proof.Machine.execIcmpEcho port ip dst data s
  | .msgBad port => Sys2Proof.Machine.execMsgBad port s
  | .mspiReservedOp op => Sys2Proof.Machine.execMspiReservedOp op s

end Sys2Proof.Machine
end

