-- ==== Sys2Proof/WellFormed.lean ====
section
/-! DEFINITION. Which commands are well formed: every index names an instance the spec gives the device, and every operand of a
frame, an access or a measurement fits the width its layout gives it. `exec` has an effect on any command; an ill-formed one is no
event of this device. -/

namespace Sys2Proof

/-- A number of `w` bits. -/
def fits (w n : Nat) : Bool := decide (n < 2 ^ w)

/-- A Landing slot is one of eight (R465). -/
def Path.wf (p : Path) : Bool :=
  match p with
  | .spi => true
  | .landing n => decide (n < 8)

/-- Port P1 or P2 (R56), and P1 to P3 (R325). -/
def ptpPort (n : Nat) : Bool := decide (1 ≤ n ∧ n ≤ 2)
def ethPort (n : Nat) : Bool := decide (1 ≤ n ∧ n ≤ 3)

/-- Lane numbers (R69): 0-63 to cells, 64-67 mooring, 68-71 spares; positions of a lane (R100). -/
def laneNo (n : Nat) : Bool := decide (n < 72)
def posNo (n : Nat) : Bool := decide (n < 4)

/-- A cell of the device (R100). -/
def cellNo (n : Nat) : Bool := fits 8 n

/-- Byte values. -/
def bytesOk (bs : List Nat) : Bool := bs.all (fits 8)

def PtpMsg.wf (m : PtpMsg) : Bool := ptpPort m.port && fits 8 m.domain && fits 16 m.seq && fits 80 m.src && fits 96 m.tIn

def PtpAnnounce.wf (m : PtpAnnounce) : Bool :=
  ptpPort m.port && fits 8 m.domain && fits 80 m.src && fits 8 m.priority1 && fits 8 m.clockClass && fits 8 m.accuracy &&
    fits 16 m.variance && fits 8 m.priority2 && fits 64 m.gmId && fits 16 m.stepsRemoved && fits 8 m.timeSource

/-- A modulator input is one of 32 (R234). -/
def Capture.wf (c : Capture) : Bool := decide (c.ch < 32) && fits 96 c.t

def ScrubWord.wf (f : ScrubWord) : Bool := decide (f.mem < 7) && decide (f.err < 3)

def LandMsg.wf (m : LandMsg) : Bool :=
  (decide (m.port = 1) || decide (m.port = 3)) && fits 32 m.ip && fits 16 m.udp && fits 32 m.sid && fits 32 m.seq && bytesOk m.tag &&
    decide (m.tag.length = 32)

def EthRx.wf (e : EthRx) : Bool :=
  ethPort e.port && fits 48 e.src && (e.rct.all fun r => fits 16 r.1) && (e.vid.all (fits 12))

def SvFrame.wf (f : SvFrame) : Bool :=
  f.eth.wf && fits 32 f.ident && fits 32 f.hash && fits 32 f.confRev && fits 8 f.smpSynch &&
    f.asdus.all (fun a => fits 16 a.1 && a.2.all (fun x => fits 32 x.2)) && fits 96 f.tIn

def GooseMsg.wf (g : GooseMsg) : Bool :=
  g.eth.wf && fits 32 g.ident && fits 32 g.hash && fits 32 g.confRev && fits 32 g.stNum && fits 32 g.sqNum && fits 32 g.tal

def PairFrame.wf (f : PairFrame) : Bool := fits 3 f.state && fits 16 f.epoch

def PeriodFrame.wf (f : PeriodFrame) : Bool := fits 3 f.state && fits 16 f.epoch && f.fresh.all cellNo && fits 64 f.digest

def SyncItem.wf (i : SyncItem) : Bool :=
  match i with
  | .mem w vs => decide (w + vs.length ≤ 0x80000)
  | .reg a _ => decide (a % 4 = 0) && fits 24 a
  | .gwy n _ => decide (n < 32)
  | .leg c l _ => cellNo c && decide (l < 7)
  | .grp n _ _ _ _ => decide (n < 24)
  | .arm a _ _ => decide (a < 16)
  | .align _ _ => true
  | .epoch e => fits 16 e

def HelloFrame.wf (f : HelloFrame) : Bool :=
  laneNo f.lane && posNo f.pos && fits 4 f.ver && fits 16 f.bepoch && fits 32 f.epId && fits 64 f.serial && fits 32 f.cap && fits 32 f.mch

def TlmFrame.wf (f : TlmFrame) : Bool :=
  laneNo f.lane && posNo f.pos && fits 6 f.flags && fits 16 f.epoch && fits 8 f.sseq && fits 8 f.coastN && fits 2 f.exec && fits 7 f.gdLat &&
    fits 7 f.gdAct && fits 41 f.sample && decide (f.m.length = 8) && f.m.all (fits 32) && fits 32 f.aux && fits 16 f.crcErr && fits 16 f.lateSch

def StartEnv.wf (e : StartEnv) : Bool :=
  decide (e.bands.length = 4) && decide (e.temps.length = 9) &&
    e.cells.all (fun c => cellNo c.1 && decide (c.2.1 < 64) && posNo c.2.2)

/-- A command that the device can meet. -/
def Instr.wf (i : Instr) : Bool :=
  match i with
  | .registerWrite p a _ => p.wf && fits 24 a
  | .samplingInstant caps capT => caps.all (·.wf) && fits 96 capT
  | .tlmDue => true
  | .helmRunComplete _ late => late.all (fun n => decide (n < 64))
  | .helmDeadline => true
  | .intervalStart => true
  | .incrNsWrite p _ => p.wf
  | .incrFrWrite p _ => p.wf
  | .restep p => p.wf
  | .stepGo p => p.wf
  | .sync m => m.wf
  | .followUp m => m.wf
  | .announce m => m.wf
  | .announceReceiptTimeout port => ptpPort port
  | .holdoverLimit => true
  | .pdelayReqSend port seq t => ptpPort port && fits 16 seq && fits 96 t
  | .pdelayReq port seq src => ptpPort port && fits 16 seq && fits 80 src
  | .pdelayResp m => m.wf
  | .pdelayRespFollowUp m => m.wf
  | .tsqPop p port => p.wf && ptpPort port
  | .rxqPop p port => p.wf && ptpPort port
  | .brtcWrite => true
  | .perWrite p _ => p.wf
  | .ppsoPulse => true
  | .ppsoPulseEnd => true
  | .ppsiEdge _ t => fits 96 t
  | .ppsiMiss => true
  | .timeLoRead p => p.wf
  | .ppsiLoRead p => p.wf
  | .gmIdLoRead p => p.wf
  | .lanePowerRequest p lane tx rx => p.wf && laneNo lane && fits 2 tx && fits 2 rx
  | .powerTransitionDone lane _ => laneNo lane
  | .dozeWake lane => laneNo lane
  | .dozeReturn lane => laneNo lane
  | .lqfUpdate lane h v => laneNo lane && fits 8 h && fits 10 v
  | .blockHeader lane hdr payload => laneNo lane && fits 2 hdr && fits 64 payload
  | .slip p lane => p.wf && laneNo lane
  | .buoySend _ launch => fits 96 launch
  | .mooringBuoy m _ => decide (m < 4)
  | .buoyMiss m => decide (m < 4)
  | .remapWrite p n _ => p.wf && decide (n < 4)
  | .testModeWrite p lane _ => p.wf && laneNo lane
  | .fiStart p lane _ => p.wf && laneNo lane
  | .fiStop p lane => p.wf && laneNo lane
  | .fiReorderRelease lane _ => laneNo lane
  | .invite lane => decide (lane < 64)
  | .hello f => f.wf
  | .leave lane pos bepoch reason => laneNo lane && posNo pos && fits 16 bepoch && fits 8 reason
  | .crossProbe cell => cellNo cell
  | .crossEcho lane pos id _ _ => laneNo lane && posNo pos && fits 8 id
  | .echoTimeout cell id => cellNo cell && fits 8 id
  | .boardingTimeout cell => cellNo cell
  | .refusedExpiry cell => cellNo cell
  | .tlm f => f.wf
  | .departTimeout cell => cellNo cell
  | .foreignFrame lane ftype => laneNo lane && fits 4 ftype
  | .txnRead p cell a => p.wf && cellNo cell && fits 16 a
  | .txnWrite p cell a _ => p.wf && cellNo cell && fits 16 a
  | .txnWritePosted p cell a _ => p.wf && cellNo cell && fits 16 a
  | .txnResponse lane pos tag a status _ => laneNo lane && posNo pos && fits 3 tag && fits 16 a && fits 8 status
  | .txnTimeout cell tag => cellNo cell && fits 3 tag
  | .txcPop p => p.wf
  | .shadowWrite p n i _ => p.wf && decide (n < 24) && decide (i < 7)
  | .commit p n _ => p.wf && decide (n < 24)
  | .manWrite p n _ => p.wf && decide (n < 24)
  | .disWrite p n _ => p.wf && decide (n < 24)
  | .lbOvrWrite p j _ => p.wf && decide (j < 16)
  | .lbEdge j _ => decide (j < 16)
  | .delayLineCalibration j _ => decide (j < 16)
  | .loopWrite p _ => p.wf
  | .banksw p _ => p.wf
  | .coefWrite p w _ => p.wf && fits 19 w
  | .runmaxRead p => p.wf
  | .preset p n _ => p.wf && decide (n < 32)
  | .outPRead p n => p.wf && decide (n < 32)
  | .bypass p c => p.wf && cellNo c
  | .admitCell p c => p.wf && cellNo c
  | .spare p c => p.wf && cellNo c
  | .admissionTimeout c => cellNo c
  | .mclkFault => true
  | .mckiFreqMeasure khz => fits 16 khz
  | .meteringSample caps => caps.all (·.wf)
  | .sarTick => true
  | .conversionEnd x code => decide (x < 5) && fits 16 code
  | .sarUrg p _ => p.wf
  | .calWindowEnd => true
  | .comparatorOutput n _ _ => decide (n < 24)
  | .settleEnd n => decide (n < 24)
  | .wcmThrWrite p n _ => p.wf && decide (n < 24)
  | .dacStep n => decide (n < 24)
  | .tripSourceActive ss => ss.all (fits 6)
  | .tripPin p _ => decide (p < 16)
  | .pinKnown p _ => decide (p < 16)
  | .bankMonitorLow => true
  | .trpClr p _ => p.wf
  | .rearm g => decide (g < 16)
  | .rearmCountReset g => decide (g < 16)
  | .islandPowerOn sw levels _ _ => fits 16 sw && fits 16 levels
  | .islandStart sw => fits 16 sw
  | .switchRead sw => fits 16 sw
  | .safetyInput i _ _ => decide (i < 8)
  | .discrepancyTimeout i => decide (i < 8)
  | .lorPress _ sw _ _ => fits 16 sw
  | .testPulse _ _ => true
  | .safeoffReadbackFault _ => true
  | .aocLoss => true
  | .islandSupplyLow => true
  | .faultCauseEnd _ => true
  | .sealBreak => true
  | .sealWatchPulse _ => true
  | .sealClr p => p.wf
  | .safDemand p => p.wf
  | .lossOfVoltage m ph => decide (m < 2) && decide (ph < 3)
  | .fallbackBoundary m => decide (m < 2)
  | .eclr p _ => p.wf
  | .eloRead p r => p.wf && decide (r < 32)
  | .rseqRead p m => p.wf && decide (m < 2)
  | .demandClose m => decide (m < 2)
  | .demHdrRead p m => p.wf && decide (m < 2)
  | .pulseStart q => decide (q < 4)
  | .pulseEnd q => decide (q < 4)
  | .meterSave _ => true
  | .linkDown port _ => ethPort port
  | .linkUp port _ => ethPort port
  | .supervisionSend => true
  | .supervisionFrame e => e.wf
  | .nodeForget mac => fits 48 mac
  | .entryForget mac seq => fits 48 mac && fits 16 seq
  | .svPublish n smp => decide (n < 8) && smp.all (fun cs => cs.all (·.wf))
  | .svFrame f => f.wf
  | .svTimeout m => decide (m < 32)
  | .subLatRead p m => p.wf && decide (m < 32)
  | .gooseScan => true
  | .gooseRepeat n => decide (n < 16)
  | .gooseMessage g => g.wf
  | .gooseTalExpiry m => decide (m < 128)
  | .pairFrame f => f.wf
  | .pairingCheck => true
  | .periodFrame f => f.wf
  | .mooringDeadline => true
  | .timeFrame _ _ _ => true
  | .syncFrame _ _ items => items.all (·.wf)
  | .resyncComplete => true
  | .handoverFrame _ => true
  | .startTimeout => true
  | .handover p => p.wf
  | .resync p => p.wf
  | .digLoRead p => p.wf
  | .por => true
  | .backupPor => true
  | .brownOut => true
  | .resetn => true
  | .watchdogWarn => true
  | .watchdogReset => true
  | .swrst p _ => p.wf
  | .blockReset p _ => p.wf
  | .cntclr p _ => p.wf
  | .pllLock n _ => decide (n < 4)
  | .pllFail n => decide (n < 4)
  | .pllLossOfLock n => decide (n < 4)
  | .refclkLoss => true
  | .quiescentRequest p => p.wf
  | .runRequest p => p.wf
  | .mainPowerLoss => true
  | .brtcTrim => true
  | .brtcLoRead p => p.wf
  | .startSequence e => e.wf
  | .startRetry e => e.wf
  | .failsClear => true
  | .relaunch p _ => p.wf
  | .pin p _ => p.wf
  | .svnburn p _ => p.wf
  | .keyRead p => p.wf
  | .keyProgram p => p.wf
  | .erase4k p => p.wf
  | .erase64k p => p.wf
  | .kcmdDone _ => true
  | .seqLoRead p => p.wf
  | .armSet p _ => p.wf
  | .armClr p _ => p.wf
  | .recordStore => true
  | .oldest p c => p.wf && decide (c < 2)
  | .newest p c => p.wf && decide (c < 2)
  | .next p c => p.wf && decide (c < 2)
  | .prev p c => p.wf && decide (c < 2)
  | .seek p c => p.wf && decide (c < 2)
  | .cursorCopyDone c => decide (c < 2)
  | .freeze p => p.wf
  | .unfreeze p => p.wf
  | .freezeTimeout => true
  | .logClr p _ => p.wf
  | .clearExecute => true
  | .nextLoRead p => p.wf
  | .oldLoRead p => p.wf
  | .scrub f => f.wf
  | .manifestLatch late => late.all (fits 6)
  | .manin => true
  | .mftTrig p => p.wf
  | .mftRearm p => p.wf
  | .archiveWriteDone _ => true
  | .aselWrite p _ => p.wf
  | .aselCopyDone => true
  | .tmLoRead p => p.wf
  | .tloRead p g => p.wf && decide (g < 16)
  | .captLoRead p => p.wf
  | .thermalMeasurement ts => decide (ts.length = 9)
  | .resume p => p.wf
  | .thmMaxRead p => p.wf
  | .mspiRead a rcrc => fits 24 a && fits 8 rcrc
  | .mspiWrite a _ rcrc => fits 24 a && fits 8 rcrc
  | .mspiCsnRise => true
  | .landingHello m kid cls _ cnonce => m.wf && fits 16 kid && fits 8 cls && bytesOk cnonce && decide (cnonce.length = 16)
  | .landingRequest m ops => m.wf && ops.all (fun o => fits 8 o.1 && fits 24 o.2.1 && fits 32 o.2.2)
  | .landingRead n => decide (n < 8)
  | .landingWrite n => decide (n < 8)
  | .landingClose m reason => m.wf && fits 8 reason
  | .landingKeepalive m => m.wf
  | .welcomeTimeout n => decide (n < 8)
  | .idleTimeout n => decide (n < 8)
  | .notify n => decide (n < 8)
  | .sealIntact => true
  | .crossComparisonFault => true
  | .filteredFrame port _ => ethPort port
  | .arpRequest port ip => ethPort port && fits 32 ip
  | .icmpEcho port ip dst data => ethPort port && fits 32 ip && fits 32 dst && bytesOk data
  | .msgBad port => ethPort port
  | .mspiReservedOp op => fits 8 op && decide (op ≠ 2) && decide (op ≠ 3)

end Sys2Proof
end

