-- ==== Sys2Proof/Safety.lean ====
section
/-! DEFINITION. The terms the statements use: what a command is said to do, when an access is granted, what a frame leaves
alone, and the invariants of a run. -/

namespace Sys2Proof.Machine

/-- Command `i` runs from `s` to a next state that meets `P`. -/
def Runs (i : Instr) (s : State) (P : State → Prop) : Prop := ∃ t, exec i s = .next t ∧ P t

/-- Outside the main-supply part nothing changes: the island, the backup domain, the fuses, the key and the queue. -/
def Outside (s t : State) : Prop :=
  t.isl = s.isl ∧ t.bak = s.bak ∧ t.otp = s.otp ∧ t.key = s.key ∧ t.pending = s.pending

/-- The parts of the main-supply part beside its register file. -/
inductive Part where
  | time | brtc | per | tbs | ptp1 | ptp2 | lanes | twl | smem | cbk | hlm | gwy | bls | mod | sar | wcm | mtr | net | svx | gse | lb
  | mor | saf | rxReady | log | mft | thm | mgt | crg | kcmd | mram | sent | freeCtr
  deriving DecidableEq, Repr

/-- A part is the same in both devices. -/
def Part.same (x : Part) (d e : Dev) : Prop :=
  match x with
  | .time => e.time = d.time | .brtc => e.brtc = d.brtc | .per => e.per = d.per | .tbs => e.tbs = d.tbs
  | .ptp1 => e.ptp1 = d.ptp1 | .ptp2 => e.ptp2 = d.ptp2 | .lanes => e.lanes = d.lanes | .twl => e.twl = d.twl
  | .smem => e.smem = d.smem | .cbk => e.cbk = d.cbk | .hlm => e.hlm = d.hlm | .gwy => e.gwy = d.gwy | .bls => e.bls = d.bls
  | .mod => e.mod = d.mod | .sar => e.sar = d.sar | .wcm => e.wcm = d.wcm | .mtr => e.mtr = d.mtr | .net => e.net = d.net
  | .svx => e.svx = d.svx | .gse => e.gse = d.gse | .lb => e.lb = d.lb | .mor => e.mor = d.mor | .saf => e.saf = d.saf
  | .rxReady => e.rxReady = d.rxReady | .log => e.log = d.log | .mft => e.mft = d.mft | .thm => e.thm = d.thm
  | .mgt => e.mgt = d.mgt | .crg => e.crg = d.crg | .kcmd => e.kcmd = d.kcmd | .mram => e.mram = d.mram
  | .sent => e.sent = d.sent | .freeCtr => e.freeCtr = d.freeCtr

/-- From `d` to `e` no register outside `R` reads otherwise, and no part outside `P` changes. -/
def Within (R : Nat → Prop) (P : List Part) (d e : Dev) : Prop :=
  (∀ a, ¬ R a → e.rd a = d.rd a) ∧ ∀ x, x ∉ P → x.same d e

/-- The registers at the addresses of `l`, and those of the blocks of `b`. -/
abbrev Regs (l b : List Nat) (a : Nat) : Prop := a ∈ l ∨ ∃ k ∈ b, blockOf a = some k

/-- The frame of a command of the main-supply part: but for the registers at `l`, those of the blocks `b` and the parts `P`,
everything is as before. State memory is part `smem` (R182). -/
def Frame (s t : State) (l b : List Nat) (P : List Part) : Prop := Within (Regs l b) P s.dev t.dev ∧ Outside s t

/-- A carried write is taken so late in a running period that it counts for the next one (R354). -/
def Dev.defers (d : Dev) (a : Nat) : Bool :=
  d.paired && carriedAddr a && !decide (a = addr_TRP_CLR) && d.per.running &&
    decide ((d.per.sk + d.per.len) * 5368709120 ≤ d.time + nsU 2000)

/-- A write of `v` at `a` by path `p` is taken to its block at once: main power, the class suffices, the domain runs, and in a pair
a carried register is written in the device that drives, in time for this period (R4 to R10, R354, R385, R456, R457). -/
def State.granted (s : State) (p : Path) (a : Nat) (v : Word) : Bool :=
  s.bak.main && decide (s.dev.judge (s.classOf p) a v = stDone) && !s.dev.stopped (domOf a) &&
    (!carriedAddr a || s.dev.drives && !s.dev.defers a)

/-- A read at `a` by path `p` is performed, in a domain that runs (R4, R385, R463). -/
def State.readable (s : State) (p : Path) (a : Nat) : Bool :=
  s.bak.main && decide (a % 4 = 0) && (blockOf a).isSome && decide (s.classOf p ≠ 0) && !s.dev.stopped (domOf a)

/-- The newest thing sent is the answer to an access of path `p`. -/
def Replied (t : State) (p : Path) (words : List Nat) : Prop := t.dev.sent.head? = some ⟨.reply, pathNo p, words⟩

/-- A write of `a` is answered as done (R462, R468). -/
def Taken (t : State) (p : Path) (a : Nat) : Prop := Replied t p [stDone, a]

/-- A read of `a` is answered with `v`. -/
def ReadOk (t : State) (p : Path) (a v : Nat) : Prop := Replied t p [stDone, a, v]

/-- A saturating counter of `f` after `n` more counts (R395). -/
def Dev.counted (d : Dev) (f : Fld) (n : Nat) : Nat := min (d.getF f + n) (2 ^ f.width - 1)

/-- The registers that any saturating counter may set beside itself (R395), and those a Logbook request may set (R434). -/
def satAddrs : List Nat := [addr_CRG_SAT, addr_CRG_EVT]
def logAddrs : List Nat := [addr_LOG_EVT, (LOG_QDROP).addr] ++ satAddrs

/-- Those a Manifest trigger may set (R444). -/
def mftAddrs : List Nat := [addr_MFT_EVT, (MFT_MISSED).addr] ++ satAddrs

/-- The registers at which a refused access is noted (R473). -/
def refAddrs : List Nat := [addr_MGT_EVT, (MGT_REFUSED).addr, (MGT_LASTREF_PATH).addr, (MGT_LASTREF_ADDR).addr] ++ satAddrs

/-- The registers that follow when the control period stops (R38, R179, R218). -/
def stopAddrs : List Nat :=
  [(TBS_PERNOW_PER).addr, (TBS_PERNEXT_PER).addr, (HLM_STAT_RUNNING).addr] ++
    (List.range 16).map (fun j => (CBK_LB_STAT_PIN_A j).addr) ++ (List.range 32).map fun n => (GWY_CH_STAT_EN n).addr

/-- The registers that show the timestamp queues of PTP port `i` + 1 (R64, R68). -/
def queueAddrs (i : Nat) : List Nat :=
  [addr_PTP_TSQ_ID i, addr_PTP_RXQ_ID i] ++ (List.range 3).map (addr_PTP_TSQ_NS i ·) ++ (List.range 3).map (addr_PTP_RXQ_IN i ·) ++
    (List.range 3).map (addr_PTP_RXQ_CAR i ·)

/-- A refusal of an access of `a` with status `st` is counted and shown (R10, R473). -/
abbrev Noted (s t : State) (p : Path) (a st : Nat) : Prop :=
  t.dev.bit MGT_EVT_REFUSED = true ∧ t.dev.getF MGT_REFUSED = s.dev.counted MGT_REFUSED 1 ∧
    t.dev.getF MGT_LASTREF_PATH = pathNo p % 16 ∧ t.dev.getF MGT_LASTREF_STATUS = st % 16 ∧
    t.dev.getF MGT_LASTREF_ADDR = a % 2 ^ 24

/-- An access of `a` is refused with status `st`: answered so, counted and shown (R10, R473). -/
def Turned (s t : State) (p : Path) (a st : Nat) : Prop := Replied t p [st, a] ∧ Noted s t p a st

/-- A record was requested: the write queue has grown by one record of source `blk` and code `code` that carries `items` after
the status word (R430, R431, R434). -/
def Recorded (d e : Dev) (blk code : Nat) (items : List Nat) : Prop :=
  ∃ r, e.log.queue = d.log.queue ++ [r] ∧ r.src = blk ∧ r.code = code ∧ (r.pay.drop 1).take items.length = items

/-- No fault injection runs and no received frame waits (R94, R95): frames go out and come in as they are. -/
def Dev.quiet (d : Dev) : Bool := (List.range 72).all (fun n => !d.bit (LNK_FI_CTRL_EN n)) && d.rxReady.isEmpty

/-- A frame that arrives on physical lane `p` passes as it is, on cell lane `m` (R83, R92, R95). -/
def Dev.hears (d : Dev) (p m : Nat) : Bool :=
  d.quiet && decide (p < 72) && !decide (64 ≤ p ∧ p < 68) && d.rxUp p && decide (d.logical p = some m)

/-- Cell `c` departs: it is EMPTY, no longer counted as boarded, flagged, counted, and a record is requested (R138). -/
def Departed (d e : Dev) (c : Nat) : Prop :=
  e.cellState c = cellEmpty ∧ (e.cell c).gone = true ∧ e.getF TWL_STAT_BOARDED = d.getF TWL_STAT_BOARDED - 1 ∧
    e.bit TWL_EVT_DEPARTED = true ∧ e.getF TWL_DEPARTS = d.counted TWL_DEPARTS 1 ∧
    (d.log.queue.length < 64 → ∃ r ∈ e.log.queue, r.src = 10 ∧ r.code = 0x1001)

/-- Boarding of cell `c` is refused for a reason: state, flag, count and record (R138, R140). -/
def BoardRefused (d e : Dev) (c reason : Nat) : Prop :=
  e.cellState c = cellRefused ∧ e.getF (TWL_CST_REASON c) = reason ∧ e.bit TWL_EVT_REFUSED = true ∧
    e.getF TWL_REFUSALS = d.counted TWL_REFUSALS 1 ∧ (d.log.queue.length < 64 → Recorded d e 10 0x1002 [])

/-- The registers a refused boarding sets beside the cell's (R138). -/
def boardAddrs (c : Nat) : List Nat := [addr_TWL_CST c, addr_TWL_EVT, addr_TWL_REFUSALS] ++ logAddrs

/-- The registers that show a cell's identity (R138). -/
def idAddrs (c : Nat) : List Nat := [addr_TWL_CELL_EPID c, addr_TWL_CELL_SER_LO c, addr_TWL_CELL_SER_HI c, addr_TWL_CELL_BEP c]

/-- The registers that show the transactions (R150). -/
def txnAddrs : List Nat := [addr_TWL_STAT, addr_TWL_TXC_ID, addr_TWL_TXC_ADDR, addr_TWL_TXC_DATA]

/-- Source `q` pulls group `g` when the sources `ss` become active: it is active or one of them, enabled and mapped to it (R263 to R266). -/
def Dev.pulls (d : Dev) (ss : List Nat) (g q : Nat) : Prop :=
  q < 64 ∧ (d.srcActive q ∨ (q ∈ ss ∧ q ≠ 61)) ∧ d.srcEnabled q ∧ d.srcGroups q / 2 ^ g % 2 = 1

/-- The trip matrix after the sources `ss` became active (R266 to R268): a group is latched if it was or a source pulls it; a new latch
records the lowest such source and the time, and counts; a trip event sends one HORN and forces its local outputs low. -/
def Tripped (s t : State) (ss : List Nat) : Prop :=
  (∀ g, g < 16 →
    (t.dev.isLatched g ↔ s.dev.isLatched g ∨ ∃ q, s.dev.pulls ss g q) ∧
    (s.dev.isLatched g → t.dev.getF (TRP_GRP_FIRST_SRC g) = s.dev.getF (TRP_GRP_FIRST_SRC g) ∧
      t.dev.getF (TRP_TRIPS g) = s.dev.getF (TRP_TRIPS g)) ∧
    (∀ q, s.dev.isLatched g = false → s.dev.pulls ss g q → (∀ r, r < q → ¬ s.dev.pulls ss g r) →
      t.dev.getF (TRP_GRP_FIRST_SRC g) = q ∧ t.dev.rd (addr_TRP_GRP_TLO g) = BitVec.ofNat 32 (s.dev.time / 2 ^ 32) ∧
        t.dev.rd (addr_TRP_GRP_THI g) = BitVec.ofNat 32 (s.dev.time / 2 ^ 64) ∧
        t.dev.getF (TRP_TRIPS g) = s.dev.counted (TRP_TRIPS g) 1 ∧ t.dev.bit TRP_EVT_TRIP)) ∧
  (t.dev.latched16 = s.dev.latched16 → t.dev.sent = s.dev.sent ∧ t.dev.rd addr_TWL_HORN = s.dev.rd addr_TWL_HORN) ∧
  (t.dev.latched16 ≠ s.dev.latched16 → t.dev.getF TWL_HORN_HSEQ = (s.dev.getF TWL_HORN_HSEQ + 1) % 256 ∧
    t.dev.getF TWL_HORN_MASK = t.dev.latched16 ∧
    ∀ j, j < 16 → groupsMeet t.dev.latched16 (s.dev.getF (TRP_LBG_GROUPS j)) →
      t.dev.getF (CBK_LB_STAT_PIN_A j) = 0 ∧ t.dev.getF (CBK_LB_STAT_PIN_B j) = 0)

/-- The backup domain, the fuses, the key and the queue stay: what a command of the safety island leaves alone. -/
def Apart (s t : State) : Prop := t.bak = s.bak ∧ t.otp = s.otp ∧ t.key = s.key ∧ t.pending = s.pending

/-- The island has entered LOCKOUT with a reason (R288, R289): outputs low, source 61 active with every group latched and every local
output low, flag, count, and a record of severity 7 where none was dropped. -/
def LockedOut (s t : State) (reason : Nat) : Prop :=
  t.safState = safLockout ∧ t.isl.getF SAF_STAT_REASON = reason ∧ t.isl.outA = false ∧ t.isl.outB = false ∧ t.dev.saf ∧
    t.isl.bit SAF_EVT_LOCKOUT ∧ t.isl.getF SAF_LOCKOUTS = min (s.isl.getF SAF_LOCKOUTS + 1) (2 ^ 32 - 1) ∧
    (s.dev.saf = false → t.dev.latched16 = 0xFFFF ∧
      ∀ j, j < 16 → t.dev.getF (CBK_LB_STAT_PIN_A j) = 0 ∧ t.dev.getF (CBK_LB_STAT_PIN_B j) = 0) ∧
    (t.dev.log.queue.length < 64 →
      ∃ r ∈ t.dev.log.queue, r.src = 19 ∧ r.code = 0x1000 ∧ r.sev = 7 ∧ (r.pay.drop 1).take 1 = [reason])

/-- The island runs: both outputs high, source 61 inactive (R288). -/
def Running (t : State) : Prop :=
  t.safState = safRun ∧ t.isl.outA ∧ t.isl.outB ∧ t.dev.saf = false ∧ t.isl.bit SAF_EVT_RUN

/-- A demand takes effect: the island runs and no cause of R291 holds its outputs low. -/
def State.safRuns (s : State) : Prop := s.safClocked ∧ s.safState = safRun ∧ s.isl.lost = 0

/-- An Ethernet frame without a redundancy trailer arrives on P1 or P2 (R325). -/
def Dev.netIn (d : Dev) (e : EthRx) : Prop := (e.port = 1 ∨ e.port = 2) ∧ d.portOn e.port ∧ e.rct = none

/-- A GOOSE message arrives that carries the identity of subscription `m` alone (R343). -/
def Dev.gooseTo (d : Dev) (g : GooseMsg) (m : Nat) : Prop :=
  d.netIn g.eth ∧ m < 128 ∧ d.bit (GSE_SUB_CFG_EN m) ∧ d.getF (GSE_SUB_ID m) = g.ident ∧ d.getF (GSE_SUB_HASH m) = g.hash ∧
    ∀ k, k < 128 → k ≠ m → d.bit (GSE_SUB_CFG_EN k) = false ∨ d.getF (GSE_SUB_ID k) % 65536 ≠ g.ident % 65536

/-- A sampled-value frame arrives that carries address, APPID and identity of subscription `m` alone (R332). -/
def Dev.svTo (d : Dev) (f : SvFrame) (m : Nat) : Prop :=
  d.netIn f.eth ∧ m < 32 ∧ d.bit (SVX_SUB_CFG_EN m) ∧ d.getF (SVX_SUB_ID m) = f.ident ∧
    ∀ k, k < 32 → k ≠ m → d.bit (SVX_SUB_CFG_EN k) = false ∨ d.getF (SVX_SUB_ID k) % 65536 ≠ f.ident % 65536

/-- The frame is acceptable to the subscription in every other respect (R332). -/
def Dev.svFits (d : Dev) (f : SvFrame) (m : Nat) : Prop :=
  d.getF (SVX_SUB_HASH m) = f.hash ∧ d.getF (SVX_SUB_CONF m) = f.confRev ∧ f.test = false ∧ f.sim = false ∧ f.asdus ≠ [] ∧
    (∀ a ∈ f.asdus, a.1 < svRateOf (d.bit (SVX_SUB_CFG_RATE m)) ∧ d.svNeeds m ≤ a.2.length) ∧ d.bit (SVX_SUB_CFG_VCHK m) = false

/-- Registers that a reset of the device keeps (R394): the backup domain's and the copies in MRAM, and through a system reset the CRG
counters. -/
def keptBy (sys : Bool) (a : Nat) : Bool := keptAlways a || (sys && keptSys a)

/-- Registers of which a reset keeps a field, or that it sets (R387, R394). -/
def resetSets : List Nat := [addr_BOT_STAT, addr_CRG_STAT, addr_MGT_STAT, addr_THM_STAT, addr_CRG_RSTCAUSE] ++ satAddrs

/-- The main-supply part after a reset of the device (R37, R38, R276, R387, R394): every part but time, MRAM and what the outside gives
is as right after POR, every register not kept has its reset value, every trip group is latched, and device time comes from the
backup counter; `sys`: a system reset. -/
def ResetDone (s t : State) (sys : Bool) : Prop :=
  (∀ x : Part, x ∉ [Part.time, .brtc, .tbs, .net, .wcm, .saf, .crg, .mram, .sent, .freeCtr] → x.same State.reset.dev t.dev) ∧
    (∀ a, keptBy sys a = false → a ∉ resetSets → blockOf a ≠ some 18 → t.dev.rd a = regReset a) ∧
    t.dev.latched16 = 0xFFFF ∧ t.dev.time = s.dev.brtc / 32768 * (10 ^ 9 * 2 ^ 32) ∧ t.dev.brtc = s.dev.brtc ∧ t.dev.mram = s.dev.mram

/-! ### Starting -/

/-- PLL `n` is locked at the end of step 1 of a start: it was, or it finds a band (R379, R412). -/
def Dev.willLock (d : Dev) (e : StartEnv) (n : Nat) : Prop := d.bit (CRG_PLL_LOCK n) ∨ (e.bands.getD n none).isSome

/-- BOT_KIDS (R418). -/
def Dev.kids (d : Dev) : Nat := (d.rd addr_BOT_KIDS_LO).toNat + (d.rd addr_BOT_KIDS_HI).toNat * 2 ^ 32

/-- A start that has passed step 3 of R412, and one whose candidates are about to be tried (step 6). -/
def State.tested (s : State) (e : StartEnv) : State :=
  { s with dev := ((({ s.dev with crg := { s.dev.crg with retry := false } }).startPlls e).readOtp s.otp).startTests e,
           bak := { s.bak with startT := s.dev.brtc } }
def State.tried (s : State) (e : StartEnv) : State :=
  let r := s.tested e
  { r with dev := r.dev.keyRead e (keyIdent s.key) r.headers }

/-- A failed start (R415, R416, R419): counted and shown; below three the device waits in reset for its retry, from three on it enters
Slipway mode with the access copy and the demand 0x0B. -/
def StartFailed (s t : State) (e : StartEnv) (code detail : Nat) : Prop :=
  let n := min 15 (s.dev.getF BOT_FAILS_COUNT + 1)
  t.dev.getF BOT_FAILS_COUNT = n ∧ t.dev.mram.fails = n ∧ t.otp = s.otp ∧ t.key = s.key ∧ t.pending = s.pending ∧
    (n < 3 ∨ e.test = [] → t.dev.getF BOT_FAILINFO_CODE = code % 256 ∧ t.dev.getF BOT_FAILINFO_DETAIL = detail % 2 ^ 24) ∧
    (n < 3 → t.dev.crg.retry ∧ t.dev.getF BOT_STAT_STAGE = 0 ∧ t.dev.getF CRG_STAT_PSTATE = 0 ∧
      t.dev.rd addr_CRG_RSTCAUSE = s.dev.rd addr_CRG_RSTCAUSE ∧ t.isl = s.isl) ∧
    (3 ≤ n → t.dev.getF BOT_STAT_STAGE = 2 ∧ t.dev.bit BOT_STAT_SLIPWAY ∧ t.dev.getF BOT_SLIPCODE_CODE = code % 256 ∧
      t.dev.rd addr_BOT_KIDS_LO = t.dev.rd addr_BOT_KID_LO ∧ t.dev.rd addr_BOT_KIDS_HI = t.dev.rd addr_BOT_KID_HI ∧
      t.dev.bit CRG_RSTCAUSE_SLIPWAY ∧ t.dev.mgt.acc = s.dev.mram.access ∧ t.dev.mgt.netif = s.dev.mram.netif ∧
      (s.safRuns → LockedOut s t 0x0B))

/-- A start completes (R403, R411, R412, R414) with the image of a slot: `x` is what its records leave in the blocks, `h` its header. -/
def StartDone (s t : State) (x : Applied) (fw slot : Nat) (h : List Nat) (fallback : Bool) : Prop :=
  t.dev.getF BOT_STAT_STAGE = 1 ∧ t.dev.getF BOT_STAT_SLOT = slot ∧ t.dev.bit BOT_STAT_FALLBACK = fallback ∧
    t.dev.rd addr_BOT_SEQ_LO = BitVec.ofNat 32 (hdrSeq h) ∧ t.dev.rd addr_BOT_SEQ_HI = BitVec.ofNat 32 (hdrSeq h / 2 ^ 32) ∧
    t.dev.getF BOT_SVN_IMAGE = hdrSvn h % 64 ∧ t.dev.rd addr_BOT_FWVER = BitVec.ofNat 32 fw ∧
    t.dev.getF CRG_STAT_PSTATE = (if 2 ≤ x.dev.thmState then 2 else 1) ∧ t.dev.crg.retry = false ∧
    t.dev.mgt.acc = x.acc ∧ t.dev.mgt.netif = x.netif ∧ t.dev.mram.access = x.acc ∧ t.dev.mram.netif = x.netif ∧
    t.dev.mor.ident = leNat (hdrPairId h) ∧ t.isl = s.isl.applyImage x.isl ∧ t.key = s.key ∧ t.pending = s.pending ∧
    t.otp = (if s.otp.ownKh = [] then { s.otp with ownKh := sha384 (hdrOwnKey h) } else s.otp) ∧
    t.bak = { s.bak with startT := s.dev.brtc } ∧
    (t.dev.log.queue.length < 64 → ∃ r ∈ t.dev.log.queue, r.src = 2 ∧ r.code = 0x3002)

/-- Arm `a` as it will stand once the change that waits has taken effect (R425). -/
def Dev.armWanted (d : Dev) (a : Nat) : Bool := (Nat.xor (d.getF BOT_ARM_EN) (d.getF BOT_ARM_PEND)).testBit a

/-- The byte of the key at an address. -/
def State.keyByte (s : State) (a : Nat) : Byte := spGet erased s.key a

/-! ### Logbook and Manifest -/

/-- What the slot `n` of the record area holds (R435). -/
def Mram.slot (m : Mram) (n : Nat) : Option LogRec := spGet none m.slots n

/-- The end of a freeze (R439): FREEZE is 0, the buffer empty, and the records of `l` are stored where slots are free. -/
def Unfrozen (s t : State) (l : List LogRec) : Prop :=
  t.dev.bit LOG_STAT_FROZEN = false ∧ t.dev.bit LOG_CTRL_FREEZE = false ∧ t.dev.log.fbuf = [] ∧
    (s.dev.mram.slots.length + l.length ≤ 65536 → ∀ r ∈ l, r ∈ t.dev.mram.stored) ∧
    Frame s t ([addr_LOG_CTRL, addr_LOG_STAT, addr_LOG_EVT, addr_LOG_OVERWRITES, addr_LOG_DROPPED] ++ satAddrs) [] [.log, .mram, .sent]

/-- A Manifest trigger of source `src` (R442 to R444): nothing where it is not selected; else it joins those registered in the same
cycle for the same instant, or is registered when none is pending and the device is armed, or is missed. -/
def Triggered (s t : State) (src det tm : Nat) : Prop :=
  let missed := t.dev.bit MFT_EVT_MISSED ∧ t.dev.getF MFT_MISSED = s.dev.counted MFT_MISSED 1 ∧ t.dev.mft = s.dev.mft
  let on := s.dev.getF MFT_CFG_SRC_EN / 2 ^ src % 2 = 1
  (¬ on → t.dev.mft = s.dev.mft ∧ t.dev.getF MFT_MISSED = s.dev.getF MFT_MISSED) ∧
    (on → s.dev.mft.pend = none →
      (s.dev.bit MFT_STAT_ARMED → t.dev.mft = { s.dev.mft with pend := some ⟨tm, s.dev.time, 2 ^ src, det, src⟩ }) ∧
      (s.dev.bit MFT_STAT_ARMED = false → missed)) ∧
    (∀ q, on → s.dev.mft.pend = some q →
      (q.reg = s.dev.time → q.tm = tm → t.dev.mft = { s.dev.mft with pend := some { q with
        src := q.src ||| 2 ^ src, det := if src < q.detSrc then det else q.det, detSrc := min src q.detSrc } }) ∧
      (¬ (q.reg = s.dev.time ∧ q.tm = tm) → missed))

/-! ### Management access -/

/-- Registers whose read latches others for the path (R460): the command, its register, what it shows, and what each latched register
shows to the path from then on. `n` is the instance, where there are several. -/
def Dev.latchRows (d : Dev) (p : Path) (n : Nat) : List (Instr × Nat × Word × List (Nat × Word)) :=
  let w := fun x : Nat => BitVec.ofNat 32 x
  let own := fun l : List Nat => l.map fun a => (a, d.rd a)
  [(.timeLoRead p, addr_TBS_TIME_LO, w (d.time / 2 ^ 32), [(addr_TBS_TIME_HI, w (d.time / 2 ^ 64)), (addr_TBS_TIME_FR, w d.time)]),
    (.ppsiLoRead p, addr_TBS_PPSI_LO, d.rd addr_TBS_PPSI_LO, own [addr_TBS_PPSI_HI, addr_TBS_PPSI_FR]),
    (.gmIdLoRead p, addr_PTP_GM_ID_LO, d.rd addr_PTP_GM_ID_LO, own [addr_PTP_GM_ID_HI]),
    (.captLoRead p, addr_MOD_CAPT_LO, d.rd addr_MOD_CAPT_LO, own [addr_MOD_CAPT_HI]),
    (.digLoRead p, addr_MOR_DIG_LO, d.rd addr_MOR_DIG_LO, own [addr_MOR_DIG_HI, addr_MOR_PDIG_LO, addr_MOR_PDIG_HI, addr_MOR_DIG_K]),
    (.brtcLoRead p, addr_CRG_BRTC_LO, w (d.brtc / 32768),
      [(addr_CRG_BRTC_HI, w (d.brtc / 32768 / 2 ^ 32)), (addr_CRG_BRTC_SUB, w (d.brtc % 32768))]),
    (.seqLoRead p, addr_BOT_SEQ_LO, d.rd addr_BOT_SEQ_LO, own [addr_BOT_SEQ_HI]),
    (.nextLoRead p, addr_LOG_NEXT_LO, w d.logNext, [(addr_LOG_NEXT_HI, w (d.logNext / 2 ^ 32))]),
    (.oldLoRead p, addr_LOG_OLD_LO, w d.logOld, [(addr_LOG_OLD_HI, w (d.logOld / 2 ^ 32))]),
    (.tmLoRead p, addr_MFT_TM_LO, d.rd addr_MFT_TM_LO, own [addr_MFT_TM_HI, addr_MFT_TM_FR])] ++
  (if n < 32 then [(.outPRead p n, addr_GWY_CH_OUT_P n, d.rd (addr_GWY_CH_OUT_P n), own [addr_GWY_CH_OUT_V n, addr_GWY_CH_OUT_A n]),
    (.eloRead p n, addr_MTR_E_ELO n, d.rd (addr_MTR_E_ELO n), own [addr_MTR_E_EHI n])] else []) ++
  (if n < 16 then [(.tloRead p n, addr_TRP_GRP_TLO n, d.rd (addr_TRP_GRP_TLO n), own [addr_TRP_GRP_THI n])] else []) ++
  (if n < 2 then [(.rseqRead p n, addr_MTR_PT_RSEQ n, d.rd (addr_MTR_PT_RSEQ n),
      own ((List.range 24).map fun k => addr_MTR_RES0 n 0 + 32 * (k / 6) + 4 * (k % 6))),
    (.demHdrRead p n, addr_MTR_DEM_HDR n, d.rd (addr_MTR_DEM_HDR n), own ((List.range 6).map fun k => addr_MTR_DEM_HDR n + 4 + 4 * k))]
    else [])

/-- Read-clear registers (R8): the command, its register, and the parts that follow. -/
def clearRows (p : Path) (n : Nat) : List (Instr × Nat × List Part) :=
  [(.runmaxRead p, addr_HLM_RUNMAX, [.sent]), (.thmMaxRead p, addr_THM_MAX, [.thm, .sent])] ++
    if n < 32 then [(.subLatRead p n, addr_SVX_SUB_LAT n, [.sent])] else []

/-- An address whose read has no effect and shows no latched copy. -/
def readsPlain (a : Nat) : Bool := (loEff 0 a).isNone && (arrEff 0 a).isNone && !latchedReg a

/-- Registers that a write changes only as their field types say (R6): those of the blocks whose registers command nothing, and every
block's xxx_EVT and xxx_EVT_EN but the island's. -/
def writesPlain (a : Nat) : Prop :=
  (∃ b ∈ [0, 6, 7, 8, 15], blockOf a = some b) ∨ ∃ b, b < 24 ∧ b ≠ 19 ∧ (a = statAddr b + 8 ∨ a = statAddr b + 12)

/-- Register commands and the write they are (R507). -/
def writeRows (p : Path) (v : Word) : List (Instr × Nat × Word) :=
  [(.incrNsWrite p v, addr_TBS_INCR_NS, v), (.incrFrWrite p v, addr_TBS_INCR_FR, v), (.restep p, addr_TBS_STEP, 2),
    (.stepGo p, addr_TBS_STEP, 1), (.perWrite p v, addr_TBS_PER, v), (.loopWrite p v, addr_HLM_LOOP, v),
    (.trpClr p v, addr_TRP_CLR, v), (.sarUrg p v, addr_SAR_URG, v), (.eclr p v, addr_MTR_ECLR, v), (.swrst p v, addr_CRG_SWRST, v),
    (.quiescentRequest p, addr_CRG_PWR, 1), (.runRequest p, addr_CRG_PWR, 0), (.relaunch p v, addr_BOT_CTRL, v), (.pin p v, addr_BOT_CTRL, v),
    (.svnburn p v, addr_BOT_SVNBURN, v), (.keyRead p, addr_BOT_KCMD, 1), (.keyProgram p, addr_BOT_KCMD, 2), (.erase4k p, addr_BOT_KCMD, 3),
    (.erase64k p, addr_BOT_KCMD, 4), (.armSet p v, addr_BOT_ARM_SET, v), (.armClr p v, addr_BOT_ARM_CLR, v), (.logClr p v, addr_LOG_CLR, v),
    (.mftTrig p, addr_MFT_CTRL, 2), (.mftRearm p, addr_MFT_CTRL, 1), (.aselWrite p v, addr_MFT_ASEL, v), (.txcPop p, addr_TWL_TXC_POP, 1)]

/-- What leaves when the device sends a datagram by a port that carries IP (R325): on the pair, a copy each on P1 and P2. -/
def Dev.ipOut (d : Dev) (k : OutKind) (port : Nat) (ws : List Nat) : List Out :=
  if port = 1 then
    (if d.portOn 2 then [⟨k, 2, d.net.seq :: ws⟩] else []) ++ if d.portOn 1 then [⟨k, 1, d.net.seq :: ws⟩] else []
  else if d.portOn 3 then [⟨k, 3, ws⟩] else []

/-- The registers a datagram sent counts in. -/
def ipAddrs : List Nat := [addr_NET_TX 0, addr_NET_TX 1, addr_NET_TX 2] ++ satAddrs

/-- What leaves when the device sends the client of slot `n` a message (R464, R467). -/
def Dev.toClient (d : Dev) (n type : Nat) (body : List Nat) : List Out :=
  d.ipOut .landing (d.getF (MGT_SESS_PORT n)) (d.getF (MGT_SESS_IP n) :: d.getF (MGT_SESS_UDP n) ::
    landMsg (d.sess n).sk type (d.getF (MGT_SESS_SID n)) (((d.sess n).txSeq + 1) % 2 ^ 32) body)

/-- Slot `n` holds a session whose client sent `m`: identifier, source and TAG (R465, R466). -/
def Dev.speaks (d : Dev) (m : LandMsg) (type : Nat) (body : List Nat) (n : Nat) : Prop :=
  d.sessState n ≠ 0 ∧ d.getF (MGT_SESS_SID n) = m.sid ∧ d.getF (MGT_SESS_IP n) = m.ip ∧ d.getF (MGT_SESS_UDP n) = m.udp ∧
    d.getF (MGT_SESS_PORT n) = m.port ∧ m.tag = hmacSha256 (d.sess n).sk (landHead type m.sid m.seq body)

/-- Session identifiers of open slots differ (R466). -/
def Dev.sidsDiffer (d : Dev) : Prop :=
  ∀ n k, n < 8 → k < 8 → n ≠ k → d.sessState n ≠ 0 → d.sessState k ≠ 0 → d.getF (MGT_SESS_SID n) ≠ d.getF (MGT_SESS_SID k)

/-- Fault injection holds no received frame (R95). -/
def Dev.holdsNone (d : Dev) : Prop := d.rxReady = [] ∧ ∀ l, l < 72 → (d.lane l).heldRx = none

/-- Slot `n` is freed, `out` having been sent (R97, R460, R466, R469); where it held the Maintainer class, the fault injection it
started stops. -/
def SessFreed (s t : State) (n : Nat) (out : List Out) : Prop :=
  s.dev.getF (MGT_SESS_CLASS n) ≠ 3 ∨ s.dev.holdsNone →
    t.dev.sessState n = 0 ∧ t.dev.rd (addr_MGT_SESS_SID n) = 0 ∧ t.dev.rd (addr_MGT_SESS_IP n) = 0 ∧ t.dev.rd (addr_MGT_SESS_UDP n) = 0 ∧
    t.dev.sess n = {} ∧ (∀ h, h < 2 ^ 24 → t.dev.latched (n + 1) h = 0) ∧
    (∀ k, k < 8 → k ≠ n → t.dev.sess k = s.dev.sess k ∧ t.dev.rd (addr_MGT_SESS k) = s.dev.rd (addr_MGT_SESS k)) ∧
    t.dev.getF MGT_STAT_SESSIONS = ((List.range 8).filter fun k => decide (t.dev.sessState k ≠ 0)).length ∧ Outside s t ∧
    out ++ s.dev.sent <:+ t.dev.sent ∧
    (s.dev.getF (MGT_SESS_CLASS n) ≠ 3 → t.dev.sent = out ++ s.dev.sent ∧
      Frame s t ([addr_MGT_SESS n, addr_MGT_SESS_IP n, addr_MGT_SESS_UDP n, addr_MGT_SESS_SID n, addr_MGT_STAT] ++ ipAddrs) []
        [.net, .mgt, .sent]) ∧
    (s.dev.getF (MGT_SESS_CLASS n) = 3 → ∀ l, l < 72 → (s.dev.lane l).fiPath = n + 1 → t.dev.bit (LNK_FI_CTRL_EN l) = false)

/-! ### Invariant -/

/-- The key's contents in canonical form. -/
def State.keyWf (s : State) : Bool := Memory.wf s.key

/-- The invariant of every step: the key, the fused floor, and the safety outputs, which are high only in RUN (R288, R289, R291). -/
def State.Inv (s : State) : Prop :=
  s.keyWf ∧ s.otp.svnFloor < 64 ∧ (s.isl.outA ∨ s.isl.outB → s.bak.main ∧ s.safState = safRun ∧ s.isl.lost = 0)

end Sys2Proof.Machine
end

