-- ==== Sys2Proof/Certificates/Slice0/Obligations.lean ====
section
/-! DEFINITION. The statements for the provers. Each docstring names the rules of spec/ it formalises; where a clause rests on a
choice of the model, the docstring names the log entry. `Runs i s P` says that command `i` completes from `s` in a next state that
meets `P`; `Frame s t l b P` says what it leaves alone. -/

open Sys2Proof Sys2Proof.Machine

/-- R34, R35, R61: TBS_INCR_NS is staged, TBS_INCR_FR transfers both, limited; under the internal servo both are refused. -/
def Obligations.IncrementWrites : Prop :=
  ∀ (s : State) (p : Sys2Proof.Path) (v : Word),
    (s.granted p addr_TBS_INCR_NS v → s.dev.extServo →
      Runs (.incrNsWrite p v) s fun t => Taken t p addr_TBS_INCR_NS ∧ t.dev.getF TBS_INCR_NS_NS = v.toNat % 16 ∧
        Frame s t [addr_TBS_INCR_NS] [] [.sent]) ∧
    (s.granted p addr_TBS_INCR_FR v → s.dev.extServo →
      Runs (.incrFrWrite p v) s fun t =>
        let asked := s.dev.getF TBS_INCR_NS_NS * 2 ^ 32 + v.toNat
        let w := incrLimit (s.dev.getF TBS_INCR_LIM_PPM) asked
        Taken t p addr_TBS_INCR_FR ∧ t.dev.tbs = { s.dev.tbs with incrNew := some (w, 2) } ∧
          t.dev.rd addr_TBS_INCR_FR = BitVec.ofNat 32 w ∧ t.dev.getF TBS_INCR_NS_NS = w / 2 ^ 32 % 16 ∧
          (w ≠ asked → t.dev.bit TBS_EVT_INCR_CLAMP ∧ t.dev.getF TBS_CLAMPS = s.dev.counted TBS_CLAMPS 1) ∧
          Frame s t ([addr_TBS_INCR_FR, addr_TBS_INCR_NS] ++
            if w = asked then [] else [addr_TBS_EVT, addr_TBS_CLAMPS] ++ satAddrs) [] [.tbs, .sent]) ∧
    (s.granted p addr_TBS_INCR_NS v → s.dev.extServo = false →
      Runs (.incrNsWrite p v) s fun t => Turned s t p addr_TBS_INCR_NS stR10 ∧ Frame s t refAddrs [] [.sent]) ∧
    (s.granted p addr_TBS_INCR_FR v → s.dev.extServo = false →
      Runs (.incrFrWrite p v) s fun t => Turned s t p addr_TBS_INCR_FR stR10 ∧ Frame s t refAddrs [] [.sent])

/-- R35: an increment that differs from nominal by more than TBS_INCR_LIM (in parts per million of it) is replaced by the nearest
permitted one, flagged and counted; so are a written one and one of the internal servo. -/
def Obligations.NearestIncrement : Prop :=
  let permitted := fun (d : Dev) (x : Nat) => ((x : Int) - incrNominal).natAbs * 1000000 ≤ incrNominal * d.getF TBS_INCR_LIM_PPM
  let limited := fun (d e : Dev) (asked : Nat) => ∃ y, e.tbs.incrNew = some (y, 2) ∧ permitted d y ∧
    (∀ x, permitted d x → ((y : Int) - asked).natAbs ≤ ((x : Int) - asked).natAbs) ∧
    (permitted d asked → y = asked ∧ e.bit TBS_EVT_INCR_CLAMP = d.bit TBS_EVT_INCR_CLAMP ∧ e.getF TBS_CLAMPS = d.getF TBS_CLAMPS) ∧
    (¬ permitted d asked → e.bit TBS_EVT_INCR_CLAMP ∧ e.getF TBS_CLAMPS = d.counted TBS_CLAMPS 1)
  (∀ (s : State) (p : Sys2Proof.Path) (v : Word), s.granted p addr_TBS_INCR_FR v → s.dev.extServo →
    Runs (.incrFrWrite p v) s fun t => limited s.dev t.dev (s.dev.getF TBS_INCR_NS_NS * 2 ^ 32 + v.toNat)) ∧
  (∀ d : Dev, ∃ asked, limited d (d.lockedMeasure false) asked)

/-- R33, R34: on an empty queue a TBC cycle passes (log entry 5: the model's choice); each adds the increment in force, and a
transferred one is in force from the second cycle on. -/
def Obligations.TbcCycle : Prop :=
  ∀ s : State, s.pending = [] → s.bak.main → s.dev.bit (CRG_PLL_LOCK 0) →
    (s.dev.tbs.incrNew = none →
      ∃ t, step s = .next t ∧ t.dev.time = (s.dev.time + s.dev.tbs.incr) % 2 ^ 96 ∧ t.dev.tbs.incr = s.dev.tbs.incr ∧
        Frame s t [] [] [.time, .tbs, .brtc]) ∧
    (∀ w, s.dev.tbs.incrNew = some (w, 2) →
      ∃ t u, step s = .next t ∧ step t = .next u ∧ t.dev.time = (s.dev.time + s.dev.tbs.incr) % 2 ^ 96 ∧
        u.dev.time = (t.dev.time + w) % 2 ^ 96 ∧ u.dev.tbs.incr = w ∧ u.dev.tbs.incrNew = none)

/-- R13, R37, R38: RESTEP with no arm enabled goes from LOCKED, HOLDOVER or FREE to ACQUIRE and stops the control period; in ACQUIRE the
measurements are discarded; in UNSET it is accepted without effect; while an arm is enabled it is refused.
R61, R41: STEP_GO under the external servo in ACQUIRE loads device time with T + Δ rounded up to the next whole 1.25 ns, sets
TBS_PHASE.N within half a phase step and enters LOCKED; otherwise it is refused. -/
def Obligations.StepCommands : Prop :=
  (∀ (s : State) (p : Sys2Proof.Path), s.granted p addr_TBS_STEP 2 →
    (s.dev.noArm → (s.dev.tbsState = tbsLocked ∨ s.dev.tbsState = tbsHoldover ∨ s.dev.tbsState = tbsFree) →
      Runs (.restep p) s fun t => Taken t p addr_TBS_STEP ∧ t.dev.tbsState = tbsAcquire ∧ t.dev.getF TBS_STAT_STEPPED = 0 ∧
        t.dev.getF TBS_STAT_SYNC_Q = 0 ∧ t.dev.per = {} ∧ t.dev.tbs.meas = [] ∧ t.dev.tbs.incr = incrNominal ∧
        t.dev.getF TBS_PERNOW_PER = 0 ∧ t.dev.getF TBS_PERNEXT_PEND = 0 ∧
        (∀ j, j < 16 → t.dev.getF (CBK_LB_STAT_PIN_A j) = 0 ∧ t.dev.getF (CBK_LB_STAT_PIN_B j) = 0) ∧
        (∀ n, n < 32 → t.dev.getF (GWY_CH_STAT_EN n) = 0) ∧
        Frame s t ([addr_TBS_INCR_NS, addr_TBS_INCR_FR, addr_TBS_STAT] ++ stopAddrs) [] [.per, .tbs, .cbk, .lb, .mtr, .sent]) ∧
    (s.dev.noArm → s.dev.tbsState = tbsAcquire →
      Runs (.restep p) s fun t => Taken t p addr_TBS_STEP ∧ t.dev.tbs = { s.dev.tbs with meas := [] } ∧
        Frame s t [] [] [.tbs, .sent]) ∧
    (s.dev.noArm → s.dev.tbsState = tbsUnset →
      Runs (.restep p) s fun t => Taken t p addr_TBS_STEP ∧ Frame s t [] [] [.sent]) ∧
    (s.dev.noArm = false →
      Runs (.restep p) s fun t => Turned s t p addr_TBS_STEP stR10 ∧ t.dev.bit TBS_EVT_STEP_REFUSED ∧
        t.dev.getF TBS_STEP_REFUSED = s.dev.counted TBS_STEP_REFUSED 1 ∧
        Frame s t ([addr_TBS_EVT, addr_TBS_STEP_REFUSED] ++ refAddrs) [] [.sent])) ∧
  (∀ (s : State) (p : Sys2Proof.Path), s.granted p addr_TBS_STEP 1 →
    (s.dev.extServo → s.dev.tbsState = tbsAcquire →
      Runs (.stepGo p) s fun t =>
        let v := ofSigned 96 ((s.dev.time : Int) + s.dev.stepOfs)
        let g := (v + incrNominal - 1) / incrNominal * incrNominal
        Taken t p addr_TBS_STEP ∧ t.dev.time = g % 2 ^ 96 ∧ v ≤ g ∧ g < v + incrNominal ∧ t.dev.getF TBS_PHASE_N ≤ 63 ∧
          t.dev.tbsState = tbsLocked ∧ t.dev.getF TBS_STAT_SYNC_Q = 2 ∧ t.dev.bit TBS_STAT_STEPPED ∧
          t.dev.brtc = brtcOfTime (g % 2 ^ 96) ∧ t.dev.bit TBS_EVT_LOCKED ∧ Outside s t) ∧
    ((s.dev.extServo && decide (s.dev.tbsState = tbsAcquire)) = false →
      Runs (.stepGo p) s fun t => Turned s t p addr_TBS_STEP stR10 ∧ t.dev.bit TBS_EVT_STEP_REFUSED ∧
        t.dev.getF TBS_STEP_REFUSED = s.dev.counted TBS_STEP_REFUSED 1 ∧
        Frame s t ([addr_TBS_EVT, addr_TBS_STEP_REFUSED] ++ refAddrs) [] [.sent]))

/-- R42: each step, by the servo or by command on the entry into LOCKED or by the entry into FREE (R40), requests a
Logbook record that carries Δ, V_g and n, sets TBS_EVT.STEP_DONE and counts in TBS_STEPS. -/
def Obligations.StepRecorded : Prop :=
  let noted := fun (d e : Dev) (delta : Int) => e.bit TBS_EVT_STEP_DONE ∧ e.getF TBS_STEPS = d.counted TBS_STEPS 1 ∧
    (d.log.queue.length < 64 → ∃ pre r post, e.log.queue = d.log.queue ++ pre ++ r :: post ∧ r.src = 4 ∧
      r.code = 0x1000 ∧ (r.pay.drop 1).take 7 = timeWords (ofSigned 96 delta) ++ timeWords e.time ++ [e.getF TBS_PHASE_N])
  (∀ (d : Dev) (delta : Int), noted d (d.stepBy delta) delta) ∧
  (∀ d : Dev, d.tbsState = tbsUnset → d.bit TBS_CTRL_MODE → ∃ delta, noted d d.enterFree delta)

/-- R39, R48, R54, R55: the timebase's timed events and 1PPS pins. -/
def Obligations.TimebaseEvents : Prop :=
  ∀ s : State, s.bak.main →
    (s.dev.tbsState = tbsHoldover →
      Runs .holdoverLimit s fun t => t.dev.tbsState = tbsHoldover ∧ t.dev.getF TBS_STAT_SYNC_Q = 0 ∧ t.dev.bit TBS_EVT_HO_LIMIT ∧
        Frame s t [addr_TBS_STAT, addr_TBS_EVT] [] [.tbs, .mtr]) ∧
    (s.dev.tbsGlobal →
      Runs .brtcWrite s fun t =>
        t.dev.brtc = s.dev.time / (10 ^ 9 * 2 ^ 32) % 2 ^ 40 * 32768 + s.dev.time % (10 ^ 9 * 2 ^ 32) * 32768 / (10 ^ 9 * 2 ^ 32) ∧
        Frame s t [] [] [.brtc]) ∧
    (s.dev.tbsGlobal = false → Runs .brtcWrite s fun t => t = s) ∧
    (s.dev.bit TBS_CTRL_PPSO_EN → s.dev.bit TBS_STAT_STEPPED → (s.dev.bit TBS_CTRL_PPSO_QUAL → s.dev.tbsGlobal) →
      Runs .ppsoPulse s fun t => t.dev.tbs.ppso ∧ t.dev.sent = ⟨.pin, 200, [1]⟩ :: s.dev.sent ∧ Frame s t [] [] [.tbs, .sent]) ∧
    (s.dev.tbs.ppso →
      Runs .ppsoPulseEnd s fun t => t.dev.tbs.ppso = false ∧ t.dev.sent = ⟨.pin, 200, [0]⟩ :: s.dev.sent ∧
        Frame s t [] [] [.tbs, .sent]) ∧
    (∀ u, (-500000000 ≤ ppsiDistance u ∧ ppsiDistance u < 500000000) ∧ (((u / 2 ^ 32 : Nat) : Int) - ppsiDistance u) % 10 ^ 9 = 0) ∧
    (∀ fall u, s.dev.bit TBS_CTRL_PPSI_EN → s.dev.bit TBS_CTRL_PPSI_EDGE = fall →
      Runs (.ppsiEdge fall u) s fun t => t.dev.rd addr_TBS_PPSI_LO = BitVec.ofNat 32 (u / 2 ^ 32) ∧
        t.dev.rd addr_TBS_PPSI_HI = BitVec.ofNat 32 (u / 2 ^ 64) ∧ t.dev.rd addr_TBS_PPSI_FR = BitVec.ofNat 32 u ∧
        t.dev.rd addr_TBS_PPSI_ERR = BitVec.ofNat 32 (ofSigned 32 (ppsiDistance u)) ∧
        Frame s t [addr_TBS_PPSI_LO, addr_TBS_PPSI_HI, addr_TBS_PPSI_FR, addr_TBS_PPSI_ERR] [] []) ∧
    (s.dev.bit TBS_CTRL_PPSI_EN →
      Runs .ppsiMiss s fun t => t.dev.bit TBS_EVT_PPSI_MISS ∧ t.dev.getF TBS_PPSI_MISSES = s.dev.counted TBS_PPSI_MISSES 1 ∧
        Frame s t ([addr_TBS_EVT, (TBS_PPSI_MISSES).addr] ++ satAddrs) [] [])

/-- R56, R62, R63, R65: peer delay. A Pdelay_Req leaves with its egress time, which also joins the transmit queue (a full queue keeps
its entries and counts the loss); a Pdelay_Req received is answered at once and makes no entry; a Pdelay_Resp, with its follow-up
when it is two-step, completes the exchange: the mean path delay is half of t4 − t1 less the turnaround (latency sign: log entry 35).
R64: a pop removes the head entry and the registers show the next one; on an empty queue it has no effect on the queue. -/
def Obligations.PeerDelay : Prop :=
  (∀ (s : State) (n : Nat), (n = 1 ∨ n = 2) → s.bak.main → s.dev.ptpOn n →
    (∀ seq u,
      Runs (.pdelayReqSend n seq u) s fun t => (t.dev.ptpPort n).req = some (seq, s.dev.ptpOut n u) ∧
        t.dev.sent = ⟨.ptp, n, [2, seq]⟩ :: s.dev.sent ∧
        ((s.dev.ptpPort n).tsq.length < 32 → (t.dev.ptpPort n).tsq = (s.dev.ptpPort n).tsq ++ [⟨2, seq, s.dev.ptpOut n u, 0⟩]) ∧
        (32 ≤ (s.dev.ptpPort n).tsq.length → (t.dev.ptpPort n).tsq = (s.dev.ptpPort n).tsq ∧
          t.dev.bit (if n = 1 then PTP_EVT_P1_TSQ_OVF else PTP_EVT_P2_TSQ_OVF) ∧
          t.dev.getF (PTP_TSQ_LOST (n - 1)) = s.dev.counted (PTP_TSQ_LOST (n - 1)) 1) ∧ Outside s t) ∧
    (∀ seq src,
      Runs (.pdelayReq n seq src) s fun t => t.dev.sent = ⟨.ptp, n, [3, seq, src]⟩ :: s.dev.sent ∧
        Frame s t ([addr_NET_RX (n - 1), addr_NET_TX (n - 1)] ++ satAddrs) [] [.sent]) ∧
    (∀ (m : PtpMsg) (t1 : Nat), m.port = n → (s.dev.ptpPort n).req = some (m.seq, t1) →
      (m.twoStep = false →
        Runs (.pdelayResp m) s fun t =>
          (t.dev.ptpPort n).delay = some (((s.dev.ptpIn n m.tIn : Int) - t1 - (m.origin + m.corr)) / 2) ∧
            (t.dev.ptpPort n).req = none ∧ (t.dev.ptpPort n).reqSince = 0 ∧ Outside s t) ∧
      (m.twoStep →
        Runs (.pdelayResp m) s fun t => (t.dev.ptpPort n).resp = some (m, s.dev.ptpIn n m.tIn) ∧
          (t.dev.ptpPort n).delay = (s.dev.ptpPort n).delay ∧
          Frame s t (addr_NET_RX (n - 1) :: satAddrs) [] [if n = 1 then .ptp1 else .ptp2])) ∧
    (∀ (y m : PtpMsg) (t1 t4 : Nat), m.port = n → (s.dev.ptpPort n).req = some (m.seq, t1) → (s.dev.ptpPort n).resp = some (y, t4) →
      y.seq = m.seq → y.src = m.src →
      Runs (.pdelayRespFollowUp m) s fun t =>
        (t.dev.ptpPort n).delay = some (((t4 : Int) - t1 - (m.origin - y.origin + y.corr + m.corr)) / 2) ∧
          (t.dev.ptpPort n).req = none ∧ (t.dev.ptpPort n).resp = none ∧ Outside s t)) ∧
  (∀ (s : State) (p : Sys2Proof.Path) (n : Nat), (n = 1 ∨ n = 2) →
    (s.granted p (addr_PTP_TSQ_POP (n - 1)) 1 →
      Runs (.tsqPop p n) s fun t => Taken t p (addr_PTP_TSQ_POP (n - 1)) ∧
        (t.dev.ptpPort n).tsq = (s.dev.ptpPort n).tsq.tail ∧ (t.dev.ptpPort n).rxq = (s.dev.ptpPort n).rxq ∧
        ((s.dev.ptpPort n).tsq.tail = [] → t.dev.rd (addr_PTP_TSQ_ID (n - 1)) = 0) ∧
        (∀ e l, (s.dev.ptpPort n).tsq.tail = e :: l → t.dev.rd (addr_PTP_TSQ_ID (n - 1)) =
          BitVec.ofNat 32 (2 ^ 31 + (l.length + 1) * 2 ^ 24 + e.mtype % 16 * 2 ^ 16 + e.seq % 65536)) ∧
        Frame s t (queueAddrs (n - 1)) [] [if n = 1 then .ptp1 else .ptp2, .sent]) ∧
    (s.granted p (addr_PTP_RXQ_POP (n - 1)) 1 →
      Runs (.rxqPop p n) s fun t => Taken t p (addr_PTP_RXQ_POP (n - 1)) ∧
        (t.dev.ptpPort n).rxq = (s.dev.ptpPort n).rxq.tail ∧ (t.dev.ptpPort n).tsq = (s.dev.ptpPort n).tsq ∧
        ((s.dev.ptpPort n).rxq.tail = [] → t.dev.rd (addr_PTP_RXQ_ID (n - 1)) = 0) ∧
        (∀ e l, (s.dev.ptpPort n).rxq.tail = e :: l → t.dev.rd (addr_PTP_RXQ_ID (n - 1)) =
          BitVec.ofNat 32 (2 ^ 31 + (l.length + 1) * 2 ^ 24 + e.mtype % 16 * 2 ^ 16 + e.seq % 65536)) ∧
        Frame s t (queueAddrs (n - 1)) [] [if n = 1 then .ptp1 else .ptp2, .sent]))

/-- R58: an Announce message whose PTP timescale flag is 0 is ignored for master selection, flagged and counted. -/
def Obligations.ForeignTimescale : Prop :=
  ∀ (s : State) (m : PtpAnnounce), s.bak.main → s.dev.ptpOn m.port → m.domain = s.dev.getF PTP_CTRL_DOMAIN → m.ptpTimescale = false →
    Runs (.announce m) s fun t => t.dev.bit PTP_EVT_ARB_IGNORED ∧ t.dev.getF PTP_ARB_IGNORED = s.dev.counted PTP_ARB_IGNORED 1 ∧
      Frame s t ([addr_PTP_EVT, (PTP_ARB_IGNORED).addr, addr_NET_RX (m.port - 1)] ++ satAddrs) [] []

/-- R37, R59: a port's best Announce is the better of what it holds and what it hears, and the timeout forgets it; the selection follows,
UNSET goes to ACQUIRE when a port is selected, and LOCKED to HOLDOVER, ACQUIRE to UNSET, when none is (order of Announces: log
entry 36). -/
def Obligations.MasterSelection : Prop :=
  ∀ s : State, s.bak.main →
    (∀ m : PtpAnnounce, s.dev.ptpOn m.port → m.domain = s.dev.getF PTP_CTRL_DOMAIN → m.ptpTimescale →
      (match (s.dev.ptpPort m.port).best with
        | none => True
        | some b => b.src = m.src ∨ annBetter m b) →
      Runs (.announce m) s fun t => (t.dev.ptpPort m.port).best = some m ∧
        (s.dev.getF PTP_STAT_SEL_PORT = 0 → (∀ k, k = 1 ∨ k = 2 → k ≠ m.port → (s.dev.ptpPort k).best = none) →
          t.dev.getF PTP_STAT_SEL_PORT = m.port ∧
            (s.dev.tbsState = tbsUnset → s.dev.bit TBS_CTRL_MODE = false → t.dev.tbsState = tbsAcquire)) ∧ Outside s t) ∧
    (∀ n, s.dev.ptpOn n → (∀ k, k = 1 ∨ k = 2 → k ≠ n → (s.dev.ptpPort k).best = none) →
      Runs (.announceReceiptTimeout n) s fun t => (t.dev.ptpPort n).best = none ∧ t.dev.getF PTP_STAT_SEL_PORT = 0 ∧
        t.dev.bit (if n = 1 then PTP_EVT_P1_ANN_TMO else PTP_EVT_P2_ANN_TMO) ∧
        t.dev.getF PTP_ANN_TMO = s.dev.counted PTP_ANN_TMO 1 ∧
        (s.dev.tbsState = tbsLocked → t.dev.tbsState = tbsHoldover ∧ t.dev.bit TBS_EVT_HOLDOVER) ∧
        (s.dev.tbsState = tbsAcquire → t.dev.tbsState = tbsUnset) ∧ Outside s t)

/-- R44: a Sync on the selected port, one-step or completed by its Follow_Up, without a peer delay of the last 4 Pdelay_Req intervals
yields no measurement, is flagged and counted. -/
def Obligations.NoPeerDelay : Prop :=
  ∀ (s : State) (m : PtpMsg), s.bak.main → s.dev.ptpOn m.port → s.dev.getF PTP_STAT_SEL_PORT = m.port →
    ((s.dev.ptpPort m.port).delay = none ∨ 4 < (s.dev.ptpPort m.port).reqSince) →
    let unmeasured := fun t : State => t.dev.bit PTP_EVT_NO_PDELAY ∧ t.dev.getF PTP_NO_PDELAY_CNT = s.dev.counted PTP_NO_PDELAY_CNT 1 ∧
      Frame s t ([addr_PTP_EVT, (PTP_NO_PDELAY_CNT).addr, addr_NET_RX (m.port - 1)] ++ satAddrs ++
        if s.dev.extServo then (PTP_RXQ_LOST (m.port - 1)).addr :: queueAddrs (m.port - 1) else []) []
        [if m.port = 1 then .ptp1 else .ptp2]
    (s.dev.fromMaster m → m.twoStep = false → Runs (.sync m) s unmeasured) ∧
    (∀ (y : PtpMsg) (u : Nat), (s.dev.ptpPort m.port).sync = some (y, u) → y.seq = m.seq → y.src = m.src → y.domain = m.domain →
      Runs (.followUp m) s unmeasured)

/-- R43 to R46, R59: a two-step Sync waits for its Follow_Up; the measurement a one-step Sync or a Follow_Up completes is, in LOCKED under
the internal servo and over PTP_JUMP_LIM, not applied: flagged and counted, and the fourth in a row holds the increment that was in
force before the first, refuses the jump and enters HOLDOVER. -/
def Obligations.JumpRefusal : Prop :=
  ∀ (s : State) (m : PtpMsg) (dl : Int), s.bak.main → s.dev.ptpOn m.port → s.dev.extServo = false → s.dev.tbsState = tbsLocked →
    s.dev.getF PTP_STAT_SEL_PORT = m.port → (s.dev.ptpPort m.port).delay = some dl → (s.dev.ptpPort m.port).reqSince ≤ 4 →
    let jumped := fun (off : Int) (t : State) =>
      (s.dev.jumpLim : Int) < off.natAbs →
        t.dev.bit PTP_EVT_OUTLIER ∧ t.dev.getF PTP_OUTLIERS = s.dev.counted PTP_OUTLIERS 1 ∧
        (s.dev.tbs.overs < 3 → t.dev.tbs.overs = s.dev.tbs.overs + 1 ∧ t.dev.tbs.incr = s.dev.tbs.incr ∧
          t.dev.tbs.held = (if s.dev.tbs.overs = 0 then s.dev.tbs.incr else s.dev.tbs.held) ∧ t.dev.tbsState = tbsLocked) ∧
        (s.dev.tbs.overs = 3 → t.dev.tbs.incr = s.dev.tbs.held ∧ t.dev.tbs.incrNew = none ∧ t.dev.tbsState = tbsHoldover ∧
          t.dev.bit TBS_EVT_JUMP_REFUSED ∧ t.dev.bit TBS_STAT_REFUSED ∧
          t.dev.getF TBS_JUMPS_REFUSED = s.dev.counted TBS_JUMPS_REFUSED 1 ∧
          (s.dev.log.queue.length < 64 → Recorded s.dev t.dev 4 0x1001 []))
    (s.dev.fromMaster m → m.twoStep = false →
      Runs (.sync m) s fun t => jumped ((s.dev.ptpIn m.port m.tIn : Int) - (m.origin + m.corr) - dl) t ∧ Outside s t) ∧
    (s.dev.fromMaster m → m.twoStep →
      Runs (.sync m) s fun t => (t.dev.ptpPort m.port).sync = some (m, s.dev.ptpIn m.port m.tIn) ∧
        Frame s t (addr_NET_RX (m.port - 1) :: satAddrs) [] [if m.port = 1 then .ptp1 else .ptp2]) ∧
    (∀ (y : PtpMsg) (u : Nat), (s.dev.ptpPort m.port).sync = some (y, u) → y.seq = m.seq → y.src = m.src → y.domain = m.domain →
      Runs (.followUp m) s fun t => (t.dev.ptpPort m.port).sync = none ∧
        jumped ((u : Int) - (m.origin + y.corr + m.corr) - dl) t ∧ Outside s t)

/-- R73 to R76: a power request is kept in LNK_LCTRL (a reserved value is refused); a direction of a lane takes its effective state,
a receiver that leaves ACTIVE also drops block lock; a dozing transmitter that wakes is counted and dozes again.
R78, R79, R81: an LQF update publishes min(4h, 51v/40) limited to 255 and counts its updates below the thresholds; the fourth in
a row below WARN sets the status and its flag, the fourth below ALARM also counts and requests a record; outside CONT mode the
equaliser stays. While the receiver is not ACTIVE nothing is updated. -/
def Obligations.Lanes : Prop :=
  (∀ (s : State) (n : Nat), n < 72 →
    (∀ (p : Sys2Proof.Path) (tx rx : Nat), tx < 4 → rx < 4 → s.granted p (addr_LNK_LCTRL n) (s.dev.powReq n tx rx) →
      (tx < 3 → rx < 3 → s.dev.getF (LNK_LCTRL_TEST n) < 2 → s.dev.getF (LNK_LCTRL_ADAPT n) < 3 →
        Runs (.lanePowerRequest p n tx rx) s fun t => Taken t p (addr_LNK_LCTRL n) ∧ t.dev.getF (LNK_LCTRL_TX_REQ n) = tx ∧
          t.dev.getF (LNK_LCTRL_RX_REQ n) = rx ∧ t.dev.getF (LNK_LCTRL_TEST n) = s.dev.getF (LNK_LCTRL_TEST n) ∧
          Frame s t [addr_LNK_LCTRL n] [] [.sent]) ∧
      (tx = 3 ∨ rx = 3 →
        Runs (.lanePowerRequest p n tx rx) s fun t => Turned s t p (addr_LNK_LCTRL n) stR10 ∧ Frame s t refAddrs [] [.sent])) ∧
    (s.bak.main →
      (∀ rx, s.dev.effState n rx = s.dev.powState n rx → Runs (.powerTransitionDone n rx) s fun t => t = s) ∧
      (s.dev.quiet → s.dev.effState n false ≠ s.dev.powState n false → s.dev.effState n false ≠ 0 →
        Runs (.powerTransitionDone n false) s fun t => t.dev.powState n false = s.dev.effState n false ∧
          Frame s t [addr_LNK_LSTAT n] [] []) ∧
      (s.dev.effState n true ≠ s.dev.powState n true → s.dev.powState n true ≠ 2 →
        Runs (.powerTransitionDone n true) s fun t => t.dev.powState n true = s.dev.effState n true ∧
          Frame s t [addr_LNK_LSTAT n, addr_LNK_EQ0 n, addr_LNK_EQ1 n] [] [.lanes, .freeCtr]) ∧
      (s.dev.quiet → s.dev.paired = false → s.dev.logical n = none → s.dev.powState n true = 2 → s.dev.effState n true ≠ 2 →
        Runs (.powerTransitionDone n true) s fun t => t.dev.powState n true = s.dev.effState n true ∧
          t.dev.getF (LNK_LSTAT_BLK_ST n) = 0 ∧ t.dev.getF (LNK_LSTAT_HDR_RUN n) = 0 ∧
          (s.dev.effState n true = 0 → t.dev.getF (LNK_LQF_LQF n) = 0) ∧
          Frame s t [addr_LNK_LSTAT n, addr_LNK_LQF n, addr_LNK_STAT] [] [.lanes]) ∧
      (s.dev.powState n false = 1 →
        Runs (.dozeWake n) s fun t => t.dev.powState n false = 2 ∧ t.dev.getF (LNK_WAKES n) = s.dev.counted (LNK_WAKES n) 1 ∧
          Frame s t ([addr_LNK_LSTAT n, addr_LNK_WAKES n] ++ satAddrs) [] []) ∧
      (s.dev.quiet → s.dev.powState n false = 2 → s.dev.effState n false = 1 →
        Runs (.dozeReturn n) s fun t => t.dev.powState n false = 1 ∧ Frame s t [addr_LNK_LSTAT n] [] []))) ∧
  (∀ (s : State) (n h v : Nat), n < 72 → h < 256 → v < 1024 → s.bak.main →
    (s.dev.powState n true = 2 →
      let q := min (min 255 (4 * h)) (min 255 (v * 51 / 40))
      let warn := s.dev.getF (LNK_LQF_THR_WARN n)
      let alarm := s.dev.getF (LNK_LQF_THR_ALARM n)
      Runs (.lqfUpdate n h v) s fun t =>
        t.dev.getF (LNK_LQF_LQF n) = q ∧ t.dev.getF (LNK_LQF_H n) = h ∧ t.dev.getF (LNK_LQF_V n) = v ∧
        (t.dev.lane n).warnLo = (if q < warn then min 4 ((s.dev.lane n).warnLo + 1) else 0) ∧
        (t.dev.lane n).alarmLo = (if q < alarm then min 4 ((s.dev.lane n).alarmLo + 1) else 0) ∧
        (q < warn → 3 ≤ (s.dev.lane n).warnLo → t.dev.bit (LNK_LSTAT_LQF_WARN n) ∧
          (s.dev.bit (LNK_LSTAT_LQF_WARN n) = false → t.dev.maskBit (addr_LNK_LEVT n) 3)) ∧
        (q < alarm → 3 ≤ (s.dev.lane n).alarmLo → s.dev.bit (LNK_LSTAT_LQF_ALARM n) = false →
          t.dev.bit (LNK_LSTAT_LQF_ALARM n) ∧ t.dev.maskBit (addr_LNK_LEVT n) 4 ∧
          t.dev.getF (LNK_LQF_ALARMS n) = s.dev.counted (LNK_LQF_ALARMS n) 1 ∧
          (s.dev.log.queue.length < 64 → Recorded s.dev t.dev 9 0x2004 [n])) ∧
        Frame s t ([addr_LNK_LQF n, addr_LNK_LSTAT n, addr_LNK_LEVT n, addr_LNK_EVT, addr_LNK_LQF_ALARMS n] ++ logAddrs ++
          if s.dev.getF (LNK_LCTRL_ADAPT n) = 0 then [addr_LNK_EQ0 n, addr_LNK_EQ1 n] else []) [] [.lanes, .log, .mram]) ∧
    (s.dev.powState n true ≠ 2 → Runs (.lqfUpdate n h v) s fun t => t = s))

/-- R82, R84, R93: one received header in the alignment state machine of a cell lane or spare, and the slip of a Maintainer's search;
in the PRBS test the pattern's errors are counted instead (first 66 bits: log entry 18). -/
def Obligations.BlockAlignment : Prop :=
  ∀ (s : State) (n : Nat), n < 72 → (n < 64 ∨ 68 ≤ n) →
    (∀ hdr payload, hdr < 4 → payload < 2 ^ 64 → s.bak.main → s.dev.powState n true = 2 → s.dev.getF (LNK_LCTRL_TEST n) ≠ 1 →
      Runs (.blockHeader n hdr payload) s fun t => Outside s t ∧
        (s.dev.getF (LNK_LSTAT_BLK_ST n) = 0 → (hdr = 1 ∨ hdr = 2) →
          t.dev.getF (LNK_LSTAT_BLK_ST n) = 1 ∧ t.dev.getF (LNK_LSTAT_HDR_RUN n) = 1) ∧
        (s.dev.getF (LNK_LSTAT_BLK_ST n) < 2 → (hdr = 0 ∨ hdr = 3) →
          t.dev.getF (LNK_LSTAT_BLK_ST n) = 0 ∧ t.dev.getF (LNK_LSTAT_HDR_RUN n) = 0 ∧
          t.dev.getF (LNK_SLIP_POS n) =
            if s.dev.bit (LNK_LCTRL_BLK_AUTO n) then (s.dev.getF (LNK_SLIP_POS n) + 1) % 66 else s.dev.getF (LNK_SLIP_POS n)) ∧
        (s.dev.getF (LNK_LSTAT_BLK_ST n) = 1 → (hdr = 1 ∨ hdr = 2) →
          let run := min 64 (s.dev.getF (LNK_LSTAT_HDR_RUN n) + 1)
          t.dev.getF (LNK_LSTAT_HDR_RUN n) = run ∧ t.dev.getF (LNK_LSTAT_BLK_ST n) = (if run = 64 then 2 else 1) ∧
          (run = 64 → t.dev.maskBit (addr_LNK_LEVT n) 1)) ∧
        (s.dev.getF (LNK_LSTAT_BLK_ST n) = 2 → (hdr = 1 ∨ hdr = 2) → t.dev.getF (LNK_LSTAT_BLK_ST n) = 2) ∧
        (s.dev.getF (LNK_LSTAT_BLK_ST n) = 2 → (hdr = 0 ∨ hdr = 3) →
          t.dev.getF (LNK_HDR_ERR n) = s.dev.counted (LNK_HDR_ERR n) 1 ∧
          (16 ≤ ((false :: (s.dev.lane n).hdrs).take 64).countP (· = false) →
            t.dev.getF (LNK_LSTAT_BLK_ST n) = 0 ∧ t.dev.maskBit (addr_LNK_LEVT n) 2 ∧
            t.dev.getF (LNK_BLK_LOSS n) = s.dev.counted (LNK_BLK_LOSS n) 1) ∧
          (((false :: (s.dev.lane n).hdrs).take 64).countP (· = false) < 16 → t.dev.getF (LNK_LSTAT_BLK_ST n) = 2))) ∧
    (∀ hdr payload r, s.bak.main → s.dev.powState n true = 2 → s.dev.getF (LNK_LCTRL_TEST n) = 1 → (s.dev.lane n).prbs = some r →
      Runs (.blockHeader n hdr payload) s fun t =>
        let bits := (List.range 66).map fun i => (hdr % 4 + payload % 2 ^ 64 * 4) / 2 ^ i % 2
        t.dev.getF (LNK_PRBS_ERR n) = s.dev.counted (LNK_PRBS_ERR n) (bits.foldl prbsBit (r, 0)).2 ∧
          Frame s t (addr_LNK_PRBS_ERR n :: satAddrs) [] [.lanes]) ∧
    (∀ p : Sys2Proof.Path, s.granted p (addr_LNK_SLIP n) 0x80000000 →
      (s.dev.bit (LNK_LCTRL_BLK_AUTO n) = false →
        Runs (.slip p n) s fun t => Taken t p (addr_LNK_SLIP n) ∧
          t.dev.getF (LNK_SLIP_POS n) = (s.dev.getF (LNK_SLIP_POS n) + 1) % 66 ∧ t.dev.getF (LNK_LSTAT_BLK_ST n) = 0 ∧
          t.dev.getF (LNK_LSTAT_HDR_RUN n) = 0 ∧ Frame s t [addr_LNK_SLIP n, addr_LNK_LSTAT n] [] [.lanes, .sent]) ∧
      (s.dev.bit (LNK_LCTRL_BLK_AUTO n) →
        Runs (.slip p n) s fun t => Turned s t p (addr_LNK_SLIP n) stR10 ∧ Frame s t refAddrs [] [.sent]))

/-- R85, R87, R88, R106: a BUOY leaves on every ACTIVE transmitter that is not in test, with its launch time; the bond comes UP when
all four lanes show the same skew of at most 16 twice, and goes DOWN, flagged and counted, at another skew or a missing BUOY. -/
def Obligations.Buoys : Prop :=
  ∀ s : State, s.bak.main →
    (∀ disp launch, Runs (.buoySend disp launch) s fun t => Frame s t [] [] [.lanes, .sent] ∧
      ∀ n, n < 72 →
        (s.dev.powState n false = 2 → s.dev.getF (LNK_LCTRL_TEST n) = 0 →
          ⟨.buoy, n, [0x33 + edgeOf launch * 2 ^ 8 + disp % 16 * 2 ^ 49 + (s.dev.lane n).bseq % 256 * 2 ^ 53]⟩ ∈ t.dev.sent ∧
          (t.dev.lane n).bseq = ((s.dev.lane n).bseq + 1) % 256) ∧
        (s.dev.powState n false ≠ 2 ∨ s.dev.getF (LNK_LCTRL_TEST n) ≠ 0 → t.dev.lane n = s.dev.lane n)) ∧
    (∀ m skew, m < 4 → skew < 256 → s.dev.paired = false →
      (s.dev.bondState = 1 → 16 < skew →
        Runs (.mooringBuoy m skew) s fun t => t.dev.bondState = 1 ∧ t.dev.bit LNK_EVT_DESKEW_FAIL ∧
          t.dev.getF LNK_DESKEW_FAIL = s.dev.counted LNK_DESKEW_FAIL 1 ∧
          Frame s t ([addr_LNK_EVT, addr_LNK_DESKEW_FAIL] ++ satAddrs) [] [.lanes]) ∧
      (s.dev.bondState = 1 → skew ≤ 16 → (s.dev.lane (64 + m)).skews.head? = some skew →
        (∀ k, k < 4 → k ≠ m → ∃ x, x ≤ 16 ∧ (s.dev.lane (64 + k)).skews = [x, x]) →
        Runs (.mooringBuoy m skew) s fun t => t.dev.bondState = 2 ∧ t.dev.bit LNK_EVT_BOND_UP ∧
          (t.dev.rd addr_LNK_BOND_SKEW).toNat / 2 ^ (8 * m) % 256 = skew ∧
          Frame s t [addr_LNK_STAT, addr_LNK_EVT, addr_LNK_BOND_SKEW] [] [.lanes]) ∧
      (s.dev.bondState = 2 → (s.dev.rd addr_LNK_BOND_SKEW).toNat / 2 ^ (8 * m) % 256 = skew →
        Runs (.mooringBuoy m skew) s fun t => t = s) ∧
      (s.dev.bondState = 2 → (s.dev.rd addr_LNK_BOND_SKEW).toNat / 2 ^ (8 * m) % 256 ≠ skew →
        Runs (.mooringBuoy m skew) s fun t => t.dev.bondState = 0 ∧ t.dev.bit LNK_EVT_BOND_DOWN ∧
          t.dev.getF LNK_BOND_DOWN = s.dev.counted LNK_BOND_DOWN 1 ∧
          Frame s t ([addr_LNK_STAT, addr_LNK_EVT, addr_LNK_BOND_DOWN] ++ satAddrs) [] [.lanes])) ∧
    (∀ m, m < 4 → s.dev.paired = false → s.dev.bondState = 2 →
      Runs (.buoyMiss m) s fun t => t.dev.bondState = 0 ∧ t.dev.bit LNK_EVT_BOND_DOWN ∧
        t.dev.getF LNK_BOND_DOWN = s.dev.counted LNK_BOND_DOWN 1 ∧
        t.dev.getF (LNK_BUOY_MISS (64 + m)) = s.dev.counted (LNK_BUOY_MISS (64 + m)) 1 ∧
        Frame s t ([addr_LNK_STAT, addr_LNK_EVT, addr_LNK_BOND_DOWN, addr_LNK_BUOY_MISS (64 + m)] ++ satAddrs) [] [.lanes])

/-- R90, R91, R93: a write of LNK_REMAPn that one of R90's conditions refuses leaves the register, flags and counts; an accepted one maps
or unmaps and is flagged and counted (conditions of a write with EN = 0: log entry 19). LCTRL.TEST is refused where an endpoint is
boarded; entering the test drops block lock. -/
def Obligations.SparesAndTest : Prop :=
  ∀ (s : State) (p : Sys2Proof.Path) (v : Word),
    (∀ i, i < 4 → s.granted p (addr_LNK_REMAP i) v →
      let src := v.toNat % 128
      let en := v.toNat / 2 ^ 31 = 1
      let bad := 63 < src ∨
        (en ∧ ((∃ j, j < 4 ∧ j ≠ i ∧ s.dev.bit (LNK_REMAP_EN j) ∧ s.dev.getF (LNK_REMAP_SRC j) = src) ∨ s.dev.liveLane src)) ∨
        (s.dev.bit (LNK_REMAP_EN i) ∧ s.dev.liveLane (s.dev.getF (LNK_REMAP_SRC i)))
      (bad → Runs (.remapWrite p i v) s fun t => Turned s t p (addr_LNK_REMAP i) stR10 ∧ t.dev.bit LNK_EVT_REMAP_REFUSED ∧
        t.dev.getF LNK_REMAP_REFUSED = s.dev.counted LNK_REMAP_REFUSED 1 ∧
        (s.dev.log.queue.length < 64 → Recorded s.dev t.dev 9 0x1005 []) ∧
        Frame s t ([addr_LNK_EVT, addr_LNK_REMAP_REFUSED] ++ logAddrs ++ refAddrs) [] [.log, .mram, .sent]) ∧
      (¬ bad → s.dev.quiet → s.dev.paired = false → Runs (.remapWrite p i v) s fun t => Taken t p (addr_LNK_REMAP i) ∧
        (t.dev.bit (LNK_REMAP_EN i) ↔ en) ∧ t.dev.getF (LNK_REMAP_SRC i) = src ∧ t.dev.bit LNK_EVT_REMAP_DONE ∧
        t.dev.getF LNK_REMAPS = s.dev.counted LNK_REMAPS 1 ∧
        (en → t.dev.logical (68 + i) = some src ∧ t.dev.logical src = none) ∧ Outside s t)) ∧
    (∀ n, n < 72 → s.granted p (addr_LNK_LCTRL n) v → s.dev.paired = false →
      v.toNat / 4 % 4 < 3 → v.toNat / 16 % 4 < 3 → v.toNat / 256 % 4 < 3 →
      (v.toNat / 1024 % 4 = 0 → Runs (.testModeWrite p n v) s fun t => Taken t p (addr_LNK_LCTRL n) ∧
        t.dev.getF (LNK_LCTRL_TEST n) = 0 ∧ Frame s t [addr_LNK_LCTRL n] [] [.lanes, .sent]) ∧
      (v.toNat / 1024 % 4 = 1 → s.dev.getF (LNK_LCTRL_TEST n) = 0 → s.dev.testOk n → Runs (.testModeWrite p n v) s fun t => Taken t p (addr_LNK_LCTRL n) ∧ t.dev.getF (LNK_LCTRL_TEST n) = 1 ∧
        t.dev.getF (LNK_LSTAT_BLK_ST n) = 0 ∧ (t.dev.lane n).prbs = none ∧ Outside s t) ∧
      (v.toNat / 1024 % 4 = 1 → s.dev.getF (LNK_LCTRL_TEST n) = 0 → s.dev.testOk n = false → Runs (.testModeWrite p n v) s fun t => Turned s t p (addr_LNK_LCTRL n) stR10 ∧
        Frame s t refAddrs [] [.sent]))

/-- R94, R95, R97: a start of fault injection is refused, flagged, counted and recorded under R94's and R95's conditions, and otherwise
begins with its counts at zero and is recorded; writing EN 0 stops it with a record of the reason; a frame held for reordering is
released. -/
def Obligations.FaultInjection : Prop :=
  ∀ (s : State) (p : Sys2Proof.Path) (n : Nat), n < 72 →
    (∀ v : Word, s.granted p (addr_LNK_FI_CTRL n) v → s.dev.bit (LNK_FI_CTRL_EN n) = false → v.toNat / 2 ^ 31 = 1 →
      let nn := s.dev.getF (LNK_FI_PARAM_N n)
      let bad := (s.dev.noArm = false ∧ liveInject s.isl = false) ∨ s.dev.getF (LNK_LCTRL_TEST n) = 1 ∨ v.toNat / 1024 % 4 = 3 ∨
        v.toNat / 256 % 4 = 3 ∨ nn = 0 ∨ (v.toNat / 64 % 4 = 2 ∧ (16 < nn ∨ (s.dev.rd (addr_LNK_FI_SEED n)).toNat = 0))
      (bad → s.dev.rxReady = [] → Runs (.fiStart p n v) s fun t => Turned s t p (addr_LNK_FI_CTRL n) stR10 ∧
        t.dev.bit LNK_EVT_FI_REFUSED ∧ t.dev.getF LNK_FI_REFUSED = s.dev.counted LNK_FI_REFUSED 1 ∧
        (s.dev.log.queue.length < 64 → Recorded s.dev t.dev 9 0x1006 []) ∧
        Frame s t ([addr_LNK_EVT, addr_LNK_FI_REFUSED] ++ logAddrs ++ refAddrs) [] [.log, .mram, .sent]) ∧
      (¬ bad → s.dev.rxReady = [] → Runs (.fiStart p n v) s fun t => Taken t p (addr_LNK_FI_CTRL n) ∧ t.dev.bit (LNK_FI_CTRL_EN n) ∧
        t.dev.getF (LNK_FI_CTRL_TYPES n) = v.toNat % 32 ∧ t.dev.getF (LNK_FI_CTRL_ACTION n) = v.toNat / 256 % 4 ∧
        (t.dev.lane n).fiSeen = 0 ∧ (t.dev.lane n).fiDone = 0 ∧
        (s.dev.log.queue.length < 64 →
          let c := regCode (0x400 * n + 0x40) [n, v.toNat, (s.dev.rd (addr_LNK_FI_PARAM n)).toNat, (s.dev.rd (addr_LNK_FI_SEED n)).toNat]
          Recorded s.dev t.dev 9 c.1 c.2) ∧
        Frame s t (addr_LNK_FI_CTRL n :: logAddrs) [] [.lanes, .log, .mram, .sent])) ∧
    (s.granted p (addr_LNK_FI_CTRL n) (fldPut 31 1 0 (s.dev.rd (addr_LNK_FI_CTRL n))) → s.dev.bit (LNK_FI_CTRL_EN n) →
      s.dev.rxReady = [] → (s.dev.lane n).heldRx = none →
      Runs (.fiStop p n) s fun t => Taken t p (addr_LNK_FI_CTRL n) ∧ t.dev.bit (LNK_FI_CTRL_EN n) = false ∧
        (t.dev.lane n).heldTx = none ∧ t.dev.maskBit (addr_LNK_LEVT n) 5 ∧
        (s.dev.log.queue.length < 64 → Recorded s.dev t.dev 9 0x2005 [n, 1]) ∧
        Frame s t ([addr_LNK_FI_CTRL n, addr_LNK_LEVT n, addr_LNK_EVT] ++ logAddrs) [] [.lanes, .log, .mram, .sent]) ∧
    (∀ o, s.bak.main → s.dev.rxReady = [] → (s.dev.lane n).heldTx = some o →
      Runs (.fiReorderRelease n false) s fun t => (t.dev.lane n).heldTx = none ∧ t.dev.sent = o :: s.dev.sent ∧
        Frame s t [] [] [.lanes, .sent])

/-- R136, R138, R140: boarding. An INVITE leaves while a configured position of the lane is not boarded. A HELLO starts boarding a cell
that is EMPTY and, after its departure, one that is BOARDED; a HELLO that fails a check or the 10 ms limit is REFUSED with its reason;
one with the same BEPOCH is ignored in BOARDING, any in REFUSED; a refusal lapses. -/
def Obligations.Boarding : Prop :=
  ∀ s : State, s.bak.main → s.dev.quiet →
    (∀ n, n < 64 → s.dev.txUp (s.dev.phys n) → (∃ c ∈ s.dev.laneCells n, s.dev.cellState c ≠ cellBoarded) →
      Runs (.invite n) s fun t => (t.dev.lane n).iseq = ((s.dev.lane n).iseq + 1) % 256 ∧
        t.dev.sent = ⟨.invite, s.dev.phys n,
          withCheck [frameStart (n * 2 ^ 16) (s.dev.lane n).iseq 1 0 0 5 (s.dev.laneVer n), 0]⟩ :: s.dev.sent ∧
        Frame s t [] [] [.lanes, .sent]) ∧
    (∀ n, (∀ c ∈ s.dev.laneCells n, s.dev.cellState c = cellBoarded) → Runs (.invite n) s fun t => t = s) ∧
    (∀ (f : HelloFrame) (m : Nat), s.dev.hears f.lane m → (f.ver = 1 ∨ f.ver = 2) →
      (s.dev.cellAt m f.pos = none →
        Runs (.hello f) s fun t => t.dev.bit TWL_EVT_REFUSED ∧ t.dev.getF TWL_REFUSALS = s.dev.counted TWL_REFUSALS 1 ∧
          Frame s t ([addr_TWL_EVT, addr_TWL_REFUSALS] ++ logAddrs) [] [.lanes, .log, .mram, .sent]) ∧
      (∀ c, c < 256 → s.dev.cellAt m f.pos = some c →
        (s.dev.cellState c = cellEmpty → s.dev.helloReason c f = 0 →
          Runs (.hello f) s fun t => t.dev.cellState c = cellBoarding ∧ t.dev.rd (addr_TWL_CELL_EPID c) = BitVec.ofNat 32 f.epId ∧
            t.dev.rd (addr_TWL_CELL_SER_LO c) = BitVec.ofNat 32 f.serial ∧
            t.dev.rd (addr_TWL_CELL_SER_HI c) = BitVec.ofNat 32 (f.serial / 2 ^ 32) ∧
            t.dev.getF (TWL_CELL_BEP_BEPOCH c) = f.bepoch % 2 ^ 16 ∧ (t.dev.cell c).probes = 0 ∧
            Frame s t (addr_TWL_CST c :: idAddrs c) [] [.twl]) ∧
        (s.dev.cellState c = cellEmpty → s.dev.helloReason c f ≠ 0 →
          Runs (.hello f) s fun t => BoardRefused s.dev t.dev c (s.dev.helloReason c f) ∧
            Frame s t (boardAddrs c ++ idAddrs c) [] [.twl, .log, .mram, .sent]) ∧
        (s.dev.cellState c = cellBoarding → s.dev.getF (TWL_CELL_BEP_BEPOCH c) = f.bepoch → Runs (.hello f) s fun t => t = s) ∧
        (s.dev.cellState c = cellBoarding → s.dev.getF (TWL_CELL_BEP_BEPOCH c) ≠ f.bepoch → s.dev.helloReason c f = 0 →
          Runs (.hello f) s fun t => t.dev.cellState c = cellBoarding ∧ (∀ x ∈ t.dev.twl.fly, x.cell ≠ c) ∧
            t.dev.getF TWL_DEPARTS = s.dev.getF TWL_DEPARTS ∧
            Frame s t (addr_TWL_CST c :: (idAddrs c ++ txnAddrs)) [] [.twl]) ∧
        (s.dev.cellState c = cellBoarded → s.dev.helloReason c f = 0 →
          Runs (.hello f) s fun t => t.dev.cellState c = cellBoarding ∧ t.dev.bit TWL_EVT_DEPARTED ∧
            t.dev.getF TWL_DEPARTS = s.dev.counted TWL_DEPARTS 1 ∧ Outside s t) ∧
        (s.dev.cellState c = cellRefused → Runs (.hello f) s fun t => t = s))) ∧
    (∀ c, c < 256 →
      (s.dev.cellState c = cellBoarding →
        Runs (.boardingTimeout c) s fun t => BoardRefused s.dev t.dev c 8 ∧ Frame s t (boardAddrs c) [] [.twl, .log, .mram, .sent]) ∧
      (s.dev.cellState c = cellRefused →
        Runs (.refusedExpiry c) s fun t => t.dev.cellState c = cellEmpty ∧ Frame s t [addr_TWL_CST c] [] []))

/-- R138, R146: departures. A LEAVE, DEPART periods without telemetry and a lane reset end the boarding of a boarded cell; one that is
still boarding is abandoned without an event; at a lane reset its transactions complete with LANE_RESET.
R127, R128, R138: crossing times. A probe carries the present XVAL and waits for its echo; an echo adds its sample and XVAL becomes
the mean of at most 16 of them (rounded either way: log entry 3); the mean over the allowance is flagged and counted once; an echo
that does not come leaves the wait, and the fourth refuses the boarding. -/
def Obligations.Departures : Prop :=
  (∀ (s : State) (c : Nat), c < 256 → s.bak.main → s.dev.quiet →
    (∀ lane pos be reason m, s.dev.hears lane m → s.dev.cellAt m pos = some c →
      (s.dev.cellState c = cellBoarded →
        Runs (.leave lane pos be reason) s fun t => Departed s.dev t.dev c ∧ t.dev.twl.fly = s.dev.twl.fly ∧ Outside s t) ∧
      (s.dev.cellState c = cellBoarding →
        Runs (.leave lane pos be reason) s fun t => t.dev.cellState c = cellEmpty ∧ Frame s t [addr_TWL_CST c] [] [.twl])) ∧
    (s.dev.cellState c = cellBoarded → s.dev.per.running → s.dev.getF TWL_CTRL_DEPART ≤ (s.dev.cell c).noTlm →
      Runs (.departTimeout c) s fun t => Departed s.dev t.dev c ∧ Outside s t) ∧
    (s.dev.cellState c ≠ cellBoarded ∨ s.dev.per.running = false ∨ (s.dev.cell c).noTlm < s.dev.getF TWL_CTRL_DEPART →
      Runs (.departTimeout c) s fun t => t = s) ∧
    (∀ n m, n < 72 → s.dev.logical n = some m → c ∈ s.dev.laneCells m →
      (s.dev.cellState c = cellBoarded ∨ s.dev.cellState c = cellBoarding) →
      (s.dev.powState n true = 2 → s.dev.effState n true ≠ 2 →
        Runs (.powerTransitionDone n true) s fun t => t.dev.cellState c = cellEmpty ∧ (∀ x ∈ t.dev.twl.fly, x.cell ≠ c) ∧
          (∀ x ∈ s.dev.twl.fly, x.cell = c → ∃ y ∈ t.dev.twl.doneQ, y.txn = x ∧ y.status = txLaneReset)) ∧
      (s.dev.powState n false ≠ 0 → s.dev.effState n false = 0 →
        Runs (.powerTransitionDone n false) s fun t => t.dev.cellState c = cellEmpty ∧ (∀ x ∈ t.dev.twl.fly, x.cell ≠ c)))) ∧
  (∀ (s : State) (c : Nat), c < 256 → s.bak.main →
    (∀ n pos, s.dev.placeOf c = some (n, pos) → s.dev.txUp (s.dev.phys n) →
      (s.dev.cellState c = cellBoarded ∨ (s.dev.cellState c = cellBoarding ∧ (s.dev.cell c).probes < 16 ∧ (s.dev.cell c).cfg = false)) →
      Runs (.crossProbe c) s fun t => (t.dev.cell c).probes = (s.dev.cell c).probes + 1 ∧
        (t.dev.cell c).probeId = ((s.dev.cell c).probeId + 1) % 256 ∧ (s.dev.cell c).probeId ∈ (t.dev.cell c).await ∧
        t.dev.sent = ⟨.crossProbe, s.dev.phys n, [0x4B + pos % 4 * 2 ^ 9 + b2n (s.dev.cell c).xvalid * 2 ^ 11 +
          (s.dev.cell c).probeId % 256 * 2 ^ 16 + s.dev.getF (TWL_XT_XVAL c) * 2 ^ 24]⟩ :: s.dev.sent ∧
        Frame s t [] [] [.twl, .sent]) ∧
    (∀ (n m pos id turn rtt : Nat), s.dev.logical n = some m → s.dev.cellAt m pos = some c → s.dev.rxUp n → id ∈ (s.dev.cell c).await →
      s.dev.cellState c = cellBoarded →
      let xs := (((rtt : Int) - turn) :: (s.dev.cell c).samples).take 16
      Runs (.crossEcho n pos id turn rtt) s fun t => (t.dev.cell c).samples = xs ∧ (t.dev.cell c).xvalid ∧
        (t.dev.cell c).await = (s.dev.cell c).await.erase id ∧
        (0 ≤ xs.sum → xs.sum < 2 * xs.length * (2 ^ 24 - 1) →
          xs.sum - 2 * xs.length < 2 * xs.length * (t.dev.getF (TWL_XT_XVAL c) : Int) ∧
            2 * xs.length * (t.dev.getF (TWL_XT_XVAL c) : Int) < xs.sum + 2 * xs.length) ∧
        (∀ p, s.dev.placeOf c = some p → (s.dev.getF (TWL_XALLOW_ALLOW p.1) * 2 * xs.length : Int) < xs.sum →
          (t.dev.cell c).xover ∧ ((s.dev.cell c).xover = false →
            t.dev.bit TWL_EVT_XALLOW ∧ t.dev.getF TWL_XALLOW_CNT = s.dev.counted TWL_XALLOW_CNT 1)) ∧
        Frame s t ([addr_TWL_XT c, addr_TWL_EVT, addr_TWL_XALLOW_CNT] ++ logAddrs) [] [.twl, .log, .mram, .freeCtr]) ∧
    (∀ id, id ∈ (s.dev.cell c).await →
      (s.dev.quiet → s.dev.cellState c = cellBoarding → 3 ≤ (s.dev.cell c).lost →
        Runs (.echoTimeout c id) s fun t => BoardRefused s.dev t.dev c 8 ∧ Frame s t (boardAddrs c) [] [.twl, .log, .mram, .sent]) ∧
      (s.dev.cellState c = cellBoarded →
        Runs (.echoTimeout c id) s fun t => (t.dev.cell c).await = (s.dev.cell c).await.erase id ∧ Frame s t [] [] [.twl])) ∧
    (∀ id, id ∉ (s.dev.cell c).await → Runs (.echoTimeout c id) s fun t => t = s))

/-- R104, R112, R125: the device takes one telemetry frame of a boarded cell for S(k), in time: its measurements go into the input area, a
NaN leaves the value before and is flagged; a frame for another instant, or late, is counted. A frame sent only toward endpoints is
discarded and counted, a reserved type counts as bad. -/
def Obligations.TelemetryFrames : Prop :=
  ∀ s : State, s.bak.main →
    (∀ (f : TlmFrame) (m c : Nat), c < 256 → s.dev.hears f.lane m → s.dev.cellAt m f.pos = some c →
      (s.dev.cellState c ≠ cellBoarded → Runs (.tlm f) s fun t => t = s) ∧
      (s.dev.cellState c = cellBoarded →
        (s.dev.per.running = false ∨ f.late ∨ s.dev.per.duePassed ∨ f.sample ≠ edgeOf (unitsOf125 s.dev.per.sk)) →
        Runs (.tlm f) s fun t => t.dev.getF (TWL_CNT_LATE c) = s.dev.counted (TWL_CNT_LATE c) 1 ∧
          (t.dev.cell c).accepted = (s.dev.cell c).accepted ∧ Frame s t (addr_TWL_CNT c :: satAddrs) [] [.twl]) ∧
      (s.dev.cellState c = cellBoarded → s.dev.per.running → f.late = false → s.dev.per.duePassed = false →
        f.sample = edgeOf (unitsOf125 s.dev.per.sk) → (s.dev.cell c).accepted = false → s.dev.bit HLM_STAT_RUNNING = false →
        Runs (.tlm f) s fun t => (t.dev.cell c).accepted ∧ (t.dev.cell c).noTlm = 0 ∧
          t.dev.getF (TWL_CELL_TLMF_EXEC c) = f.exec % 4 ∧ t.dev.getF (TWL_CELL_TLMF_GD_LAT c) = f.gdLat % 128 ∧
          (∀ i, i < 8 → t.dev.mw (0x60000 + 8 * c + i) =
            if f32Nan (f.m.getD i 0 % 2 ^ 32) then s.dev.mw (0x60000 + 8 * c + i) else BitVec.ofNat 32 (f.m.getD i 0)) ∧
          (∀ w, w < 0x60000 + 8 * c ∨ 0x60000 + 8 * c + 8 ≤ w → t.dev.mw w = s.dev.mw w) ∧
          ((∃ i, i < 8 ∧ f32Nan (f.m.getD i 0 % 2 ^ 32)) → t.dev.bit TWL_EVT_NAN) ∧ Outside s t)) ∧
    (∀ lane m ty, s.dev.hears lane m → ty < 16 →
      (ty = 1 ∨ ty = 3 ∨ ty = 5 ∨ ty = 6 →
        Runs (.foreignFrame lane ty) s fun t => t.dev.bit TWL_EVT_FOREIGN ∧ t.dev.getF TWL_FOREIGN = s.dev.counted TWL_FOREIGN 1 ∧
          Frame s t ([addr_TWL_EVT, addr_TWL_FOREIGN] ++ satAddrs) [] []) ∧
      (ty = 0 ∨ 7 ≤ ty →
        Runs (.foreignFrame lane ty) s fun t => t.dev.bit TWL_EVT_BAD_FRAME ∧ t.dev.getF TWL_BAD_FRAME = s.dev.counted TWL_BAD_FRAME 1 ∧
          Frame s t ([addr_TWL_EVT, addr_TWL_BAD_FRAME] ++ satAddrs) [] []))

/-- R144, R146, R150: a submission is refused with its reason and then takes nothing; an accepted one that is not posted takes a free
slot and a free TAG (which ones: log entry 3) and is in flight, a posted one takes neither. A response or the timeout completes it; a
response that answers nothing is counted as late; a pop removes the head of the completion queue. -/
def Obligations.Transactions : Prop :=
  ∀ s : State,
    (∀ (p : Sys2Proof.Path) (op c a : Nat) (v : Word), op < 3 → c < 256 → a < 2 ^ 16 →
      s.granted p addr_TWL_TXQ_CMD (BitVec.ofNat 32 (op * 2 ^ 29 + c * 2 ^ 16 + a)) → s.granted p addr_TWL_TXQ_DATA v →
      s.granted p addr_TWL_TXQ_GO 1 → s.dev.quiet →
      let i := if op = 0 then Instr.txnRead p c a else if op = 1 then Instr.txnWrite p c a v else Instr.txnWritePosted p c a v
      let reason := s.dev.txnReason (s.classOf p) op c a
      (reason ≠ 0 →
        Runs i s fun t => Taken t p addr_TWL_TXQ_GO ∧ t.dev.getF TWL_TXQ_STAT_REASON = reason ∧ t.dev.bit TWL_TXQ_STAT_ACCEPTED = false ∧
          (reason = 3 → t.dev.bit TWL_EVT_TXN_FULL ∧ t.dev.getF TWL_TXN_FULL = s.dev.counted TWL_TXN_FULL 1) ∧
          Frame s t ([addr_TWL_TXQ_CMD, addr_TWL_TXQ_DATA, addr_TWL_TXQ_GO, addr_TWL_TXQ_STAT, addr_TWL_EVT, addr_TWL_TXN_FULL] ++ satAddrs)
            [] [.sent]) ∧
      (reason = 0 → op ≠ 2 →
        Runs i s fun t => Taken t p addr_TWL_TXQ_GO ∧ t.dev.bit TWL_TXQ_STAT_ACCEPTED ∧
          ∃ slot tag, t.dev.twl.fly = s.dev.twl.fly ++ [⟨slot, c, tag, op, a, if op = 0 then 0 else v.toNat⟩] ∧
            tag ∈ s.dev.freeTags c ∧ (s.dev.freeSlots ≠ [] → slot ∈ s.dev.freeSlots) ∧
            (slot < 512 → t.dev.getF TWL_TXQ_STAT_SLOT = slot) ∧ Outside s t) ∧
      (reason = 0 → op = 2 →
        Runs i s fun t => Taken t p addr_TWL_TXQ_GO ∧ t.dev.bit TWL_TXQ_STAT_ACCEPTED ∧ t.dev.twl.fly = s.dev.twl.fly ∧
          t.dev.twl.doneQ = s.dev.twl.doneQ ∧ Outside s t)) ∧
    (∀ lane m pos tag a status c (v : Word), c < 256 → s.bak.main → s.dev.hears lane m → s.dev.cellAt m pos = some c →
      (s.dev.cell c).wtag ≠ some tag →
      (∀ x, s.dev.twl.fly.find? (fun t => decide (t.cell = c ∧ t.tag = tag ∧ t.addr = a)) = some x → status < 4 →
        s.dev.cellState c = cellBoarded →
        Runs (.txnResponse lane pos tag a status v) s fun t => t.dev.twl.fly = s.dev.twl.fly.erase x ∧
          t.dev.twl.doneQ = s.dev.twl.doneQ ++ [⟨x, status, if status = 0 ∧ x.op = 0 then v.toNat else 0⟩] ∧
          Frame s t txnAddrs [] [.twl]) ∧
      (s.dev.twl.fly.find? (fun t => decide (t.cell = c ∧ t.tag = tag ∧ t.addr = a)) = none →
        Runs (.txnResponse lane pos tag a status v) s fun t => t.dev.bit TWL_EVT_LATE_RSP ∧
          t.dev.getF TWL_LATE_RSP = s.dev.counted TWL_LATE_RSP 1 ∧ Frame s t ([addr_TWL_EVT, addr_TWL_LATE_RSP] ++ satAddrs) [] [])) ∧
    (∀ c tag, c < 256 → s.bak.main → s.dev.quiet →
      ((s.dev.cell c).wtag = some tag →
        Runs (.txnTimeout c tag) s fun t => BoardRefused s.dev t.dev c 7 ∧ t.dev.getF TWL_TXN_TMO = s.dev.counted TWL_TXN_TMO 1 ∧
          Outside s t) ∧
      (∀ x, (s.dev.cell c).wtag ≠ some tag → s.dev.twl.fly.find? (fun t => decide (t.cell = c ∧ t.tag = tag)) = some x →
        s.dev.cellState c = cellBoarded →
        Runs (.txnTimeout c tag) s fun t => t.dev.twl.fly = s.dev.twl.fly.erase x ∧
          t.dev.twl.doneQ = s.dev.twl.doneQ ++ [⟨x, txTimeout, 0⟩] ∧ t.dev.getF TWL_TXN_TMO = s.dev.counted TWL_TXN_TMO 1 ∧
          Frame s t (addr_TWL_TXN_TMO :: (txnAddrs ++ satAddrs)) [] [.twl])) ∧
    (∀ p : Sys2Proof.Path, s.granted p addr_TWL_TXC_POP 1 →
      Runs (.txcPop p) s fun t => Taken t p addr_TWL_TXC_POP ∧ t.dev.twl.doneQ = s.dev.twl.doneQ.tail ∧
        t.dev.getF TWL_STAT_INFLIGHT = (s.dev.twl.fly.length + s.dev.twl.doneQ.tail.length) % 1024 ∧
        (s.dev.twl.doneQ.tail = [] → t.dev.rd addr_TWL_TXC_ID = 0) ∧
        (∀ x l, s.dev.twl.doneQ.tail = x :: l → t.dev.bit TWL_TXC_ID_VALID ∧ t.dev.rd addr_TWL_TXC_DATA = BitVec.ofNat 32 x.data) ∧
        Frame s t txnAddrs [] [.twl, .sent])

/-- R165 to R167, R180, R181: a shadow write in range takes the value and sets PEND, one out of range is refused, flagged and counted; a
write of CG_CTRL takes MAN and DIS and remembers COMMIT, but MAN = 1 in BAND mode or without a COMMIT is refused; the commit copies the
shadow set at S(k+1) and clears PEND. LB_OVR is written only while the output's group is disabled or OFF.
R176 to R178: a change of code turns the pin off that goes off and lets the other wait for the dead time (pair form), and its edge is
placed on the last TBC cycle not after it; the end of the dead time turns that pin on; both pins of a pair-form output are never high
together. A replica that cannot cover a cycle is flagged and counted. -/
def Obligations.CarriersAndOutputs : Prop :=
  (∀ (s : State) (p : Sys2Proof.Path) (v : Word),
    let refused := fun (a : Nat) (t : State) => Turned s t p a stR10 ∧ t.dev.bit CBK_EVT_WRITE_REFUSED ∧
      t.dev.getF CBK_WRITE_REFUSED = s.dev.counted CBK_WRITE_REFUSED 1
    (∀ n i, n < 24 → i < 7 →
      let a := if i = 0 then addr_CBK_CG_SH_PER n else addr_CBK_CG_SH_U n (i - 1)
      let ok := if i = 0 then decide (32000 ≤ v.toNat % 2 ^ 26 ∧ v.toNat % 2 ^ 26 ≤ 64000000) else s.dev.manualOk n (i - 1) (v.toNat % 2 ^ 24)
      s.granted p a v →
        (ok → Runs (.shadowWrite p n i v) s fun t => Taken t p a ∧ t.dev.bit (CBK_CG_STAT_PEND n) ∧
          (i = 0 → t.dev.getF (CBK_CG_SH_PER_TC n) = v.toNat % 2 ^ 26) ∧
          (0 < i → t.dev.getF (CBK_CG_SH_U n (i - 1)) = v.toNat % 2 ^ 24) ∧
          Frame s t [a, addr_CBK_CG_STAT n, addr_CBK_STAT] [] [.cbk, .mor, .sent]) ∧
        (ok = false → Runs (.shadowWrite p n i v) s fun t => refused a t ∧
          Frame s t ([addr_CBK_EVT, addr_CBK_WRITE_REFUSED] ++ refAddrs) [] [.sent])) ∧
    (∀ n i, n < 24 → s.granted p (addr_CBK_CG_CTRL n) v → (i = Instr.commit p n v ∨ i = Instr.manWrite p n v ∨ i = Instr.disWrite p n v) →
      let commit := v.toNat / 4 % 2 = 1
      let man := v.toNat / 2 % 2 = 1
      let bad := man ∧ (s.dev.cgMode n = modeBAND ∨ ((s.dev.grp n).set = none ∧ (s.dev.grp n).commit = false ∧ ¬ commit))
      (¬ bad → Runs i s fun t => Taken t p (addr_CBK_CG_CTRL n) ∧ (t.dev.bit (CBK_CG_CTRL_MAN n) ↔ man) ∧
        t.dev.getF (CBK_CG_CTRL_DIS n) = v.toNat % 2 ∧ ((t.dev.grp n).commit = true ↔ commit ∨ (s.dev.grp n).commit = true) ∧
        (t.dev.grp n).set = (s.dev.grp n).set ∧ Frame s t [addr_CBK_CG_CTRL n] [] [.cbk, .mor, .sent]) ∧
      (bad → Runs i s fun t => refused (addr_CBK_CG_CTRL n) t ∧
        Frame s t ([addr_CBK_EVT, addr_CBK_WRITE_REFUSED] ++ refAddrs) [] [.sent])) ∧
    (∀ (d : Dev) (n : Nat), n < 24 → (d.grp n).commit →
      ((d.cgSample n).grp n).set = some (d.getF (CBK_CG_SH_PER_TC n), (List.range 6).map fun i => d.getF (CBK_CG_SH_U n i)) ∧
        ((d.cgSample n).grp n).commit = false ∧ (d.cgSample n).bit (CBK_CG_STAT_PEND n) = false) ∧
    (∀ j, j < 16 → s.granted p (addr_CBK_LB_OVR j) v →
      let g := 16 + s.dev.getF (CBK_LB_CFG_GROUP j)
      (s.dev.bit (CBK_CG_STAT_DIS g) ∨ s.dev.cgMode g = 0 →
        Runs (.lbOvrWrite p j v) s fun t => Taken t p (addr_CBK_LB_OVR j) ∧ (t.dev.rd (addr_CBK_LB_OVR j)).toNat % 8 = v.toNat % 8 ∧
          Frame s t [addr_CBK_LB_OVR j] [] [.sent]) ∧
      (s.dev.bit (CBK_CG_STAT_DIS g) = false → s.dev.cgMode g ≠ 0 →
        Runs (.lbOvrWrite p j v) s fun t => refused (addr_CBK_LB_OVR j) t ∧ t.dev.bit CBK_EVT_OVR_REFUSED ∧
          t.dev.getF CBK_OVR_REFUSED = s.dev.counted CBK_OVR_REFUSED 1 ∧
          Frame s t ([addr_CBK_EVT, addr_CBK_WRITE_REFUSED, addr_CBK_OVR_REFUSED] ++ refAddrs) [] [.sent]))) ∧
  (∀ (s : State) (j : Nat), j < 16 → s.bak.main →
    (∀ u c rest, s.dev.lbHeld j = false → s.dev.bit (CBK_LB_CFG_FORM j) → (s.dev.lbOut j).sched = (u, c) :: rest → c ≠ (s.dev.lbOut j).code →
      Runs (.lbEdge j false) s fun t =>
        (t.dev.lbOut j).sched = rest ∧ (t.dev.lbOut j).code = c ∧ (t.dev.lbOut j).a = ((s.dev.lbOut j).a && decide (c = 3)) ∧
        (t.dev.lbOut j).b = ((s.dev.lbOut j).b && decide (c = 2)) ∧ (c = 0 → (t.dev.lbOut j).pend = none) ∧
        (c = 3 → (s.dev.lbOut j).a = false → (t.dev.lbOut j).pend = some false) ∧
        (c = 2 → (s.dev.lbOut j).b = false → (t.dev.lbOut j).pend = some true) ∧
        (∃ tap, ⟨.edge, j, [(u * 2 ^ 27 - s.dev.time) / s.dev.tbs.incr, tap, c]⟩ ∈ t.dev.sent) ∧
        ¬ (t.dev.bit (CBK_LB_STAT_PIN_A j) ∧ t.dev.bit (CBK_LB_STAT_PIN_B j)) ∧
        Frame s t ([addr_CBK_LB_STAT j, addr_CBK_EVT, addr_CBK_LB_INTLK] ++ satAddrs) [] [.lb, .sent, .freeCtr]) ∧
    (∀ x, s.dev.bit (CBK_LB_CFG_FORM j) → (s.dev.lbOut j).pend = some x →
      Runs (.lbEdge j true) s fun t => (t.dev.lbOut j).pend = none ∧ (t.dev.lbOut j).a = ((s.dev.lbOut j).a || !x) ∧
        (t.dev.lbOut j).b = ((s.dev.lbOut j).b || x) ∧ t.dev.bit (CBK_LB_STAT_PIN_A j) = (t.dev.lbPins j).1 ∧
        t.dev.bit (CBK_LB_STAT_PIN_B j) = (t.dev.lbPins j).2.1 ∧
        ¬ (t.dev.bit (CBK_LB_STAT_PIN_A j) ∧ t.dev.bit (CBK_LB_STAT_PIN_B j)) ∧
        Frame s t ([addr_CBK_LB_STAT j, addr_CBK_EVT, addr_CBK_LB_INTLK] ++ satAddrs) [] [.lb, .sent]) ∧
    (∀ taps, 0 < taps → taps < 256 →
      Runs (.delayLineCalibration j taps) s fun t => t.dev.getF (CBK_LB_STAT_TAPS j) = taps ∧
        t.dev.bit (CBK_LB_STAT_DLCAL_FAIL j) = false ∧ Frame s t [addr_CBK_LB_STAT j] [] []) ∧
    (Runs (.delayLineCalibration j 0) s fun t => t.dev.bit (CBK_LB_STAT_DLCAL_FAIL j) ∧ t.dev.bit CBK_EVT_DLCAL ∧
      t.dev.getF CBK_DLCAL_FAIL = s.dev.counted CBK_DLCAL_FAIL 1 ∧
      Frame s t ([addr_CBK_LB_STAT j, addr_CBK_EVT, addr_CBK_DLCAL_FAIL] ++ satAddrs) [] []))

/-- R11, R12, R14, R15, R50: at S(k+1) the period index, the nominal instant and the length in force advance; before S(0) is placed the mark has no
effect (a mark brings device time to its instant, log entry 6; one that is overdue is performed first, log entry 7). At S(k) + TLM_DUE,
once a period, every configured cell without an accepted frame is stale.
R12, R50: an accepted TBS_PER holds the new length; while a period runs it takes effect at S(k+2), the last write before S(k+1)
counting. A value outside TBS_PERMIN to TBS_PERMAX, or less than φout + 1.0 µs, is refused. -/
def Obligations.PeriodMarks : Prop :=
  (∀ s : State, s.bak.main → s.dev.quiet →
    (∀ caps capT, s.dev.per.started = false → Runs (.samplingInstant caps capT) s fun t => t = s) ∧
    (∀ caps capT, s.dev.per.started → s.dev.per.running → s.dev.mor.defer = [] →
      Runs (.samplingInstant caps capT) s fun t => t.dev.per.running ∧ t.dev.per.k = s.dev.per.k + 1 ∧
        t.dev.per.sk = s.dev.per.sk + s.dev.per.len ∧ t.dev.per.len = s.dev.per.nextA.getD s.dev.per.len ∧
        t.dev.per.nextA = s.dev.per.nextB ∧ t.dev.per.nextB = none ∧ t.dev.per.duePassed = false ∧ Outside s t) ∧
    (∀ caps capT, s.dev.per.started → s.dev.per.running = false → s.dev.mor.defer = [] →
      Runs (.samplingInstant caps capT) s fun t => t.dev.per.running ∧ t.dev.per.k = 0 ∧ t.dev.per.sk = s.dev.per.sk ∧
        t.dev.per.len = s.dev.per.len ∧ Outside s t) ∧
    (s.dev.per.running → s.dev.per.duePassed = false →
      Runs .tlmDue s fun t => t.dev.per = { s.dev.per with duePassed := true } ∧
        (∀ c ∈ s.dev.cells, c < 256 → t.dev.bit (TWL_CST_STALE c) = !(s.dev.cell c).accepted) ∧ Outside s t) ∧
    (s.dev.per.running = false ∨ s.dev.per.duePassed → Runs .tlmDue s fun t => t = s)) ∧
  (∀ (s : State) (p : Sys2Proof.Path) (v : Word), s.granted p addr_TBS_PER v →
    let n := v.toNat % 2 ^ 20
    let bad := n < s.dev.getF TBS_PERMIN_PER ∨ s.dev.getF TBS_PERMAX_PER < n ∨ n < s.dev.getF TBS_PHI_PHI + 800
    (¬ bad → s.dev.thmDoubles = false →
      Runs (.perWrite p v) s fun t => Taken t p addr_TBS_PER ∧ t.dev.getF TBS_PER_PER = n ∧
        (s.dev.per.running → t.dev.per = { s.dev.per with nextB := some n }) ∧
        (s.dev.per.running = false → s.dev.per.started → t.dev.per = { s.dev.per with len := n }) ∧
        t.dev.bit TBS_PERNEXT_PEND ∧
        Frame s t [addr_TBS_PER, addr_TBS_PERNEXT] [] [.per, .mor, .sent]) ∧
    (bad →
      Runs (.perWrite p v) s fun t => Turned s t p addr_TBS_PER stR10 ∧ t.dev.bit TBS_EVT_PER_REFUSED ∧
        t.dev.getF TBS_PER_REFUSED = s.dev.counted TBS_PER_REFUSED 1 ∧
        Frame s t ([addr_TBS_EVT, (TBS_PER_REFUSED).addr] ++ refAddrs) [] [.sent]))

/-- R21, R23 to R25, R197, R199: the end of a Helm run reports its time and, met, clears the count of misses, or, late, leaves the
interval's schedules as they are; the deadline with the run open counts a miss and drives HDL at DL_TRIP; at S(k) + φout the schedules
sent last become the applied ones. -/
def Obligations.HelmRun : Prop :=
  ∀ s : State, s.bak.main → s.dev.quiet → s.dev.per.duePassed →
    (∀ ns late, s.dev.bit HLM_STAT_RUNNING → s.dev.hlm.bad = [] →
      Runs (.helmRunComplete ns late) s fun t => t.dev.bit HLM_STAT_RUNNING = false ∧ t.dev.getF HLM_RUN_NS = min 65535 ns ∧
        t.dev.getF HLM_RUNMAX_NS = max (s.dev.getF HLM_RUNMAX_NS) (min 65535 ns) ∧
        (t.dev.bit HLM_STAT_LAST_MISS ↔ s.dev.per.deadlinePassed = true) ∧
        (s.dev.per.deadlinePassed = false → t.dev.getF HLM_STAT_DL_CONSEC = 0) ∧
        (s.dev.per.deadlinePassed → t.dev.getF HLM_STAT_DL_CONSEC = s.dev.getF HLM_STAT_DL_CONSEC ∧ t.dev.cbk.iv = s.dev.cbk.iv) ∧
        Outside s t) ∧
    (∀ ns late, s.dev.bit HLM_STAT_RUNNING = false → Runs (.helmRunComplete ns late) s fun t => t = s) ∧
    (s.dev.per.running → s.dev.per.deadlinePassed = false → s.dev.bit HLM_STAT_RUNNING →
      Runs .helmDeadline s fun t => t.dev.per.deadlinePassed ∧ t.dev.bit HLM_EVT_DL_MISS ∧
        t.dev.getF HLM_STAT_DL_CONSEC = min 255 (s.dev.getF HLM_STAT_DL_CONSEC + 1) ∧
        t.dev.getF HLM_DL_MISS = s.dev.counted HLM_DL_MISS 1 ∧
        (t.dev.bit HLM_STAT_HDL ↔ s.dev.getF HLM_CTRL_DL_TRIP ≠ 0 ∧
          s.dev.getF HLM_CTRL_DL_TRIP ≤ min 255 (s.dev.getF HLM_STAT_DL_CONSEC + 1)) ∧ Outside s t) ∧
    (s.dev.per.running → s.dev.per.deadlinePassed = false → s.dev.bit HLM_STAT_RUNNING = false →
      Runs .helmDeadline s fun t => t.dev.per = { s.dev.per with deadlinePassed := true } ∧ Frame s t [] [] [.time, .per]) ∧
    (s.dev.per.running → s.dev.per.deadlinePassed → s.dev.per.phiPassed = false →
      Runs .intervalStart s fun t => t.dev.per = { s.dev.per with phiPassed := true } ∧ t.dev.cbk.iv = none ∧
        (∀ iv, s.dev.cbk.iv = some iv → (∀ g, g < 24 → (t.dev.grp g).vals = iv.gv.getD g []) ∧
          ∀ c ∈ s.dev.cells, ∀ b, (spGet {} s.dev.cbk.cells c).cand = some b → (spGet {} t.dev.cbk.cells c).hist = b.hist) ∧
        Outside s t) ∧
    (s.dev.per.running = false ∨ (s.dev.per.deadlinePassed ∧ s.dev.per.phiPassed) → Runs .intervalStart s fun t => t = s)

/-- R205, R206: OPEN and swaps are requests; at S(k+1) a swap of a group that is OPEN changes its bank, one that is CLOSED is refused, and
then OPEN takes its request. A window write that R206 accepts writes the word and no other; one it refuses is flagged, counted in its
own counter, and shown in HLM_REFADDR. -/
def Obligations.HelmCommands : Prop :=
  (∀ (s : State) (p : Sys2Proof.Path) (v : Word),
    (s.granted p addr_HLM_LOOP v → Runs (.loopWrite p v) s fun t => Taken t p addr_HLM_LOOP ∧ t.dev.getF HLM_LOOP_OPEN = v.toNat % 2 ^ 16 ∧
      t.dev.getF HLM_LOOPST_OPEN = s.dev.getF HLM_LOOPST_OPEN ∧ Frame s t [addr_HLM_LOOP] [] [.mor, .sent]) ∧
    (s.granted p addr_HLM_BANKSW v → Runs (.banksw p v) s fun t => Taken t p addr_HLM_BANKSW ∧
      t.dev.getF HLM_SWPEND_REQ = Nat.lor (s.dev.getF HLM_SWPEND_REQ) (v.toNat % 2 ^ 16) ∧ Frame s t [addr_HLM_SWPEND] [] [.mor, .sent]) ∧
    (∀ w, w < 0x80000 → s.granted p (0x200000 + 4 * w) v →
      let ok := if w < 0x40000 then s.dev.coefOk w else decide (w < 0x60000 ∨ (0x70000 ≤ w ∧ w < 0x78000)) && s.dev.noArm
      (ok → Runs (.coefWrite p w v) s fun t => Taken t p (0x200000 + 4 * w) ∧ t.dev.mw w = v ∧
        (∀ x, x ≠ w → t.dev.mw x = s.dev.mw x) ∧ Frame s t [] [] [.smem, .mor, .sent]) ∧
      (ok = false → Runs (.coefWrite p w v) s fun t => Turned s t p (0x200000 + 4 * w) stR10 ∧ t.dev.bit HLM_EVT_COEF_REFUSED ∧
        t.dev.getF HLM_REFADDR_W = w ∧
        (w < 0x40000 → t.dev.getF HLM_COEF_REFUSED = s.dev.counted HLM_COEF_REFUSED 1) ∧
        (0x40000 ≤ w → t.dev.getF HLM_WIN_REFUSED = s.dev.counted HLM_WIN_REFUSED 1) ∧
        Frame s t ([addr_HLM_EVT, addr_HLM_REFADDR, addr_HLM_COEF_REFUSED, addr_HLM_WIN_REFUSED] ++ refAddrs) [] [.sent]))) ∧
  (∀ d : Dev, d.hlmLoops.getF HLM_SWPEND_REQ = 0 ∧ d.hlmLoops.getF HLM_LOOPST_OPEN = d.getF HLM_LOOP_OPEN ∧
    ∀ n, n < 16 → d.hlmLoops.getF HLM_LOOPST_BANK / 2 ^ n % 2 =
      if d.getF HLM_SWPEND_REQ / 2 ^ n % 2 = 1 ∧ d.loopOpen n then 1 - d.getF HLM_LOOPST_BANK / 2 ^ n % 2
      else d.getF HLM_LOOPST_BANK / 2 ^ n % 2)

/-- R218, R223, R226: BYPASS, ADMIT and SPARE are accepted when the transition exists from the cell's present state and wait for S(k+1);
otherwise they are refused with their reason. A cell in CHECK that is not READY when its admission timer has run out is bypassed. A
preset is taken, limited to MIN to MAX, only while no arm is enabled (of a NaN: log entry 3). -/
def Obligations.MembershipAndPresets : Prop :=
  (∀ (s : State) (p : Sys2Proof.Path) (c op : Nat) (i : Instr), c < 256 →
    (op = 1 ∧ i = .bypass p c ∨ op = 2 ∧ i = .admitCell p c ∨ op = 3 ∧ i = .spare p c) →
    s.granted p addr_BLS_CMD (BitVec.ofNat 32 (op * 2 ^ 28 + c)) →
    (s.dev.bit (BLS_CELL_CFG_IN_ARM c) → (blsTarget op (s.dev.member c)).isSome →
      Runs i s fun t => Taken t p addr_BLS_CMD ∧ t.dev.bit BLS_CMD_STAT_ACCEPTED ∧ t.dev.getF BLS_CMD_STAT_CELL = c ∧
        spGet 0 t.dev.bls.cmds c = op ∧ t.dev.member c = s.dev.member c ∧ Frame s t [addr_BLS_CMD_STAT] [] [.bls, .mor, .sent]) ∧
    (s.dev.bit (BLS_CELL_CFG_IN_ARM c) = false ∨ blsTarget op (s.dev.member c) = none →
      Runs i s fun t => Turned s t p addr_BLS_CMD stR10 ∧ t.dev.bit BLS_CMD_STAT_ACCEPTED = false ∧
        t.dev.getF BLS_CMD_STAT_REASON = (if s.dev.bit (BLS_CELL_CFG_IN_ARM c) then 2 else 1) ∧
        t.dev.bit BLS_EVT_CMD_REFUSED ∧ t.dev.getF BLS_CMD_REFUSED = s.dev.counted BLS_CMD_REFUSED 1 ∧
        Frame s t ([addr_BLS_CMD_STAT, addr_BLS_EVT, addr_BLS_CMD_REFUSED] ++ refAddrs) [] [.sent])) ∧
  (∀ (d : Dev) (c st : Nat), c < 256 → blsTarget (spGet 0 d.bls.cmds c) (d.member c) = some st →
    (d.blsStep3 c).member c = st ∧ spGet 0 (d.blsStep3 c).bls.cmds c = 0) ∧
  (∀ (s : State) (c : Nat), c < 256 → s.bak.main → s.dev.member c = blsCheck → s.dev.per.running →
    Runs (.admissionTimeout c) s fun t => c ∈ t.dev.bls.expired ∧ Frame s t [] [] [.bls]) ∧
  (∀ (d : Dev) (a c : Nat), c < 256 → d.member c = blsCheck → c ∈ d.bls.expired → d.blsReady c = false →
    (d.blsStep4 a c).member c = blsBypassed ∧ (d.blsStep4 a c).bit BLS_EVT_ADM_TIMEOUT ∧
      (d.blsStep4 a c).getF BLS_ADM_TMO = d.counted BLS_ADM_TMO 1 ∧
      (d.log.queue.length < 64 → Recorded d (d.blsStep4 a c) 14 0x1002 [])) ∧
  (∀ (s : State) (p : Sys2Proof.Path) (n : Nat) (v : Word), n < 32 → s.granted p (addr_GWY_CH_PRESET n) v →
    (s.dev.noArm → Runs (.preset p n v) s fun t => Taken t p (addr_GWY_CH_PRESET n) ∧ (t.dev.gw n).preset.isSome ∧
      (fvIsNan (fdec f32 v.toNat) = false →
        (t.dev.gw n).preset = some
          (if fvLt (fdec f32 v.toNat) (fdec f32 (s.dev.rd (addr_GWY_CH_MIN n)).toNat) then (s.dev.rd (addr_GWY_CH_MIN n)).toNat
            else if fvLt (fdec f32 (s.dev.rd (addr_GWY_CH_MAX n)).toNat) (fdec f32 v.toNat) then (s.dev.rd (addr_GWY_CH_MAX n)).toNat
            else v.toNat)) ∧ Frame s t [] [] [.gwy, .mor, .sent, .freeCtr]) ∧
    (s.dev.noArm = false → Runs (.preset p n v) s fun t => Turned s t p (addr_GWY_CH_PRESET n) stR10 ∧
      t.dev.bit GWY_EVT_PRESET_REFUSED ∧ t.dev.getF GWY_PRESET_REFUSED = s.dev.counted GWY_PRESET_REFUSED 1 ∧
      Frame s t ([addr_GWY_EVT, addr_GWY_PRESET_REFUSED] ++ refAddrs) [] [.sent]))

/-- R236, R241, R243, R305: the external modulator clock: a gap of 1 µs or a frequency outside 4.5 to 27 MHz is a fault, whose onset is flagged,
counted and recorded, and after which every filter refills; captured bits reach their channel; invalid samples count 0 and are
counted. -/
def Obligations.ModulatorClock : Prop :=
  ∀ s : State, s.bak.main →
    let onset := fun t : State => t.dev.bit MOD_STAT_CLK_OK = false ∧ t.dev.bit MOD_EVT_CLK_FAIL ∧
      t.dev.getF MOD_CLK_FAIL = s.dev.counted MOD_CLK_FAIL 1 ∧ (∀ c, c < 32 → (t.dev.modCh c).cnt = 0) ∧
      (s.dev.log.queue.length < 64 → Recorded s.dev t.dev 15 0x1000 [])
    (s.dev.bit MOD_CTRL_SRC → s.dev.mod.gap = false → Runs .mclkFault s fun t => t.dev.mod.gap ∧
      (s.dev.mod.badFreq = false → onset t) ∧ (s.dev.mod.badFreq → t.dev.rd addr_MOD_EVT = s.dev.rd addr_MOD_EVT) ∧
      Frame s t ([addr_MOD_STAT, addr_MOD_EVT, addr_MOD_CLK_FAIL] ++ logAddrs) [] [.mod, .log, .mram]) ∧
    (s.dev.bit MOD_CTRL_SRC = false ∨ s.dev.mod.gap → Runs .mclkFault s fun t => t = s) ∧
    (∀ khz, khz < 65536 →
      (s.dev.bit MOD_CTRL_SRC → Runs (.mckiFreqMeasure khz) s fun t => t.dev.getF MOD_FREQ_KHZ = khz ∧
        (t.dev.mod.badFreq ↔ khz < 4500 ∨ 27000 < khz) ∧ t.dev.mod.gap = s.dev.mod.gap ∧
        (t.dev.mod.badFreq → s.dev.mod.badFreq = false → s.dev.mod.gap = false → onset t) ∧
        (t.dev.mod.badFreq = false → t.dev.bit MOD_STAT_CLK_OK = !s.dev.mod.gap) ∧
        Frame s t ([addr_MOD_FREQ, addr_MOD_STAT, addr_MOD_EVT, addr_MOD_CLK_FAIL] ++ logAddrs) [] [.mod, .log, .mram]) ∧
      (s.dev.bit MOD_CTRL_SRC = false → Runs (.mckiFreqMeasure khz) s fun t => t = s)) ∧
    (∀ c : Capture, c.ch < 32 → c.bits ≠ [] → s.dev.bit (MOD_CH_CFG_EN c.ch) → s.dev.rd addr_MTR_STAT = 0 →
      Runs (.meteringSample [c]) s fun t => (t.dev.modCh c.ch).hist = (c.bits.reverse ++ (s.dev.modCh c.ch).hist).take 4400 ∧
        (t.dev.modCh c.ch).num = (s.dev.modCh c.ch).num + c.bits.length ∧ (t.dev.modCh c.ch).t = c.t ∧
        t.dev.mod.gap = false ∧
        Frame s t ([addr_MOD_STAT, addr_MOD_EVT, addr_MOD_STUCK] ++ satAddrs) [] [.mod]) ∧
    (∀ m, m < 2 → (∀ k, k < 2 → (s.dev.mtrRuns k ↔ k = m)) → s.dev.bit (MTR_PT_CFG_SRC m) = false → s.dev.mtrDc m = false →
      s.dev.bit MOD_STAT_CLK_OK = false → (s.dev.mtrPt m).fbN = 0 →
      Runs (.meteringSample []) s fun t => t.dev.getF MTR_INV_SAMP = s.dev.counted MTR_INV_SAMP (2 * s.dev.mtrEls m) ∧
        t.dev.bit MTR_EVT_INV_SAMP ∧ (t.dev.mtrPt m).dem.inv ∧
        (∃ x : MtrSamp, (t.dev.mtrPt m).buf = x :: (s.dev.mtrPt m).buf ∧ x.els = List.replicate (s.dev.mtrEls m) (0, 0, false)) ∧
        Frame s t ([addr_MTR_EVT, addr_MTR_INV_SAMP] ++ satAddrs) [] [.mod, .mtr])

/-- R248 to R254: a trigger starts every idle slice's triggered sequence; a finished conversion reaches its registers and, in time, its
input word; an urgent request is accepted by an idle slice with time to spare and otherwise dropped, flagged, counted and
reported; a calibration window ends with new coefficients or a FAILED slice.
R253, R254: the coefficients of a window whose n0 zero codes sum to s0 and n1 reference codes to s1: SOFS is 256 × the mean zero
code to the nearest integer, within 64 × 256. -/
def Obligations.SarConversions : Prop :=
  (∀ s : State, s.bak.main →
    (s.dev.per.running → Runs .sarTick s fun t => t = s) ∧
    (∀ x, x < 4 → s.dev.per.running = false → s.dev.getF SAR_STAT_CAL = 7 → s.dev.getF SAR_STAT_SUB = 7 →
      s.dev.bit SAR_CTRL_CAL_EN = false → s.dev.sar.stage = none → s.dev.sar.subst = none → s.dev.sarBusy x = none →
      0 < s.dev.getF (SAR_SL_LEN_SEQLEN x) →
      Runs .sarTick s fun t => t.dev.time = (s.dev.advanceTo s.dev.sarNext).time ∧
        t.dev.sarBusy x = some ⟨0, 16 * x + fldGet 0 4 (s.dev.rd (addr_SAR_SL_SEQ0 x)), t.dev.time + nsU 500⟩ ∧
        (∀ y c, y < 5 → s.dev.sarBusy y = some c → t.dev.sarBusy y = some c) ∧ t.dev.bit (SAR_SL_SST_BUSY x) ∧
        Frame s t ((List.range 5).map addr_SAR_SL_SST) [] [.time, .sar]) ∧
    (∀ x code, x < 5 → code < 65536 → (∀ c, s.dev.sarBusy x = some c → c.kind < 3 → c.inp < 64 →
      Runs (.conversionEnd x code) s fun t => t.dev.getF (SAR_CH_RES_CODE c.inp) = code ∧ t.dev.getF (SAR_CH_RES_SRC c.inp) = x ∧
        t.dev.getF (SAR_CH_RES_KIND c.inp) = c.kind ∧
        (t.dev.bit (SAR_CH_RES_FAILED c.inp) ↔ s.dev.getF SAR_STAT_FAILED / 2 ^ x % 2 = 1) ∧
        t.dev.rd (addr_SAR_CH_VAL c.inp) = BitVec.ofNat 32 (s.dev.sarValue x c.inp code) ∧
        (s.dev.drives → s.dev.per.running → s.dev.per.duePassed = false →
          t.dev.mw (0x60940 + c.inp) = t.dev.rd (addr_SAR_CH_VAL c.inp)) ∧
        (s.dev.drives = false → t.dev.smem = s.dev.smem) ∧
        (∀ w, w ≠ 0x60940 + c.inp → t.dev.mw w = s.dev.mw w) ∧
        Frame s t ([addr_SAR_CH_RES c.inp, addr_SAR_CH_VAL c.inp, addr_SAR_SL_SST x]) [] [.time, .smem, .sar]) ∧
      (s.dev.sarBusy x = none → Runs (.conversionEnd x code) s fun t => t = s)) ∧
    (∀ (p : Sys2Proof.Path) (v : Word), s.granted p addr_SAR_URG v →
      let n := v.toNat % 64
      let x := s.dev.sarServer (n / 16)
      let reason := if (s.dev.sarBusy x).isSome then 1 else if s.dev.sarNext ≤ s.dev.time + nsU 500 then 2 else 0
      Runs (.sarUrg p v) s fun t => Taken t p addr_SAR_URG ∧ t.dev.getF SAR_URG_STAT_AIN = n ∧
        t.dev.getF SAR_URG_STAT_REASON = reason ∧ (t.dev.bit SAR_URG_STAT_ACCEPTED ↔ reason = 0) ∧
        (reason = 0 → t.dev.sarBusy x = some ⟨2, n, s.dev.time + nsU 500⟩ ∧
          Frame s t [addr_SAR_URG_STAT, addr_SAR_SL_SST x] [] [.sar, .sent]) ∧
        (reason ≠ 0 → t.dev.bit SAR_EVT_URG_DROP ∧ t.dev.getF SAR_URG_DROP = s.dev.counted SAR_URG_DROP 1 ∧
          Frame s t ([addr_SAR_URG_STAT, addr_SAR_EVT, addr_SAR_URG_DROP] ++ satAddrs) [] [.sent])) ∧
    (∀ x, x < 5 → s.dev.getF SAR_STAT_CAL = x → 256 ≤ s.dev.sar.win →
      Runs .calWindowEnd s fun t => t.dev.getF SAR_STAT_CAL = 7 ∧ t.dev.sarBusy x = none ∧ t.dev.bit SAR_EVT_CAL_DONE ∧
        t.dev.getF SAR_CAL_WIN = s.dev.counted SAR_CAL_WIN 1 ∧
        (∀ so sg, calCoefs s.dev.sar.s0 s.dev.sar.n0 s.dev.sar.s1 s.dev.sar.n1 = some (so, sg) →
          t.dev.sar.stage = some (x, so, sg) ∧ t.dev.getF SAR_STAT_FAILED = s.dev.getF SAR_STAT_FAILED) ∧
        (calCoefs s.dev.sar.s0 s.dev.sar.n0 s.dev.sar.s1 s.dev.sar.n1 = none →
          t.dev.maskBit addr_SAR_STAT x ∧ t.dev.bit (SAR_SL_SST_FAILED x) ∧ t.dev.bit SAR_EVT_CAL_FAIL ∧
          t.dev.getF SAR_CAL_FAIL = s.dev.counted SAR_CAL_FAIL 1 ∧
          (s.dev.log.queue.length < 64 → Recorded s.dev t.dev 16 0x1002 [x])) ∧
        Frame s t ([addr_SAR_STAT, addr_SAR_SL_SST x, addr_SAR_EVT, addr_SAR_CAL_WIN, addr_SAR_CAL_FAIL] ++ logAddrs) []
          [.sar, .log, .mram]) ∧
    (7 ≤ s.dev.getF SAR_STAT_CAL ∨ s.dev.sar.win < 256 → Runs .calWindowEnd s fun t => t = s)) ∧
  (∀ s0 n0 s1 n1 so sg : Nat, 0 < n0 → calCoefs s0 n0 s1 n1 = some (so, sg) →
    2 * ((so * n0 : Nat) - (256 * s0 : Nat) : Int).natAbs ≤ n0 ∧ so ≤ 64 * 256 ∧ s0 * n1 < s1 * n0)

/-- R255, R257, R259: every comparator shows the level of R255, held active until it has settled and while the VDD_ANA monitor reports low;
an onset is seen and counted; the level goes to the trip matrix.
R258: a threshold write with both sides enabled and LO above HI is refused and counted; an accepted one is followed by its DACs one
code for each 250 ns step. The output follows (R255). -/
def Obligations.Comparators : Prop :=
  (∀ (s : State) (n : Nat), n < 24 → s.bak.main →
    let shows := fun (t : State) (k : Nat) =>
      let lo := s.dev.bit (WCM_CMP_CFG_LO_EN k)
      let hi := s.dev.bit (WCM_CMP_CFG_HI_EN k)
      let v := spGet 0 t.dev.wcm.vin k * 1024
      let level := s.dev.bit (WCM_CMP_CFG_EN k) && (lo || hi) &&
        (decide (t.dev.wcm.settled / 2 ^ k % 2 = 0) || t.dev.wcm.anaLow ||
          (lo && decide (v < (s.dev.getF (WCM_CMP_DAC_LO k) : Int) * 1800000000)) ||
          (hi && decide ((s.dev.getF (WCM_CMP_DAC_HI k) : Int) * 1800000000 < v)))
      t.dev.bit (WCM_CMP_STAT_LEVEL k) = level ∧ t.dev.maskBit addr_WCM_LEVEL k = (if level = s.dev.bit (WCM_CMP_STAT_LEVEL k) then s.dev.maskBit addr_WCM_LEVEL k else level) ∧
      (level → s.dev.bit (WCM_CMP_STAT_LEVEL k) = false →
        t.dev.maskBit addr_WCM_SEEN k ∧ t.dev.getF (WCM_ONSET k) = s.dev.counted (WCM_ONSET k) 1) ∧
      (level ≠ s.dev.bit (WCM_CMP_STAT_LEVEL k) → t.dev.maskBit addr_TRP_LEVEL0 k = level)
    (∀ nv low, Runs (.comparatorOutput n nv low) s fun t => spGet 0 t.dev.wcm.vin n = nv ∧ t.dev.wcm.anaLow = low ∧
      (∀ k, k ≠ n → spGet 0 t.dev.wcm.vin k = spGet 0 s.dev.wcm.vin k) ∧ (∀ k, k < 24 → shows t k) ∧ Outside s t) ∧
    (s.dev.bit (WCM_CMP_CFG_EN n) → Runs (.settleEnd n) s fun t => t.dev.wcm.settled / 2 ^ n % 2 = 1 ∧ shows t n ∧
      (t.dev.bit (WCM_CMP_STAT_READY n) ↔ s.dev.wcm.anaLow = false) ∧ Outside s t) ∧
    (s.dev.bit (WCM_CMP_CFG_EN n) = false → Runs (.settleEnd n) s fun t => t = s)) ∧
  (∀ (s : State) (n : Nat), n < 24 →
    (∀ (p : Sys2Proof.Path) (v : Word), s.granted p (addr_WCM_CMP_THR n) v →
      let bad := s.dev.bit (WCM_CMP_CFG_LO_EN n) ∧ s.dev.bit (WCM_CMP_CFG_HI_EN n) ∧ v.toNat / 2 ^ 16 % 1024 < v.toNat % 1024
      (bad → Runs (.wcmThrWrite p n v) s fun t => Turned s t p (addr_WCM_CMP_THR n) stR10 ∧ t.dev.bit WCM_EVT_THR_REFUSED ∧
        t.dev.getF WCM_THR_REFUSED = s.dev.counted WCM_THR_REFUSED 1 ∧
        Frame s t ([addr_WCM_EVT, addr_WCM_THR_REFUSED] ++ refAddrs) [] [.sent]) ∧
      (¬ bad → Runs (.wcmThrWrite p n v) s fun t => Taken t p (addr_WCM_CMP_THR n) ∧
        t.dev.getF (WCM_CMP_THR_HI n) = v.toNat / 2 ^ 16 % 1024 ∧ t.dev.getF (WCM_CMP_THR_LO n) = v.toNat % 1024 ∧
        t.dev.rd (addr_WCM_CMP_DAC n) = s.dev.rd (addr_WCM_CMP_DAC n) ∧
        (t.dev.bit (WCM_CMP_STAT_STEPPING n) ↔ t.dev.rd (addr_WCM_CMP_DAC n) ≠ t.dev.rd (addr_WCM_CMP_THR n)) ∧ Outside s t)) ∧
    (s.bak.main → Runs (.dacStep n) s fun t =>
      let near := fun (cur tgt new : Nat) => (cur < tgt → new = cur + 1) ∧ (tgt < cur → new + 1 = cur) ∧ (cur = tgt → new = cur)
      near (s.dev.getF (WCM_CMP_DAC_HI n)) (s.dev.getF (WCM_CMP_THR_HI n)) (t.dev.getF (WCM_CMP_DAC_HI n)) ∧
        near (s.dev.getF (WCM_CMP_DAC_LO n)) (s.dev.getF (WCM_CMP_THR_LO n)) (t.dev.getF (WCM_CMP_DAC_LO n)) ∧
        t.dev.rd (addr_WCM_CMP_THR n) = s.dev.rd (addr_WCM_CMP_THR n) ∧ Outside s t))

/-- R303, R304, R314, R317 to R320: loss of voltage, fallback boundaries, clears, the close of a demand interval, pulses and saving.
R310, R312: an energy sample moves a register by the whole units of its residue and no energy is lost or counted twice: V and W
together advance by them modulo 2^16 × 10^12, and V stays below 10^12. -/
def Obligations.MeteringEvents : Prop :=
  (∀ s : State, s.bak.main →
    (∀ m ph, m < 2 → ph < 3 →
      let ok := s.dev.mtrRuns m ∧ s.dev.mtrDc m = false ∧ ph < s.dev.mtrEls m ∧ s.dev.getF (MTR_PT_ZST_LOSS m) / 2 ^ ph % 2 = 0
      (ok → Runs (.lossOfVoltage m ph) s fun t => t.dev.getF (MTR_PT_ZST_LOSS m) = s.dev.getF (MTR_PT_ZST_LOSS m) + 2 ^ ph ∧
        t.dev.bit MTR_EVT_LOSS_V ∧ t.dev.getF MTR_LOSS_V = s.dev.counted MTR_LOSS_V 1 ∧
        (s.dev.log.queue.length < 64 → Recorded s.dev t.dev 20 0x1001 []) ∧ (t.dev.mtrPt m).dem.lossV ∧
        (t.dev.bit (MTR_PT_ZST_FALLBACK m) ↔ t.dev.getF (MTR_PT_ZST_LOSS m) = 2 ^ s.dev.mtrEls m - 1) ∧
        Frame s t ([addr_MTR_PT_ZST m, addr_MTR_STAT, addr_MTR_EVT, addr_MTR_LOSS_V] ++ logAddrs) [] [.mtr, .log, .mram]) ∧
      (¬ ok → Runs (.lossOfVoltage m ph) s fun t => t = s)) ∧
    (∀ m, m < 2 → s.dev.mtrRuns m → s.dev.mtrDc m = false → s.dev.bit (MTR_PT_ZST_FALLBACK m) → (s.dev.mtrPt m).buf = [] →
      Runs (.fallbackBoundary m) s fun t => (t.dev.mtrPt m).fbN = (s.dev.mtrPt m).fbN + 1 ∧ Frame s t [] [] [.mtr]) ∧
    (∀ (p : Sys2Proof.Path) (v : Word), s.granted p addr_MTR_ECLR v → Runs (.eclr p v) s fun t => Taken t p addr_MTR_ECLR ∧
      (∀ r, r < 32 →
        (v.toNat / 2 ^ r % 2 = 1 → spGet {} t.dev.mtr.regs r = {} ∧ t.dev.rd (addr_MTR_E_ELO r) = 0 ∧ t.dev.rd (addr_MTR_E_EHI r) = 0 ∧
          t.dev.bit MTR_EVT_CLEARED) ∧
        (v.toNat / 2 ^ r % 2 = 0 → spGet {} t.dev.mtr.regs r = spGet {} s.dev.mtr.regs r ∧
          t.dev.rd (addr_MTR_E_ELO r) = s.dev.rd (addr_MTR_E_ELO r) ∧ t.dev.rd (addr_MTR_E_EHI r) = s.dev.rd (addr_MTR_E_EHI r))) ∧
      t.dev.getF MTR_CLEARS = s.dev.counted MTR_CLEARS ((List.range 32).countP fun r => v.toNat / 2 ^ r % 2 = 1) ∧
      (∀ r, r < 32 → v.toNat = 2 ^ r → s.dev.log.queue.length < 64 →
        Recorded s.dev t.dev 20 0x1000 (words64 (spGet {} s.dev.mtr.regs r).v ++ [(spGet {} s.dev.mtr.regs r).w])) ∧
      Frame s t ((List.range 32).map addr_MTR_E_ELO ++ (List.range 32).map addr_MTR_E_EHI ++ [addr_MTR_EVT, addr_MTR_CLEARS] ++ logAddrs)
        [] [.mtr, .log, .mram, .sent]) ∧
    (∀ m, m < 2 → s.dev.mtrRuns m →
      Runs (.demandClose m) s fun t =>
        let x := (s.dev.mtrPt m).dem
        t.dev.getF (MTR_DEM_HDR_SEQ m) = (s.dev.getF (MTR_DEM_HDR_SEQ m) + 1) % 2 ^ 16 ∧ t.dev.bit (MTR_DEM_HDR_VALID m) ∧
        t.dev.bit (MTR_DEM_HDR_PARTIAL m) = x.partly ∧ t.dev.bit (MTR_DEM_HDR_STEP m) = false ∧
        t.dev.bit (MTR_DEM_HDR_NOGLOBAL m) = x.nog ∧ t.dev.bit (MTR_DEM_HDR_LOSS_V m) = x.lossV ∧
        t.dev.bit (MTR_DEM_HDR_INVALID m) = x.inv ∧ t.dev.rd (addr_MTR_DEM_START m) = BitVec.ofNat 32 x.start ∧
        t.dev.rd (addr_MTR_DEM_PIMP m) = BitVec.ofNat 32 (x.cnt.getD 0 0) ∧ t.dev.rd (addr_MTR_DEM_PEXP m) = BitVec.ofNat 32 (x.cnt.getD 1 0) ∧
        t.dev.rd (addr_MTR_DEM_QIMP m) = BitVec.ofNat 32 (x.cnt.getD 2 0) ∧ t.dev.rd (addr_MTR_DEM_QEXP m) = BitVec.ofNat 32 (x.cnt.getD 3 0) ∧
        t.dev.bit MTR_EVT_DEM_CLOSE ∧ (t.dev.mtrPt m).dem.res = x.res ∧ (t.dev.mtrPt m).dem.partly = false ∧
        (t.dev.mtrPt m).dem.cnt = ({} : MtrDem).cnt ∧ x.start < (t.dev.mtrPt m).dem.start ∧
        Frame s t [addr_MTR_DEM_HDR m, addr_MTR_DEM_START m, addr_MTR_DEM_PIMP m, addr_MTR_DEM_PEXP m, addr_MTR_DEM_QIMP m,
          addr_MTR_DEM_QEXP m, (MTR_DEM_REV_N m).addr, addr_MTR_EVT] [] [.mtr]) ∧
    (∀ q, q < 4 →
      (s.dev.getF MTR_CTRL_EN = 1 → s.dev.bit (MTR_MP_CFG_EN q) → s.dev.bit (MTR_MP_ST_PIN q) = false →
        0 < s.dev.getF (MTR_MP_ST_BKLG q) →
        Runs (.pulseStart q) s fun t => t.dev.bit (MTR_MP_ST_PIN q) ∧ t.dev.getF (MTR_MP_ST_BKLG q) + 1 = s.dev.getF (MTR_MP_ST_BKLG q) ∧
          (t.dev.getF (MTR_MP_ST_BKLG q) = 0 → t.dev.bit (MTR_MP_ST_SAT q) = false) ∧
          (∀ n, n = ((((spGet {} s.dev.mtr.pulses q).due.filter fun x => decide (s.dev.time < x.1 + nsU 1000000000)).map (·.2)).sum) →
            s.dev.getF (MTR_MP_CFG_WIDTH q) ≤ 100 →
            t.dev.getF (MTR_MP_ST_WLAST q) = if n = 0 ∨ 2 * s.dev.getF (MTR_MP_CFG_WIDTH q) ≤ 1000 / n then s.dev.getF (MTR_MP_CFG_WIDTH q)
              else max 2 (1000 / n / 2)) ∧
          t.dev.sent = ⟨.pin, 210 + q, [1]⟩ :: s.dev.sent ∧ Frame s t [addr_MTR_MP_ST q] [] [.mtr, .sent]) ∧
      (s.dev.bit (MTR_MP_ST_PIN q) →
        Runs (.pulseEnd q) s fun t => t.dev.bit (MTR_MP_ST_PIN q) = false ∧ t.dev.sent = ⟨.pin, 210 + q, [0]⟩ :: s.dev.sent ∧
          Frame s t [addr_MTR_MP_ST q] [] [.sent])) ∧
    (s.dev.getF MTR_CTRL_EN = 1 →
      (Runs (.meterSave true) s fun t => (∃ x, t.dev.mram.meter = some x ∧ x.dem = [(s.dev.mtrPt 0).dem, (s.dev.mtrPt 1).dem] ∧
          (∀ r, r < 32 → s.dev.bit (MTR_E_ECFG_EN r) → spGet {} x.regs r = spGet {} s.dev.mtr.regs r) ∧
          x.bklg = (List.range 4).map fun q => s.dev.getF (MTR_MP_ST_BKLG q)) ∧ Frame s t [] [] [.mram]) ∧
      (Runs (.meterSave false) s fun t => t.dev.bit MTR_EVT_SAVE_FAIL ∧ t.dev.getF MTR_SAVE_FAIL = s.dev.counted MTR_SAVE_FAIL 1 ∧
          Frame s t ([addr_MTR_EVT, addr_MTR_SAVE_FAIL] ++ satAddrs) [] []))) ∧
  (∀ (d : Dev) (r x : Nat), r < 32 →
    let e := spGet {} d.mtr.regs r
    let k := wholeUnits (fadd f64 e.r (fdiv f64 x (fofInt f64 ((3600 * 10 ^ d.getF (MTR_E_ECFG_UNIT r) : Nat) : Int))))
    let f := spGet {} (d.eAdd r x).mtr.regs r
    f.v < 10 ^ 12 ∧ f.w < 65536 ∧ f.r = k.2 ∧
      (((f.v + 10 ^ 12 * f.w : Nat) : Int) - ((e.v + 10 ^ 12 * e.w : Nat) : Int) - k.1) % (65536 * 10 ^ 12) = 0 ∧
      (d.eAdd r x).rd (addr_MTR_E_ELO r) = BitVec.ofNat 32 f.v ∧
      (d.eAdd r x).rd (addr_MTR_E_EHI r) = BitVec.ofNat 32 (f.w * 65536 + f.v / 2 ^ 32) ∧
      (∀ q, q ≠ r → spGet {} (d.eAdd r x).mtr.regs q = spGet {} d.mtr.regs q))

/-- R263 to R268, R270, R271: sources, pins that change, pins that become KNOWN and a low bank monitor act on the trip matrix. -/
def Obligations.TripMatrix : Prop :=
  ∀ s : State, s.bak.main →
    let lists := [addr_LNK_STAT, addr_CBK_EVT, addr_CBK_LB_INTLK, addr_TWL_HORN, addr_TWL_EVT, addr_TWL_HORNS] ++ logAddrs ++ mftAddrs ++
      (List.range 16).map fun j => (CBK_LB_STAT_PIN_A j).addr
    (∀ ss, Runs (.tripSourceActive ss) s fun t => Tripped s t ss ∧
      (∀ q ∈ ss, q < 64 → q ≠ 61 → s.dev.srcActive q = false →
        t.dev.srcBit addr_TRP_LEVEL0 addr_TRP_LEVEL1 q ∧ t.dev.srcBit addr_TRP_SEEN0 addr_TRP_SEEN1 q) ∧
      Frame s t lists [9, 18] [.cbk, .lb, .log, .mram, .mft, .sent]) ∧
    (∀ p active, p < 16 → s.dev.pinKnown p → s.dev.srcBit addr_TRP_LEVEL0 addr_TRP_LEVEL1 (24 + p) ≠ active →
      Runs (.tripPin p active) s fun t => t.dev.srcBit addr_TRP_LEVEL0 addr_TRP_LEVEL1 (24 + p) = active ∧
        (active → Tripped s t [24 + p] ∧ Frame s t lists [9, 18] [.cbk, .lb, .log, .mram, .mft, .sent]) ∧
        (active = false → Frame s t [addr_TRP_LEVEL0, addr_TRP_LEVEL1] [] [])) ∧
    (∀ p active, p < 16 → s.dev.pinKnown p = false →
      Runs (.pinKnown p active) s fun t => t.dev.pinKnown p ∧ t.dev.srcBit addr_TRP_LEVEL0 addr_TRP_LEVEL1 (24 + p) = active ∧
        (∀ q, q < 16 → q ≠ p → t.dev.pinKnown q = s.dev.pinKnown q) ∧
        (active → Tripped s t [24 + p] ∧ Frame s t lists [9, 18] [.cbk, .lb, .log, .mram, .mft, .sent]) ∧
        (active = false → Frame s t [addr_TRP_STAT, addr_TRP_LEVEL0, addr_TRP_LEVEL1] [] [])) ∧
    (Runs .bankMonitorLow s fun t => t.dev.getF TRP_STAT_KNOWN = 0 ∧ t.dev.bit TRP_EVT_UNKNOWN ∧
      t.dev.getF TRP_UNKNOWN = s.dev.counted TRP_UNKNOWN 16 ∧ Tripped s t ((List.range 16).map (24 + ·)) ∧
      (∀ p, p < 16 → t.dev.srcActive (24 + p)) ∧ Frame s t lists [9, 18] [.cbk, .lb, .log, .mram, .mft, .sent])

/-- R273, R275, R277: a written clear clears each named latched group that no active enabled source pulls and refuses the others; a group
re-arms by itself within R275's conditions; its count returns to 0 after 60 s clear. -/
def Obligations.TripClears : Prop :=
  ∀ s : State,
    (∀ (p : Sys2Proof.Path) (v : Word), s.granted p addr_TRP_CLR v → Runs (.trpClr p v) s fun t => Taken t p addr_TRP_CLR ∧ Outside s t ∧
      ∀ g, g < 16 →
        let named := v.toNat / 2 ^ g % 2 = 1
        (¬ named ∨ s.dev.isLatched g = false → t.dev.isLatched g = s.dev.isLatched g ∧
          t.dev.rd (addr_TRP_GRP_REARM g) = s.dev.rd (addr_TRP_GRP_REARM g) ∧
          t.dev.maskBit addr_TRP_CLR_STAT g = false ∧ t.dev.maskBit addr_TRP_CLR_STAT (16 + g) = false) ∧
        (named → s.dev.isLatched g → (∀ q, ¬ s.dev.pulls [] g q) → t.dev.isLatched g = false ∧
          t.dev.getF (TRP_GRP_REARM_COUNT g) = 0 ∧ t.dev.getF (TRP_GRP_REARM_EXH g) = 0 ∧ t.dev.getF (TRP_GRP_REARM_SAFSEEN g) = 0 ∧
          t.dev.maskBit addr_TRP_CLR_STAT g ∧ t.dev.bit TRP_EVT_CLR_DONE) ∧
        (∀ q, named → s.dev.isLatched g → s.dev.pulls [] g q → (∀ r, r < q → ¬ s.dev.pulls [] g r) → t.dev.isLatched g ∧
          t.dev.maskBit addr_TRP_CLR_STAT (16 + g) ∧ t.dev.bit TRP_EVT_CLR_REFUSED ∧
          (t.dev.log.queue.length < 64 → ∃ r ∈ t.dev.log.queue, r.src = 18 ∧ r.code = 0x1001 ∧ (r.pay.drop 1).take 2 = [g, q]))) ∧
    (∀ g, g < 16 → s.bak.main →
      let may := s.dev.drives ∧ s.dev.bit (TRP_GRP_REARM_EN g) ∧ s.dev.isLatched g ∧ (∀ q, ¬ s.dev.pulls [] g q) ∧
        s.dev.bit (TRP_GRP_REARM_SAFSEEN g) = false ∧ s.dev.getF (TRP_GRP_FIRST_SRC g) ≠ 0x7F
      let left := s.dev.getF (TRP_GRP_REARM_COUNT g) < s.dev.getF (TRP_GRP_REARM_TRIES g)
      (may → left → Runs (.rearm g) s fun t => t.dev.isLatched g = false ∧
        t.dev.getF (TRP_GRP_REARM_COUNT g) = s.dev.getF (TRP_GRP_REARM_COUNT g) + 1 ∧
        t.dev.getF TRP_REARMS = s.dev.counted TRP_REARMS 1 ∧ t.dev.bit TRP_EVT_REARM ∧
        t.dev.rd addr_TRP_CLR_STAT = s.dev.rd addr_TRP_CLR_STAT ∧ t.dev.bit TRP_EVT_CLR_DONE = s.dev.bit TRP_EVT_CLR_DONE ∧
        (s.dev.log.queue.length < 64 → Recorded s.dev t.dev 18 0x1003 [g]) ∧
        (∀ h, h < 16 → h ≠ g → t.dev.isLatched h = s.dev.isLatched h) ∧ Outside s t) ∧
      (may → ¬ left → s.dev.bit (TRP_GRP_REARM_EXH g) = false → Runs (.rearm g) s fun t => t.dev.bit (TRP_GRP_REARM_EXH g) ∧
        t.dev.bit TRP_EVT_REARM_EXH ∧ (s.dev.log.queue.length < 64 → Recorded s.dev t.dev 18 0x1004 []) ∧
        Frame s t ([addr_TRP_GRP_REARM g, addr_TRP_EVT] ++ logAddrs) [] [.log, .mram]) ∧
      (¬ may → Runs (.rearm g) s fun t => t = s) ∧
      (s.dev.isLatched g = false → Runs (.rearmCountReset g) s fun t => t.dev.getF (TRP_GRP_REARM_COUNT g) = 0 ∧
        t.dev.getF (TRP_GRP_REARM_EXH g) = 0 ∧ Frame s t [addr_TRP_GRP_REARM g] [] []) ∧
      (s.dev.isLatched g → Runs (.rearmCountReset g) s fun t => t = s))

/-- R279, R280, R283, R285, R288: the island's power-on, the decision that ends START, and the reads of the switches. -/
def Obligations.IslandStart : Prop :=
  ∀ (s : State) (sw : Nat), sw < 65536 → s.bak.main →
    (∀ levels sealHigh lorHigh, levels < 65536 →
      Runs (.islandPowerOn sw levels sealHigh lorHigh) s fun t => t.safState = safStart ∧ t.isl.outA = false ∧ t.isl.outB = false ∧
        t.dev.saf ∧ t.isl.getF SAF_SW_NOW = sw ∧ (t.isl.bit SAF_STAT_SEAL = !sealHigh) ∧ t.isl.bit SAF_STAT_LOR = lorHigh ∧
        t.isl.rd addr_SAF_SEAL_T = s.isl.rd addr_SAF_SEAL_T ∧ t.isl.rd addr_SAF_SEAL_N = s.isl.rd addr_SAF_SEAL_N ∧
        (∀ n, n < 8 →
          let a := levels / 2 ^ (2 * n) % 2 = 1
          let b := (levels / 2 ^ (2 * n + 1) % 2 = 1) ↔ sw / 2 ^ 15 % 2 = 0
          (a → b → t.isl.ins[n]? = some inClosed) ∧ (¬ a → ¬ b → t.isl.ins[n]? = some inOpen) ∧
            (¬ (a ↔ b) → t.isl.ins[n]? = some inOpening)) ∧ Apart s t) ∧
    (s.safClocked → s.safState = safStart → s.isl.lost = 0 →
      let ins := if swBit sw 15 = s.isl.form then s.isl.ins else s.isl.derived (swBit sw 15)
      let reason := if s.isl.getF SAF_SEAL_N_COUNT ≠ 0 then some 0x02 else if s.isl.bit SAF_SEAL_N_BAK_LOST then some 0x03
        else if sw / 2 ^ 14 % 2 = 0 then some 0x01 else if s.dev.bit BOT_STAT_SLIPWAY then some 0x0B
        else if s.isl.bit SAF_STAT_SEAL = false then some 0x04 else unhealthy sw ins
      Runs (.islandStart sw) s fun t => t.isl.getF SAF_SW_USE = sw ∧ t.isl.ins = ins ∧ Apart s t ∧
        (∀ r, reason = some r → LockedOut s t r) ∧ (reason = none → Running t) ∧
        (s.isl.getF SAF_SEAL_N_COUNT ≠ 0 → t.isl.bit SAF_EVT_SEAL_BRK)) ∧
    (s.safState ≠ safStart ∨ s.isl.lost ≠ 0 → Runs (.islandStart sw) s fun t => t = s) ∧
    (s.safClocked →
      (s.safState = safStart ∨ (s.isl.use ≠ sw ∧ (s.isl.swN = 0 ∨ s.isl.bit SAF_STAT_SW_PEND)) →
        Runs (.switchRead sw) s fun t => t.isl.getF SAF_SW_NOW = sw ∧ t.isl.use = s.isl.use ∧
          t.isl.rd addr_SAF_STAT = s.isl.rd addr_SAF_STAT ∧ t.dev = s.dev ∧ Apart s t) ∧
      (s.safState ≠ safStart → s.isl.use = sw → Runs (.switchRead sw) s fun t => t.isl.bit SAF_STAT_SW_PEND = false ∧
        t.isl.swN = 0 ∧ t.safState = s.safState ∧ t.dev = s.dev ∧ Apart s t) ∧
      (s.safState ≠ safStart → s.isl.use ≠ sw → 0 < s.isl.swN → s.isl.bit SAF_STAT_SW_PEND = false →
        Runs (.switchRead sw) s fun t => t.isl.bit SAF_STAT_SW_PEND ∧ t.isl.bit SAF_EVT_SW_CHANGE ∧
          t.isl.getF SAF_SW_CHANGE = min (s.isl.getF SAF_SW_CHANGE + 1) (2 ^ 32 - 1) ∧ t.isl.use = s.isl.use ∧
          (s.safRuns → LockedOut s t 0x05) ∧ (s.safState ≠ safRun → t.safState = s.safState) ∧ Apart s t))

/-- R285 to R287, R290: an input moves as R285's table says; leaving CLOSED is a demand of an enabled input other than the key; a
discrepancy is a fault; a LOR press is accepted, refused with its reason, or ignored. -/
def Obligations.SafetyInputs : Prop :=
  ∀ s : State, s.safClocked → s.isl.ins.length = 8 →
    (∀ n a b, n < 8 →
      let st := s.isl.ins.getD n inOpen
      let cA := a
      let cB := b != s.isl.form
      let new :=
        if cA && cB && decide (st ≠ inDiscrepant) then inClosed
        else if !cA && !cB then inOpen
        else if st = inClosed then inOpening
        else if st = inOpen then inClosing
        else st
      let demand := st = inClosed ∧ new ≠ inClosed ∧ swBit s.isl.use n ∧ keyInput s.isl.use n = false
      st ≤ inDiscrepant → Runs (.safetyInput n a b) s fun t => t.isl.ins[n]? = some new ∧ (∀ k, k ≠ n → t.isl.ins[k]? = s.isl.ins[k]?) ∧
        (demand → s.safRuns → LockedOut s t (0x10 + n)) ∧ (¬ demand → t.safState = s.safState) ∧
        t.isl.bit SAF_STAT_KEY = t.isl.keyActive ∧
        (t.isl.bit SAF_STAT_KEY ≠ s.isl.bit SAF_STAT_KEY → t.isl.bit SAF_EVT_KEY_CHG ∧ t.dev.bit MGT_STAT_MAINT_OK = t.isl.bit SAF_STAT_KEY) ∧
        Apart s t) ∧
    (∀ n, n < 8 →
      let st := s.isl.ins.getD n inOpen
      ((st = inOpening ∨ st = inClosing) → Runs (.discrepancyTimeout n) s fun t => t.isl.ins[n]? = some inDiscrepant ∧
        (swBit s.isl.use n → t.isl.bit SAF_EVT_DISCREP ∧ t.isl.getF SAF_DISCREP = min (s.isl.getF SAF_DISCREP + 1) (2 ^ 32 - 1) ∧
          (s.safRuns → LockedOut s t (0x18 + n))) ∧
        (swBit s.isl.use n = false → t.safState = s.safState ∧ t.dev = s.dev) ∧ Apart s t) ∧
      (st ≠ inOpening → st ≠ inClosing → Runs (.discrepancyTimeout n) s fun t => t = s)) ∧
    (∀ cycles sw ballA ballB, sw < 65536 → s.isl.lorHeld = false →
      (5 * cycles < 32768 → Runs (.lorPress cycles sw ballA ballB) s fun t => t = s) ∧
      (32768 ≤ 5 * cycles →
        let ins := if sw = s.isl.use then s.isl.ins else s.isl.derived (swBit sw 15)
        let reason := if s.safState ≠ safLockout then 5 else if 5 * 32768 < cycles then 3 else if s.dev.bit BOT_STAT_SLIPWAY then 4
          else if (unhealthy sw ins).isSome then 1 else if s.isl.bit SAF_STAT_SEAL = false then 2
          else if ballA ∨ ballB ∨ s.isl.lost ≠ 0 then 6 else 0
        Runs (.lorPress cycles sw ballA ballB) s fun t => t.isl.getF SAF_LOR_REASON = reason ∧
          (t.isl.bit SAF_LOR_ACCEPTED ↔ reason = 0) ∧ t.isl.getF SAF_LOR_DUR = min 8191 (cycles * 1000 / 32768) ∧
          (reason = 0 → Running t ∧ t.isl.use = sw ∧ t.isl.ins = ins ∧ t.isl.bit SAF_STAT_SW_PEND = false) ∧
          (reason ≠ 0 → t.safState = s.safState ∧ t.isl.use = s.isl.use ∧ t.isl.ins = s.isl.ins ∧ t.isl.bit SAF_EVT_LOR_REFUSED ∧
            t.isl.getF SAF_LOR_REFUSED = min (s.isl.getF SAF_LOR_REFUSED + 1) (2 ^ 32 - 1)) ∧ Apart s t)) ∧
    (∀ cycles sw ballA ballB, s.isl.lorHeld → Runs (.lorPress cycles sw ballA ballB) s fun t => t.isl.lorHeld = false ∧
      t.safState = s.safState ∧ t.dev = s.dev ∧ Apart s t)

/-- R291: test pulses, readback, cross-comparison, loss of AOC and a low supply; while a cause lasts the outputs are low, source 61 is
active and the state is kept; when the last cause ends the island enters LOCKOUT with its reason.
R292 to R294: a seal break is stored, also by the watch while main power is absent, and demands in RUN; SEAL_CLR clears the record while
the seal is intact and is refused otherwise; DEMAND acts in RUN only. -/
def Obligations.SelfChecksAndSeal : Prop :=
  (∀ s : State, s.bak.main →
    (∀ chB, s.safRuns →
      (Runs (.testPulse chB true) s fun t => t.isl = s.isl ∧
        t.dev.sent = ⟨.pin, 201 + b2n chB, [1]⟩ :: ⟨.pin, 201 + b2n chB, [0]⟩ :: s.dev.sent ∧ Frame s t [] [] [.sent]) ∧
      (Runs (.testPulse chB false) s fun t => LockedOut s t 0x06 ∧ t.isl.bit SAF_EVT_OUT_FAULT ∧
        t.isl.getF SAF_OUT_FAULT = min (s.isl.getF SAF_OUT_FAULT + 1) (2 ^ 32 - 1) ∧ Apart s t) ∧
      (Runs (.safeoffReadbackFault chB) s fun t => LockedOut s t 0x06 ∧ t.isl.bit SAF_EVT_OUT_FAULT ∧
        t.isl.getF SAF_OUT_FAULT = min (s.isl.getF SAF_OUT_FAULT + 1) (2 ^ 32 - 1) ∧ Apart s t)) ∧
    (s.safRuns → Runs .crossComparisonFault s fun t => LockedOut s t 0x07 ∧ Apart s t) ∧
    (s.safState ≠ safRun → ∀ chB low, Runs (.testPulse chB low) s fun t => t = s) ∧
    (s.isl.lost % 2 = 0 → Runs .aocLoss s fun t => t.isl.lost = s.isl.lost + 1 ∧ t.safState = s.safState ∧ t.isl.outA = false ∧
      t.isl.outB = false ∧ t.dev.saf ∧ t.dev.bit CRG_STAT_AOC_OK = false ∧ Apart s t) ∧
    (s.isl.lost < 2 → Runs .islandSupplyLow s fun t => t.isl.lost = s.isl.lost + 2 ∧ t.safState = s.safState ∧ t.isl.outA = false ∧
      t.isl.outB = false ∧ t.dev.saf ∧ Apart s t) ∧
    (∀ supply : Bool, let bit := if supply then 2 else 1
      (s.isl.lost = bit → s.safState ≠ safLockout → Runs (.faultCauseEnd supply) s fun t => t.isl.lost = 0 ∧
        LockedOut s t (if supply then 0x09 else 0x08) ∧ Apart s t) ∧
      (s.isl.lost = bit → s.safState = safLockout → Runs (.faultCauseEnd supply) s fun t => t.isl.lost = 0 ∧
        t.isl.rd addr_SAF_STAT = s.isl.rd addr_SAF_STAT ∧ Apart s t) ∧
      (s.isl.lost = 3 → Runs (.faultCauseEnd supply) s fun t => t.isl.lost = 3 - bit ∧ t.safState = s.safState ∧
        t.isl.outA = s.isl.outA ∧ t.isl.outB = s.isl.outB ∧ Apart s t))) ∧
  (∀ s : State,
    let stored := fun t : State => t.isl.getF SAF_SEAL_N_COUNT = min 255 (s.isl.getF SAF_SEAL_N_COUNT + 1) ∧
      t.isl.getF SAF_SEAL_T_S = (if s.isl.getF SAF_SEAL_N_COUNT = 0 then s.dev.brtc / 32768 % 2 ^ 32 else s.isl.getF SAF_SEAL_T_S)
    (s.safClocked → s.isl.bit SAF_STAT_SEAL → Runs .sealBreak s fun t => t.isl.bit SAF_STAT_SEAL = false ∧ stored t ∧
      t.isl.bit SAF_EVT_SEAL_BRK ∧ (s.safRuns → LockedOut s t 0x04) ∧ (s.safState ≠ safRun → t.safState = s.safState ∧ t.dev = s.dev) ∧
      Apart s t) ∧
    (s.isl.bit SAF_STAT_SEAL = false → Runs .sealBreak s fun t => t = s) ∧
    (s.safClocked → Runs .sealIntact s fun t => t.isl.bit SAF_STAT_SEAL ∧ t.isl.rd addr_SAF_SEAL_N = s.isl.rd addr_SAF_SEAL_N ∧
      t.safState = s.safState ∧ t.dev = s.dev ∧ Apart s t) ∧
    (∀ high, s.bak.main → Runs (.sealWatchPulse high) s fun t => t = s) ∧
    (s.bak.main = false →
      (Runs (.sealWatchPulse true) s fun t => t.dev = s.dev ∧ Apart s t ∧ t.isl.sealN = min 2 (s.isl.sealN + 1) ∧
        (s.isl.sealN = 1 → stored t) ∧
        (s.isl.sealN ≠ 1 → t.isl.regs = s.isl.regs)) ∧
      (Runs (.sealWatchPulse false) s fun t => t = { s with isl := { s.isl with sealN := 0 } })) ∧
    (∀ p : Sys2Proof.Path,
      (s.granted p addr_SAF_CTRL 2 → s.isl.bit SAF_STAT_SEAL → Runs (.sealClr p) s fun t => Taken t p addr_SAF_CTRL ∧
        t.isl.rd addr_SAF_SEAL_N = 0 ∧ t.isl.rd addr_SAF_SEAL_T = 0 ∧ t.safState = s.safState ∧
        (s.dev.log.queue.length < 64 → Recorded s.dev t.dev 19 0x300D
          [s.isl.getF SAF_SEAL_N_COUNT, (s.isl.rd addr_SAF_SEAL_N).toNat / 256, (s.isl.rd addr_SAF_SEAL_T).toNat]) ∧
        Within (Regs logAddrs []) [.log, .mram, .sent] s.dev t.dev ∧ Apart s t) ∧
      (s.granted p addr_SAF_CTRL 2 → s.isl.bit SAF_STAT_SEAL = false → Runs (.sealClr p) s fun t => Turned s t p addr_SAF_CTRL stR10 ∧
        Frame s t refAddrs [] [.sent]) ∧
      (s.granted p addr_SAF_CTRL 1 → s.safRuns → Runs (.safDemand p) s fun t => Taken t p addr_SAF_CTRL ∧ LockedOut s t 0x0A ∧ Apart s t) ∧
      (s.granted p addr_SAF_CTRL 1 → s.safState ≠ safRun → Runs (.safDemand p) s fun t => Taken t p addr_SAF_CTRL ∧
        Frame s t [] [] [.sent])))

/-- R325, R327, R487: links, the redundant pair of ports with its node table and duplicate discard, and discarded frames. -/
def Obligations.Ports : Prop :=
  ∀ s : State, s.bak.main →
    (∀ port los, 1 ≤ port → port ≤ 3 →
      (s.dev.linkUp port → Runs (.linkDown port los) s fun t => t.dev.linkUp port = false ∧
        (∀ q, 1 ≤ q → q ≤ 3 → q ≠ port → t.dev.linkUp q = s.dev.linkUp q) ∧ t.dev.bit NET_EVT_LINK_DOWN ∧
        (port ≤ 2 → s.dev.log.queue.length < 64 → Recorded s.dev t.dev 6 0x1000 []) ∧
        Frame s t ([addr_NET_STAT2, addr_NET_EVT] ++ logAddrs) [] [.net, .log, .mram]) ∧
      (s.dev.linkUp port = false → Runs (.linkDown port los) s fun t => Frame s t [] [] [.net])) ∧
    (∀ port speed, 1 ≤ port → port ≤ 3 → speed < 3 → s.dev.linkUp port = false →
      (s.dev.portUsed port → Runs (.linkUp port speed) s fun t => t.dev.linkUp port ∧
        (∀ q, 1 ≤ q → q ≤ 3 → q ≠ port → t.dev.linkUp q = s.dev.linkUp q) ∧ t.dev.bit NET_EVT_LINK_UP ∧
        (port = 3 → t.dev.getF NET_STAT_P3_SPEED = speed) ∧
        Frame s t [addr_NET_STAT, addr_NET_STAT2, addr_NET_EVT] [] [.net]) ∧
      (s.dev.portUsed port = false → Runs (.linkUp port speed) s fun t => Frame s t [] [] [.net])) ∧
    (Runs .supervisionSend s fun t =>
      t.dev.sent = (if s.dev.portOn 2 then [⟨.supervision, 2, [s.dev.net.seq]⟩] else []) ++
        (if s.dev.portOn 1 then [⟨.supervision, 1, [s.dev.net.seq]⟩] else []) ++ s.dev.sent ∧
      t.dev.net.seq = (s.dev.net.seq + 1) % 65536 ∧ Frame s t ([addr_NET_TX 0, addr_NET_TX 1] ++ satAddrs) [] [.net, .sent]) ∧
    (∀ (e : EthRx) (q : Nat) (own : Bool), e.port = 1 ∨ e.port = 2 → s.dev.portOn e.port → e.rct = some (q, own) →
      Runs (.supervisionFrame e) s fun t =>
        let known := e.src ∈ s.dev.net.nodes
        t.dev.getF (NET_RX (e.port - 1)) = s.dev.counted (NET_RX (e.port - 1)) 1 ∧
        (own = false → t.dev.bit NET_EVT_WRONG_LAN ∧
          (e.port = 1 → t.dev.getF NET_WRONGLAN_A = s.dev.counted NET_WRONGLAN_A 1) ∧
          (e.port = 2 → t.dev.getF NET_WRONGLAN_B = s.dev.counted NET_WRONGLAN_B 1)) ∧
        (known → t.dev.net.nodes = s.dev.net.nodes) ∧
        (¬ known → s.dev.net.nodes.length < 256 → t.dev.net.nodes = e.src :: s.dev.net.nodes ∧
          t.dev.getF NET_STAT_NODES = s.dev.net.nodes.length + 1) ∧
        (¬ known → 256 ≤ s.dev.net.nodes.length → t.dev.net = s.dev.net) ∧
        (known → (e.src, q) ∈ s.dev.net.dups → t.dev.net.dups = s.dev.net.dups ∧
          t.dev.getF NET_DUPLICATES = s.dev.counted NET_DUPLICATES 1) ∧
        (known → (e.src, q) ∉ s.dev.net.dups → t.dev.net.dups = (e.src, q) :: s.dev.net.dups ∧
          t.dev.getF NET_DUPLICATES = s.dev.getF NET_DUPLICATES) ∧
        Frame s t ([addr_NET_RX (e.port - 1), addr_NET_EVT, addr_NET_STAT, addr_NET_WRONGLAN_A, addr_NET_WRONGLAN_B,
          addr_NET_DUPLICATES] ++ satAddrs) [] [.net]) ∧
    (∀ mac seq,
      (Runs (.nodeForget mac) s fun t => mac ∉ t.dev.net.nodes ∧ (∀ x, x ≠ mac → (x ∈ t.dev.net.nodes ↔ x ∈ s.dev.net.nodes)) ∧
        (∀ x q, (x, q) ∈ t.dev.net.dups ↔ (x, q) ∈ s.dev.net.dups ∧ x ≠ mac) ∧
        (s.dev.net.nodes.length ≤ 256 → t.dev.getF NET_STAT_NODES = t.dev.net.nodes.length) ∧ Frame s t [addr_NET_STAT] [] [.net]) ∧
      (Runs (.entryForget mac seq) s fun t => t.dev.net.nodes = s.dev.net.nodes ∧
        (∀ x, x ∈ t.dev.net.dups ↔ x ∈ s.dev.net.dups ∧ x ≠ (mac, seq)) ∧ Frame s t [] [] [.net])) ∧
    (∀ port, s.dev.portOn port →
      (Runs (.filteredFrame port 0) s fun t => t.dev.getF NET_OVERSIZE = s.dev.counted NET_OVERSIZE 1 ∧ t.dev.bit NET_EVT_OVERSIZE ∧
        Frame s t ([addr_NET_RX (port - 1), addr_NET_OVERSIZE, addr_NET_EVT] ++ satAddrs) [] []) ∧
      (Runs (.filteredFrame port 1) s fun t => t.dev.getF (NET_FILTERED (port - 1)) = s.dev.counted (NET_FILTERED (port - 1)) 1 ∧
        Frame s t ([addr_NET_RX (port - 1), addr_NET_FILTERED (port - 1)] ++ satAddrs) [] []) ∧
      (Runs (.filteredFrame port 2) s fun t =>
        (s.dev.getF (NET_PCFG_STORM (port - 1)) ≠ 0 → t.dev.bit NET_EVT_STORM ∧
          t.dev.getF (NET_STORM_DROP (port - 1)) = s.dev.counted (NET_STORM_DROP (port - 1)) 1) ∧
        Frame s t ([addr_NET_RX (port - 1)] ++ satAddrs ++
          if s.dev.getF (NET_PCFG_STORM (port - 1)) = 0 then [] else [addr_NET_STORM_DROP (port - 1), addr_NET_EVT]) [] []))

/-- R329 to R336: a published frame carries its smpCnt on both ports; the states of a subscription, its gaps and late samples, and what
an accepted sample puts into its slots. -/
def Obligations.SampledValues : Prop :=
  ∀ s : State, s.bak.main →
    (∀ n smp, n < 8 →
      let on := s.dev.bit (SVX_PUB_CFG_EN n) && (s.dev.drives || !s.dev.bit (SVX_PUB_CFG_PAIRMODE n))
      let na := s.dev.getF (SVX_PUB_CFG_NASDU n)
      let j := spGet 0 s.dev.svx.pub n
      Runs (.svPublish n smp) s fun t => spGet 0 t.dev.svx.pub n = j + na ∧
        (on → 0 < na → t.dev.getF (SVX_PUB_ST_SMPCNT n) = (j + na - 1) % svRateOf (s.dev.bit (SVX_PUB_CFG_RATE n)) ∧
          t.dev.getF (SVX_PUB_ST_SMPSYNCH n) = s.dev.getF TBS_STAT_SYNC_Q ∧
          ∀ p, p = 1 ∨ p = 2 → s.dev.portOn p →
            ∃ ws, ⟨.sampledValue, p, s.dev.net.seq :: n :: s.dev.getF TBS_STAT_SYNC_Q :: ws⟩ ∈ t.dev.sent) ∧
        (on = false → t.dev.sent = s.dev.sent) ∧
        Frame s t ([addr_SVX_PUB_ST n, addr_NET_TX 0, addr_NET_TX 1, addr_MOD_STAT, addr_MOD_EVT, addr_MOD_STUCK] ++ satAddrs) []
          [.mod, .svx, .net, .sent, .freeCtr]) ∧
    (∀ m, m < 32 →
      (s.dev.svState m = 1 → Runs (.svTimeout m) s fun t => t.dev.svState m = 0 ∧
        Frame s t [addr_SVX_SUB_ST m, addr_SVX_SUBVALID, addr_SVX_SUBLOST] [] []) ∧
      (s.dev.svState m = 2 → Runs (.svTimeout m) s fun t => t.dev.svState m = 3 ∧ t.dev.maskBit addr_SVX_SUBLOST m ∧
        t.dev.maskBit addr_SVX_SUBVALID m = false ∧ t.dev.bit SVX_EVT_LOST ∧
        t.dev.getF (SVX_SUB_LOSTN m) = s.dev.counted (SVX_SUB_LOSTN m) 1 ∧ t.dev.getF SVX_LOST = s.dev.counted SVX_LOST 1 ∧
        (s.dev.log.queue.length < 64 → Recorded s.dev t.dev 7 0x1000 []) ∧
        Frame s t ([addr_SVX_SUB_ST m, addr_SVX_SUBVALID, addr_SVX_SUBLOST, addr_SVX_EVT, (SVX_SUB_LOSTN m).addr, addr_SVX_LOST] ++ logAddrs)
          [] [.log, .mram]) ∧
      (s.dev.svState m = 0 ∨ s.dev.svState m = 3 → Runs (.svTimeout m) s fun t => t = s)) ∧
    (∀ (f : SvFrame) (m : Nat), f.eth.src < 2 ^ 48 → s.dev.svTo f m →
      (s.dev.getF (SVX_SUB_HASH m) ≠ f.hash → Runs (.svFrame f) s fun t =>
        t.dev.getF (SVX_SUB_FOREIGN m) = s.dev.counted (SVX_SUB_FOREIGN m) 1 ∧
        Frame s t ([addr_NET_RX (f.eth.port - 1), addr_SVX_SUB_FOREIGN m] ++ satAddrs) [] []) ∧
      (s.dev.getF (SVX_SUB_HASH m) = f.hash → s.dev.getF (SVX_SUB_CONF m) ≠ f.confRev → Runs (.svFrame f) s fun t =>
        t.dev.getF (SVX_SUB_CONFREV m) = s.dev.counted (SVX_SUB_CONFREV m) 1 ∧ t.dev.bit SVX_EVT_CONFREV ∧
        Frame s t ([addr_NET_RX (f.eth.port - 1), (SVX_SUB_CONFREV m).addr, addr_SVX_EVT] ++ satAddrs) [] []) ∧
      (s.dev.svFits f m →
        (s.dev.svState m = 0 ∨ s.dev.svState m = 3 → 1 < s.dev.getF (SVX_SUB_CFG_LEARN_N m) → Runs (.svFrame f) s fun t =>
          t.dev.svState m = 1 ∧ t.dev.svSource m = f.eth.src ∧ (t.dev.svSub m).learn = 1 ∧ Outside s t) ∧
        (s.dev.svState m = 1 → Runs (.svFrame f) s fun t =>
          let rate := svRateOf (s.dev.bit (SVX_SUB_CFG_RATE m))
          let next := s.dev.svSource m = f.eth.src ∧ f.asdus.head?.map (·.1) = some (((s.dev.svSub m).lastCnt + 1) % rate)
          let n := if next then (s.dev.svSub m).learn + 1 else 1
          (n < s.dev.getF (SVX_SUB_CFG_LEARN_N m) → t.dev.svState m = 1 ∧ (t.dev.svSub m).learn = n) ∧
          (s.dev.getF (SVX_SUB_CFG_LEARN_N m) ≤ n → t.dev.svState m = 2 ∧ t.dev.bit SVX_EVT_VALID ∧
            (t.dev.svSub m).src = some f.eth.src) ∧
          t.dev.svSource m = f.eth.src ∧ Outside s t) ∧
        (s.dev.svState m = 2 → s.dev.svSource m ≠ f.eth.src → Runs (.svFrame f) s fun t => t.dev.svState m = 2 ∧
          t.dev.getF (SVX_SUB_CONFLICT m) = s.dev.counted (SVX_SUB_CONFLICT m) 1 ∧
          Frame s t ([addr_NET_RX (f.eth.port - 1), (SVX_SUB_FRAMES m).addr, addr_SVX_SUB_ST m, (SVX_SUB_CONFLICT m).addr] ++ satAddrs)
            [] []) ∧
        (∀ c ch, s.dev.svState m = 2 → s.dev.svSource m = f.eth.src → f.asdus = [(c, ch)] → Runs (.svFrame f) s fun t =>
          let rate := svRateOf (s.dev.bit (SVX_SUB_CFG_RATE m))
          let g := (c + rate - (s.dev.svSub m).e % rate) % rate
          (rate / 2 ≤ g → t.dev.getF (SVX_SUB_LATE m) = s.dev.counted (SVX_SUB_LATE m) 1 ∧ (t.dev.svSub m).e = (s.dev.svSub m).e ∧
            t.dev.svx.slots = s.dev.svx.slots) ∧
          (g < rate / 2 → (t.dev.svSub m).e = (c + 1) % rate ∧ t.dev.getF (SVX_SUB_ST_SMPCNT m) = c ∧
            t.dev.getF (SVX_SUB_GAP m) = s.dev.counted (SVX_SUB_GAP m) g ∧ (0 < g → t.dev.bit SVX_EVT_GAP) ∧
            ∀ i, i < 256 → s.dev.bit (SVX_SLOT_CFG_EN i) → s.dev.getF (SVX_SLOT_CFG_STREAM i) = m →
              let r := s.dev.slotOf i f.smpSynch ch
              (spGet {} t.dev.svx.slots i).ok = r.1 ∧ (r.1 → (spGet {} t.dev.svx.slots i).val = r.2.1)) ∧
          t.dev.svState m = 2 ∧ Outside s t)))

/-- R341, R343 to R345: a scan announces each changed control block with the next stNum and sqNum 0, a repeat with the next sqNum; the
states of a GOOSE subscription and what each message does. -/
def Obligations.Goose : Prop :=
  ∀ s : State, s.bak.main →
    (Runs .gooseScan s fun t =>
      Frame s t ([addr_NET_TX 0, addr_NET_TX 1] ++ (List.range 16).map addr_GSE_PUB_STNUM ++ (List.range 16).map addr_GSE_PUB_SQNUM ++
        satAddrs) [] [.gse, .net, .sent] ∧
      ∀ n, n < 16 →
        let live := s.dev.bit (GSE_PUB_CFG_EN n) && (s.dev.drives || !s.dev.bit (GSE_PUB_CFG_PAIRMODE n))
        let now := (List.range (s.dev.getF (GSE_PUB_CFG_NELEM n))).map fun j =>
          s.dev.gseElem (decide (s.safState = safRun)) (s.isl.bit SAF_STAT_KEY) (s.dev.getF (GSE_ELEM_SRC n j))
        (live → (s.dev.gsePub n).data ≠ some now → t.dev.getF (GSE_PUB_SQNUM n) = 0 ∧
          t.dev.getF (GSE_PUB_STNUM n) = (if s.dev.getF (GSE_PUB_STNUM n) = 2 ^ 32 - 1 then 1 else s.dev.getF (GSE_PUB_STNUM n) + 1) ∧
          t.dev.gsePub n = ⟨some now, s.dev.time, 0⟩) ∧
        (live = false ∨ (s.dev.gsePub n).data = some now → t.dev.getF (GSE_PUB_SQNUM n) = s.dev.getF (GSE_PUB_SQNUM n) ∧
          t.dev.getF (GSE_PUB_STNUM n) = s.dev.getF (GSE_PUB_STNUM n) ∧ t.dev.gsePub n = s.dev.gsePub n)) ∧
    (∀ n, n < 16 → s.dev.bit (GSE_PUB_CFG_EN n) → s.dev.drives → (s.dev.gsePub n).data.isSome →
      Runs (.gooseRepeat n) s fun t =>
        t.dev.getF (GSE_PUB_SQNUM n) = (if s.dev.getF (GSE_PUB_SQNUM n) = 2 ^ 32 - 1 then 1 else s.dev.getF (GSE_PUB_SQNUM n) + 1) ∧
        t.dev.getF (GSE_PUB_STNUM n) = s.dev.getF (GSE_PUB_STNUM n) ∧ (t.dev.gsePub n).reps = (s.dev.gsePub n).reps + 1 ∧
        (∀ p, p = 1 ∨ p = 2 → s.dev.portOn p →
          ∃ ws, ⟨.goose, p, s.dev.net.seq :: n :: s.dev.getF (GSE_PUB_STNUM n) :: t.dev.getF (GSE_PUB_SQNUM n) :: ws⟩ ∈ t.dev.sent) ∧
        Frame s t ([addr_NET_TX 0, addr_NET_TX 1, addr_GSE_PUB_SQNUM n] ++ satAddrs) [] [.gse, .net, .sent]) ∧
    (∀ (g : GooseMsg) (m : Nat), s.dev.gooseTo g m →
      (s.dev.getF (GSE_SUB_CONF m) ≠ g.confRev → Runs (.gooseMessage g) s fun t =>
        t.dev.getF GSE_CONFREV = s.dev.counted GSE_CONFREV 1 ∧
        Frame s t ([addr_NET_RX (g.eth.port - 1), GSE_CONFREV.addr] ++ satAddrs) [] []) ∧
      (s.dev.getF (GSE_SUB_CONF m) = g.confRev → g.ndsCom → Runs (.gooseMessage g) s fun t =>
        t.dev.getF GSE_NDSCOM = s.dev.counted GSE_NDSCOM 1 ∧
        Frame s t ([addr_NET_RX (g.eth.port - 1), GSE_NDSCOM.addr] ++ satAddrs) [] []) ∧
      (s.dev.getF (GSE_SUB_CONF m) = g.confRev → g.ndsCom = false → g.test = false → g.sim = false →
        s.dev.bit (GSE_SUB_CFG_VCHK m) = false → s.dev.gseTypesOk m g →
        let st := s.dev.getF (GSE_SUB_STNUM m)
        let sq := s.dev.getF (GSE_SUB_SQNUM m)
        let next := if st = 2 ^ 32 - 1 then 1 else st + 1
        let taken := fun t : State => t.dev.gseState m = 2 ∧ t.dev.rd (addr_GSE_SUB_STNUM m) = BitVec.ofNat 32 g.stNum ∧
          t.dev.rd (addr_GSE_SUB_SQNUM m) = BitVec.ofNat 32 g.sqNum ∧ t.dev.rd (addr_GSE_SUB_TAL m) = BitVec.ofNat 32 g.tal ∧
          spGet [] t.dev.gse.data m = g.data ∧ (∀ k, k < 64 → t.dev.gb k = t.dev.gbLevel k) ∧ Outside s t
        (s.dev.gseState m ≠ 2 → Runs (.gooseMessage g) s fun t => taken t ∧ t.dev.bit GSE_EVT_VALID) ∧
        (s.dev.gseState m = 2 → g.stNum = next → Runs (.gooseMessage g) s fun t => taken t ∧
          t.dev.getF GSE_SEQ_ERR = s.dev.getF GSE_SEQ_ERR) ∧
        (s.dev.gseState m = 2 → g.stNum ≠ next → g.stNum ≠ st → Runs (.gooseMessage g) s fun t => taken t ∧
          t.dev.getF GSE_SEQ_ERR = s.dev.counted GSE_SEQ_ERR 1 ∧ t.dev.bit GSE_EVT_SEQ_ERR) ∧
        (s.dev.gseState m = 2 → g.stNum = st → serialAfter 32 g.sqNum sq → Runs (.gooseMessage g) s fun t =>
          t.dev.rd (addr_GSE_SUB_SQNUM m) = BitVec.ofNat 32 g.sqNum ∧ t.dev.rd (addr_GSE_SUB_TAL m) = BitVec.ofNat 32 g.tal ∧
          t.dev.gse.data = s.dev.gse.data ∧
          (spGet [] s.dev.gse.data m ≠ g.data → t.dev.getF GSE_INCONS = s.dev.counted GSE_INCONS 1 ∧ t.dev.bit GSE_EVT_INCONS) ∧
          Frame s t ([addr_NET_RX (g.eth.port - 1), addr_GSE_SUB_SQNUM m, addr_GSE_SUB_TAL m, addr_GSE_INCONS, addr_GSE_EVT] ++ satAddrs)
            [] []) ∧
        (s.dev.gseState m = 2 → g.stNum = st → serialAfter 32 g.sqNum sq = false → Runs (.gooseMessage g) s fun t =>
          Frame s t (addr_NET_RX (g.eth.port - 1) :: satAddrs) [] []))) ∧
    (∀ m, m < 128 →
      (s.dev.gseState m = 2 → Runs (.gooseTalExpiry m) s fun t => t.dev.gseState m = 3 ∧ t.dev.bit GSE_EVT_LOST ∧
        t.dev.getF GSE_LOST = s.dev.counted GSE_LOST 1 ∧
        (t.dev.log.queue.length < 64 → ∃ r ∈ t.dev.log.queue, r.src = 8 ∧ r.code = 0x1000) ∧
        (∀ k, k < 64 → s.dev.getF (GSE_GB_SUB k) = m → t.dev.gb k = false) ∧ Outside s t) ∧
      (s.dev.gseState m ≠ 2 → Runs (.gooseTalExpiry m) s fun t => t = s))

/-- R351, R353, R359, R360, R362 to R364: what arrives over the mooring link, and the deadline at which a partner is judged lost. (Rounding of
the mean crossing time: free, log entry 3.) -/
def Obligations.MooringLink : Prop :=
  ∀ s : State, s.bak.main → s.dev.paired →
    (∀ f : PairFrame, f.state ≤ 5 → f.epoch < 65536 →
      (s.dev.bondState ≠ 2 → Runs (.pairFrame f) s fun t => t = s) ∧
      (s.dev.quiet → s.dev.bondState = 2 → Runs (.pairFrame f) s fun t =>
        let ok := f.roleB ≠ s.dev.bit MOR_STAT_ROLE ∧ f.stepping = fldGet 16 8 (s.dev.rd addr_MGT_ID) ∧
          f.fw = s.dev.getF BOT_FWVER ∧ f.ident = s.dev.mor.ident
        t.dev.getF MOR_PEER_STATE = f.state ∧ t.dev.getF MOR_PEER_EPOCH = f.epoch ∧ (t.dev.bit MOR_PEER_PAIR_OK ↔ ok) ∧
        (¬ ok → t.dev.bit MOR_EVT_PAIR_FAULT ∧ t.dev.getF MOR_PAIR_FAULT = s.dev.counted MOR_PAIR_FAULT 1 ∧
          (t.dev.log.queue.length < 64 → ∃ r ∈ t.dev.log.queue, r.src = 21 ∧ r.code = 0x1009)) ∧
        (ok → s.dev.morState = morStart → f.state = morHolder → t.dev.morState = morSync ∧ t.dev.getF MOR_SYNC_PHASE = 1) ∧
        (ok → s.dev.morState = morStart → f.state = morStart → s.dev.bit MOR_STAT_ROLE = false → t.dev.morState = morHolder ∧
          t.dev.getF MOR_STAT_EPOCH = nextEpoch (epochMax (epochMax (s.dev.getF MOR_STAT_EPOCH) f.epoch) s.dev.mor.tlmMax)) ∧
        (ok → s.dev.morState = morStart → f.state = morStart → s.dev.bit MOR_STAT_ROLE → t.dev.morState = morStart) ∧ Outside s t)) ∧
    (s.dev.quiet → s.dev.bondState = 2 → (∀ m, m < 4 → s.dev.txUp (64 + m)) → s.dev.mor.peer = none →
      Runs .pairingCheck s fun t => t.dev.sent = ⟨.pairFrame, 64, [0, b2n (s.dev.bit MOR_STAT_ROLE), fldGet 16 8 (s.dev.rd addr_MGT_ID),
        s.dev.getF BOT_FWVER, s.dev.mor.ident, s.dev.morState, s.dev.getF MOR_STAT_EPOCH]⟩ :: s.dev.sent ∧ Frame s t [] [] [.sent]) ∧
    (∀ f : PeriodFrame, s.dev.quiet → f.state ≤ 5 → f.epoch < 65536 →
      (s.dev.peerUp = false → Runs (.periodFrame f) s fun t => t = s) ∧
      (s.dev.peerUp → f.state = morHolder → f.cmds = [] → (∀ g ∈ f.goose, g.1 < 16) → s.dev.per.started →
        (s.dev.morState = morStandby → Runs (.periodFrame f) s fun t =>
          (∀ i, i < 64 → ∀ v, f.sar[i]? = some v → t.dev.mw (0x60940 + i) = v) ∧
          (∀ i, i < 256 → ∀ v, f.sv[i]? = some v → t.dev.mw (0x60980 + i) = v) ∧ t.dev.mor.hb ∧ t.dev.mor.mirrored ∧
          (s.dev.per.running → f.digest = s.dev.mor.digPrev → t.dev.getF MOR_STAT_MIS_CONSEC = 0) ∧
          (s.dev.per.running → f.digest ≠ s.dev.mor.digPrev →
            let n := min 255 (s.dev.getF MOR_STAT_MIS_CONSEC + 1)
            t.dev.getF MOR_STAT_MIS_CONSEC = n ∧ t.dev.bit MOR_EVT_MISMATCH ∧
            t.dev.getF MOR_MISMATCH = s.dev.counted MOR_MISMATCH 1 ∧
            (s.dev.getF MOR_CFG_MIS_LIM ≤ n → t.dev.bit MOR_EVT_UNFIT ∧ t.dev.morState ≠ morStandby)) ∧
          (s.dev.per.running → f.sk ≠ s.dev.per.sk → t.dev.bit MOR_EVT_UNFIT ∧ t.dev.morState ≠ morStandby) ∧ Outside s t) ∧
        (s.dev.morState = morHolder → s.dev.bit MOR_STAT_ROLE → Runs (.periodFrame f) s fun t => t.dev.morState ≠ morHolder ∧
          t.dev.mor.tail ∧ t.dev.bit MOR_STAT_DIVERGED ∧ t.dev.bit MOR_EVT_YIELD ∧
          t.dev.getF MOR_YIELDS = s.dev.counted MOR_YIELDS 1 ∧ Outside s t) ∧
        (s.dev.morState = morHolder → s.dev.bit MOR_STAT_ROLE = false → Runs (.periodFrame f) s fun t => t.dev.morState = morHolder ∧
          t.dev.mor.hb ∧ t.dev.smem = s.dev.smem ∧ Outside s t))) ∧
    (s.dev.per.running → Runs .mooringDeadline s fun t =>
      let lost := s.dev.mor.hb = false ∧ s.dev.mor.drive = false
      let claims := s.dev.mor.claim ∨ (lost ∧ s.dev.bit MOR_CTRL_NOCLAIM = false ∧
        (s.dev.morState = morStandby ∨ (s.dev.morState = morUnfit ∧ s.dev.bit MOR_CFG_UNFIT_CLAIM)))
      (s.dev.mor.hb = false → t.dev.getF MOR_HB_MISS = s.dev.counted MOR_HB_MISS 1) ∧
      (s.dev.mor.hb → t.dev.getF MOR_HB_MISS = s.dev.getF MOR_HB_MISS) ∧ (t.dev.mor.lost ↔ lost) ∧
      (lost → t.dev.bit MOR_EVT_PARTNER_LOST) ∧ (claims → t.dev.mor.claim) ∧
      (s.dev.morState = morStandby → s.dev.mor.mirrored = false → t.dev.bit MOR_STAT_DIVERGED ∧
        ∀ i, i < 64 → t.dev.mw (0x60940 + i) = s.dev.rd (addr_SAR_CH_VAL i)) ∧
      (s.dev.morState ≠ morStandby ∨ s.dev.mor.mirrored → t.dev.smem = s.dev.smem ∧ t.dev.morState = s.dev.morState) ∧ Outside s t) ∧
    (∀ (rtt turn : Nat) (ofs : Int), s.dev.quiet → s.dev.bondState = 2 →
      let xs := (((rtt : Int) - turn) :: s.dev.mor.samples).take 16
      let sum := xs.foldl (· + ·) 0
      let n : Int := 2 * xs.length
      let exceeds := s.dev.getF MOR_CFG2_XM * n < sum
      (s.dev.morState ≠ morStandby ∨ ofs.natAbs ≤ s.dev.getF MOR_CFG2_TOFS_LIM → Runs (.timeFrame rtt turn ofs) s fun t =>
        t.dev.mor.samples = xs ∧ t.dev.rd addr_MOR_TOFS = BitVec.ofNat 32 (ofSigned 32 ofs) ∧
        (0 ≤ sum → sum < n * (2 ^ 24 - 1) → sum / n ≤ t.dev.getF MOR_XM_X ∧ (t.dev.getF MOR_XM_X - 1) * n < sum) ∧
        (exceeds → t.dev.bit MOR_EVT_XM ∧ t.dev.getF MOR_XM_OVER = s.dev.counted MOR_XM_OVER 1) ∧
        Frame s t ([addr_MOR_XM, addr_MOR_TOFS] ++ if exceeds then [addr_MOR_EVT, addr_MOR_XM_OVER] ++ satAddrs else []) []
          [.mor, .freeCtr]) ∧
      (s.dev.morState = morStandby → s.dev.getF MOR_CFG2_TOFS_LIM < ofs.natAbs → Runs (.timeFrame rtt turn ofs) s fun t =>
        t.dev.bit MOR_EVT_UNFIT ∧ t.dev.getF MOR_STAT_WHY = 3 ∧ t.dev.morState ≠ morStandby ∧ Outside s t))

/-- R362, R363, R367, R368: the resynchronisation, the planned hand-over and the start without a partner. (The period a hand-over names is
free among the later ones: log entry 3.) -/
def Obligations.MooringStates : Prop :=
  ∀ s : State,
    (∀ phase prog items, phase < 4 → s.bak.main → s.dev.paired → s.dev.quiet → s.dev.peerUp → s.dev.morState = morSync →
      Runs (.syncFrame phase prog items) s fun t => t.dev.getF MOR_SYNC_PHASE = phase ∧ t.dev.getF MOR_SYNC_PROG = min 100 prog ∧
        t.dev.morState = morSync ∧
        (∀ w vs, items = [.mem w vs] → (∀ i v, w + i < 0x80000 → vs[i]? = some v → t.dev.mw (w + i) = v) ∧
          Frame s t [addr_MOR_SYNC] [] [.smem]) ∧
        (∀ a v, items = [.reg a v] → syncReg a → t.dev.rd a = v ∧ Frame s t [addr_MOR_SYNC, a] [] []) ∧
        (∀ e, e < 65536 → items = [.epoch e] → t.dev.getF MOR_PEER_EPOCH = e ∧ Frame s t [addr_MOR_SYNC, addr_MOR_PEER] [] []) ∧ Outside s t) ∧
    (s.bak.main → s.dev.paired →
      (s.dev.morState = morSync → Runs .resyncComplete s fun t => t.dev.morState = morStandby ∧ t.dev.bit MOR_EVT_SYNC_DONE ∧
        t.dev.getF MOR_STAT_DIVERGED = 0 ∧ t.dev.getF MOR_STAT_MIS_CONSEC = 0 ∧ t.dev.getF MOR_SYNC_PHASE = 3 ∧
        Frame s t [addr_MOR_STAT, addr_MOR_EVT, addr_MOR_SYNC] [] []) ∧
      (s.dev.morState ≠ morSync → Runs .resyncComplete s fun t => t = s) ∧
      (s.dev.quiet → s.dev.peerUp → s.dev.morState = morStandby → ∀ h, Runs (.handoverFrame h) s fun t =>
        t.dev.mor = { s.dev.mor with ho := some h } ∧ Frame s t [] [] [.mor]) ∧
      (s.dev.morState = morStart → s.dev.bondState ≠ 2 → s.dev.mor.drive = false → Runs .startTimeout s fun t =>
        t.dev.morState = morHolder ∧ t.dev.getF MOR_STAT_EPOCH = nextEpoch s.dev.eMax ∧ t.dev.bit MOR_EVT_TAKEOVER ∧
        t.dev.getF MOR_TAKEOVERS = s.dev.getF MOR_TAKEOVERS ∧ Outside s t) ∧
      (s.dev.morState ≠ morStart ∨ s.dev.bondState = 2 ∨ s.dev.mor.drive → Runs .startTimeout s fun t => t = s)) ∧
    (∀ (p : Sys2Proof.Path) (v : Word), s.dev.paired →
      (v = BitVec.ofNat 32 (Nat.lor 1 (4 * s.dev.getF MOR_CTRL_NOCLAIM)) → s.granted p addr_MOR_CTRL v →
        let ready := s.dev.morState = morHolder ∧ s.dev.peerUp ∧ s.dev.getF MOR_PEER_STATE = morStandby ∧ s.dev.mor.peerMis = 0
        (ready → s.dev.mor.ho = none → s.dev.quiet → Runs (.handover p) s fun t => Taken t p addr_MOR_CTRL ∧
          (∃ h, s.dev.per.k < h ∧ t.dev.mor = { s.dev.mor with ho := some h } ∧
            ((∀ m, m < 4 → s.dev.txUp (64 + m)) → ⟨.pairFrame, 64, [4, h]⟩ ∈ t.dev.sent)) ∧ Frame s t [] [] [.mor, .sent, .freeCtr]) ∧
        (s.dev.morState = morHolder → ¬ ready → s.dev.mor.ho = none → Runs (.handover p) s fun t => Turned s t p addr_MOR_CTRL stR10 ∧
          t.dev.bit MOR_EVT_HO_REFUSED ∧ t.dev.getF MOR_HO_REFUSED = s.dev.counted MOR_HO_REFUSED 1 ∧
          Frame s t ([addr_MOR_EVT, addr_MOR_HO_REFUSED] ++ refAddrs) [] [.sent]) ∧
        (s.dev.morState ≠ morHolder → Runs (.handover p) s fun t => Turned s t p addr_MOR_CTRL stR10 ∧ Frame s t refAddrs [] [.sent])) ∧
      (v = BitVec.ofNat 32 (Nat.lor 2 (4 * s.dev.getF MOR_CTRL_NOCLAIM)) → s.granted p addr_MOR_CTRL v →
        (s.dev.morState = morHolder → Runs (.resync p) s fun t => Turned s t p addr_MOR_CTRL stR10 ∧ Frame s t refAddrs [] [.sent]) ∧
        ((s.dev.morState = morStandby ∨ s.dev.morState = morUnfit) → s.dev.peerUp → s.dev.getF MOR_PEER_STATE = morHolder →
          s.dev.mor.claim = false → Runs (.resync p) s fun t => Taken t p addr_MOR_CTRL ∧ t.dev.morState = morSync ∧
            t.dev.getF MOR_SYNC_PHASE = 1 ∧ t.dev.getF MOR_SYNC_PROG = 0 ∧
            Frame s t [addr_MOR_STAT, addr_MOR_SYNC] [] [.mor, .sent]) ∧
        (s.dev.morState = morUnfit → s.dev.peerUp = false → Runs (.resync p) s fun t => Taken t p addr_MOR_CTRL ∧ t.dev.mor.resync ∧
          t.dev.morState = morUnfit ∧ Outside s t)))

/-- R37, R276, R375, R380, R387, R393, R394: what each reset of the device leaves. -/
def Obligations.Resets : Prop :=
  ∀ s : State,
    (s.bak.main →
      let keeps := fun (t : State) (a : Nat) => ∀ b, keptBy true b → b ∉ satAddrs → b ≠ addr_CRG_RSTCAUSE → b ≠ a → t.dev.rd b = s.dev.rd b
      let cause := fun (t : State) (bit : Nat) => t.dev.maskBit addr_CRG_RSTCAUSE bit ∧
        ∀ k, k ≠ bit → t.dev.maskBit addr_CRG_RSTCAUSE k = s.dev.maskBit addr_CRG_RSTCAUSE k
      (Runs .brownOut s fun t => ResetDone s t true ∧ cause t 1 ∧ t.dev.getF CRG_BOR = s.dev.counted CRG_BOR 1 ∧
        keeps t addr_CRG_BOR ∧ Outside s t) ∧
      (Runs .resetn s fun t => ResetDone s t true ∧ cause t 3 ∧ t.dev.getF CRG_PIN_RST = s.dev.counted CRG_PIN_RST 1 ∧
        keeps t addr_CRG_PIN_RST ∧ Outside s t) ∧
      (s.dev.bit BOT_STAT_SLIPWAY → Runs .watchdogReset s fun t => ResetDone s t true ∧ cause t 4 ∧
        t.dev.getF CRG_WDOG_RST = s.dev.counted CRG_WDOG_RST 1 ∧ keeps t addr_CRG_WDOG_RST ∧ Outside s t) ∧
      (∀ n, n < 4 → s.dev.bit (CRG_PLL_LOCK n) → Runs (.pllLossOfLock n) s fun t => ResetDone s t true ∧ cause t 2 ∧
        t.dev.getF (CRG_PLL_LOSS n) = s.dev.counted (CRG_PLL_LOSS n) 1 ∧ keeps t (addr_CRG_PLL_LOSS n) ∧ Outside s t) ∧
      (∀ n, n < 4 → s.dev.bit (CRG_PLL_LOCK n) = false → s.dev.applied → s.dev.getF CRG_STAT_PSTATE ≠ 3 →
        Runs (.pllFail n) s fun t => ResetDone s t true ∧ cause t 2 ∧ keeps t addr_CRG_RSTCAUSE ∧ Outside s t)) ∧
    (s.bak.main → s.dev.bit BOT_STAT_SLIPWAY = false → (s.dev.brtc + 2 ^ 55 - s.bak.startT) % 2 ^ 55 < 60 * 32768 →
      s.dev.getF BOT_FAILS_COUNT < 2 →
      Runs .watchdogReset s fun t => t.dev.maskBit addr_CRG_RSTCAUSE 4 ∧ t.dev.getF BOT_FAILS_COUNT = s.dev.getF BOT_FAILS_COUNT + 1 ∧
        t.dev.mram.fails = s.dev.getF BOT_FAILS_COUNT + 1 ∧ t.dev.getF BOT_FAILINFO_CODE = 0x30 ∧ t.dev.crg.retry = false ∧ Outside s t) ∧
    (Runs .por s fun t => ResetDone s t false ∧ t.dev.saf ∧ t.dev.bit CRG_STAT_AOC_OK ∧ (t.dev.bit CRG_STAT_BAK_OK = !s.bak.lost) ∧
      t.dev.bit CRG_RSTCAUSE_BAKPOR = s.bak.lost ∧ t.safState = safStart ∧ t.isl.outA = false ∧ t.isl.outB = false ∧ t.isl.lost = 0 ∧
      t.isl.rd addr_SAF_SEAL_T = s.isl.rd addr_SAF_SEAL_T ∧ t.isl.rd addr_SAF_SEAL_N = s.isl.rd addr_SAF_SEAL_N ∧
      t.bak = { s.bak with main := true, lost := false } ∧ t.otp = s.otp ∧ t.key = s.key ∧ t.pending = s.pending) ∧
    (s.bak.main → Runs .mainPowerLoss s fun t => ResetDone s t false ∧ t.bak = { s.bak with main := false } ∧ t.isl.outA = false ∧
      t.isl.outB = false ∧ t.isl.rd addr_SAF_SEAL_N = s.isl.rd addr_SAF_SEAL_N ∧ t.otp = s.otp ∧ t.key = s.key ∧ t.pending = s.pending) ∧
    (s.bak.main = false → Runs .mainPowerLoss s fun t => t = s) ∧
    (Runs .backupPor s fun t => t.dev.brtc = 0 ∧ t.dev.rd addr_CRG_BRTC_TRIM = 0 ∧ t.dev.getF BOT_FAILS_COUNT = s.dev.mram.fails % 16 ∧
      t.dev.getF BOT_STAT_PIN = 0 ∧ t.isl.rd addr_SAF_SEAL_T = 0 ∧ t.isl.getF SAF_SEAL_N_COUNT = 0 ∧ t.isl.bit SAF_SEAL_N_BAK_LOST ∧
      (s.bak.main → t.dev.bit CRG_RSTCAUSE_BAKPOR ∧ t.dev.bit CRG_STAT_BAK_OK = false) ∧ (s.bak.main = false → t.bak.lost) ∧
      Within (Regs [addr_CRG_BRTC_TRIM, addr_BOT_FAILS, addr_BOT_STAT, addr_CRG_RSTCAUSE, addr_CRG_STAT] []) [.brtc, .tbs] s.dev t.dev ∧
      t.safState = s.safState ∧ t.otp = s.otp ∧ t.key = s.key ∧ t.pending = s.pending)

/-- R390 to R392, R394, R396: the watchdog's warning, the software reset sequence, block resets and clears of counters. -/
def Obligations.ResetCommands : Prop :=
  ∀ s : State,
    (s.bak.main → Runs .watchdogWarn s fun t => t.dev.bit CRG_EVT_WDOG_WARN ∧
      (s.dev.log.queue.length < 64 → Recorded s.dev t.dev 1 0x1001 []) ∧ Frame s t (addr_CRG_EVT :: logAddrs) [] [.log, .mram]) ∧
    (∀ (p : Sys2Proof.Path) (v : Word), s.granted p addr_CRG_SWRST v →
      let first := s.dev.noArm ∧ s.dev.crg.swFirst = none ∧ v = 0xA55A
      let second := s.dev.noArm ∧ v = 0x5AA5 ∧ ∃ t0, s.dev.crg.swFirst = some t0 ∧ s.dev.time ≤ t0 + nsU 1000000
      (first → Runs (.swrst p v) s fun t => Taken t p addr_CRG_SWRST ∧ t.dev.crg = { s.dev.crg with swFirst := some s.dev.time } ∧
        Frame s t [] [] [.crg, .sent]) ∧
      (second → Runs (.swrst p v) s fun t => Taken t p addr_CRG_SWRST ∧ ResetDone s t true ∧ t.dev.bit CRG_RSTCAUSE_SW ∧ Outside s t) ∧
      (¬ first → ¬ second → Runs (.swrst p v) s fun t => Turned s t p addr_CRG_SWRST stR10 ∧ t.dev.bit CRG_EVT_SWRST_REFUSED ∧
        t.dev.crg.swFirst = none ∧ Frame s t (addr_CRG_EVT :: refAddrs) [] [.crg, .sent])) ∧
    (∀ (p : Sys2Proof.Path) (v : Word), s.granted p addr_CRG_BRST v →
      (2 ^ 24 ≤ v.toNat → Runs (.blockReset p v) s fun t => Turned s t p addr_CRG_BRST stR10 ∧ t.dev.getF CRG_BRST_STAT_REASON = 3 ∧
        t.dev.bit CRG_EVT_BRST_REFUSED ∧ t.dev.getF CRG_BRST_REFUSED = s.dev.counted CRG_BRST_REFUSED 1 ∧
        Frame s t ([addr_CRG_BRST_STAT, addr_CRG_EVT, addr_CRG_BRST_REFUSED] ++ refAddrs) [] [.mgt, .sent]) ∧
      (∀ b, b < 24 → v = BitVec.ofNat 32 (2 ^ b) →
        let never := b < 4 ∨ b = 19
        let armed := (b = 4 ∨ (9 ≤ b ∧ b ≤ 18) ∨ b = 21) ∧ s.dev.noArm = false
        (never ∨ armed → Runs (.blockReset p v) s fun t => Taken t p addr_CRG_BRST ∧
          t.dev.getF CRG_BRST_STAT_REASON = (if never then 2 else 1) ∧ t.dev.bit CRG_EVT_BRST_REFUSED ∧
          t.dev.getF CRG_BRST_REFUSED = s.dev.counted CRG_BRST_REFUSED 1 ∧ t.dev.maskBit addr_CRG_BRST_STAT b = false ∧
          Frame s t ([addr_CRG_BRST_STAT, addr_CRG_EVT, addr_CRG_BRST_REFUSED] ++ satAddrs) [] [.mgt, .sent]) ∧
        (¬ never → ¬ armed → Runs (.blockReset p v) s fun t => Taken t p addr_CRG_BRST ∧ t.dev.maskBit addr_CRG_BRST_STAT b ∧
          Outside s t ∧
          (b ∈ [6, 13, 16, 23] →
            (∀ a, blockOf a = some b → t.dev.rd a = keepFields (fun f => f.ty == .lk) a (s.dev.rd a)) ∧
            (b = 13 → t.dev.gwy = []) ∧ (b = 16 → t.dev.sar = {}) ∧ (b = 23 → t.dev.mft = {}) ∧ (b = 6 → t.dev.net.nodes = []) ∧
            Frame s t [addr_CRG_BRST_STAT] [b] [.net, .gwy, .sar, .mft, .mgt, .sent])))) ∧
    (∀ (p : Sys2Proof.Path) (v : Word), s.granted p addr_CRG_CNTCLR v →
      let hit := fun a => (match blockOf a with | some b => v.toNat % 2 ^ 24 / 2 ^ b % 2 = 1 | none => False)
      Runs (.cntclr p v) s fun t => Taken t p addr_CRG_CNTCLR ∧
        (∀ a, a ∉ logAddrs → hit a → t.dev.rd a = keepFields (fun f => f.ty != .ct) a (s.dev.rd a)) ∧
        (∀ a, a ∉ logAddrs → ¬ hit a → t.dev.rd a = s.dev.rd a) ∧
        (∀ a, hit a → t.isl.rd a = keepFields (fun f => f.ty != .ct) a (s.isl.rd a)) ∧ (∀ a, ¬ hit a → t.isl.rd a = s.isl.rd a) ∧
        (s.dev.log.queue.length < 64 → Recorded s.dev t.dev 1 0x301A [v.toNat] ∧
          ∀ b, b < 24 → (v.toNat / 2 ^ b % 2 = 1 → t.dev.maskBit addr_CRG_SAT b = false) ∧
            (v.toNat / 2 ^ b % 2 = 0 → t.dev.maskBit addr_CRG_SAT b = s.dev.maskBit addr_CRG_SAT b)) ∧
        Within (fun a => hit a ∨ a ∈ logAddrs) [.log, .mram, .sent] s.dev t.dev ∧ Apart s t)

/-- R377 to R380, R393: PLLs, REFCLK, the power states and the trim of the backup counter. -/
def Obligations.ClocksAndPower : Prop :=
  ∀ s : State,
    (∀ n band, n < 4 → band < 64 → s.bak.main → s.dev.crg.retry = false → s.dev.getF (CRG_PLL_STATE n) ≠ 2 →
      s.dev.getF CRG_STAT_PSTATE ≠ 3 →
      Runs (.pllLock n band) s fun t => t.dev.getF (CRG_PLL_STATE n) = 2 ∧ t.dev.bit (CRG_PLL_LOCK n) ∧
        t.dev.getF (CRG_PLL_BAND n) = band ∧ Frame s t [addr_CRG_PLL n] [] []) ∧
    (∀ n, n < 4 → s.bak.main → s.dev.bit (CRG_PLL_LOCK n) = false → s.dev.applied = false →
      Runs (.pllFail n) s fun t => t.dev.getF (CRG_PLL_STATE n) = 3 ∧ Frame s t [addr_CRG_PLL n] [] []) ∧
    (s.bak.main → Runs .refclkLoss s fun t => t.dev.bit CRG_STAT_REF_OK = false ∧ Frame s t [addr_CRG_STAT] [] []) ∧
    (∀ p : Sys2Proof.Path, s.granted p addr_CRG_PWR 1 →
      (s.dev.getF CRG_STAT_PSTATE = 0 ∨ s.dev.noArm = false → Runs (.quiescentRequest p) s fun t => Turned s t p addr_CRG_PWR stR10 ∧
        t.dev.bit CRG_EVT_PWR_REFUSED ∧ Frame s t (addr_CRG_EVT :: refAddrs) [] [.sent]) ∧
      (s.dev.getF CRG_STAT_PSTATE ∉ [0, 3] → s.dev.noArm → Runs (.quiescentRequest p) s fun t => Taken t p addr_CRG_PWR ∧
        t.dev.getF CRG_STAT_PSTATE = 3 ∧ t.dev.getF CRG_PWR_REQ = 1 ∧ t.dev.bit (CRG_PLL_LOCK 1) = false ∧ t.dev.per.running = false ∧
        (∀ n, n < 72 → t.dev.powState n true = 0 ∧ t.dev.powState n false = 0) ∧
        (∀ n c, n < 64 → c ∈ s.dev.laneCells n → t.dev.cellState c ≠ cellBoarded) ∧
        t.dev.smem = s.dev.smem ∧ t.dev.time = s.dev.time ∧ Outside s t) ∧
      (s.dev.getF CRG_STAT_PSTATE = 3 → s.dev.noArm → Runs (.quiescentRequest p) s fun t => Taken t p addr_CRG_PWR ∧
        Frame s t [] [] [.sent])) ∧
    (∀ p : Sys2Proof.Path, s.granted p addr_CRG_PWR 0 →
      (s.dev.getF CRG_STAT_PSTATE = 3 → Runs (.runRequest p) s fun t => Taken t p addr_CRG_PWR ∧
        t.dev.getF CRG_STAT_PSTATE = (if 2 ≤ s.dev.thmState then 2 else 1) ∧ t.dev.getF CRG_PWR_REQ = 0 ∧
        t.dev.getF (CRG_PLL_STATE 1) = 1 ∧ Frame s t [addr_CRG_STAT, addr_CRG_PWR, addr_CRG_PLL 1] [] [.sent]) ∧
      (s.dev.getF CRG_STAT_PSTATE ≠ 3 → Runs (.runRequest p) s fun t => Taken t p addr_CRG_PWR ∧ Frame s t [] [] [.sent])) ∧
    (s.dev.crg.aocLost = false → Runs .brtcTrim s fun t =>
      (t.dev.brtc : Int) = ((s.dev.brtc : Int) + toSigned 8 (s.dev.getF CRG_BRTC_TRIM_STEP)) % 2 ^ 55 ∧ Frame s t [] [] [.brtc, .tbs]) ∧
    (s.dev.crg.aocLost → Runs .brtcTrim s fun t => t = s)

/-- R403, R411 to R421: the start sequence. It runs when none has completed and the device waits for it; PLLs, BOT_FAILS, the self-test
and the key decide, then the candidates in their order. What the image's records leave is `tryImage`'s (R404 to R411). -/
def Obligations.Starts : Prop :=
  ∀ (s : State) (e : StartEnv) (retry : Bool),
    let i := if retry then Instr.startRetry e else .startSequence e
    (s.canStart retry = false ∨ e.testen → Runs i s fun t => t = s) ∧
    (s.canStart retry → e.testen = false →
      (e.refclk = false → Runs i s fun t => StartFailed s t e 0x21 0) ∧
      (∀ n, e.refclk → n < 4 → ¬ s.dev.willLock e n → (∀ m, m < n → s.dev.willLock e m) → Runs i s fun t => StartFailed s t e 0x20 n) ∧
      (e.refclk → (∀ n, n < 4 → s.dev.willLock e n) →
        (3 ≤ s.dev.getF BOT_FAILS_COUNT →
          (s.dev.crg.fromPor = false ∨ e.keyOk = false ∨ e.mbit < 256 ∨ keyIdent s.key = s.dev.kids →
            Runs i s fun t => t.dev.bit BOT_STAT_SLIPWAY ∧ t.dev.getF BOT_STAT_STAGE = 2 ∧
              t.dev.getF BOT_FAILS_COUNT = s.dev.getF BOT_FAILS_COUNT ∧ t.dev.rd addr_BOT_SLIPCODE = s.dev.rd addr_BOT_SLIPCODE ∧
              t.dev.kids = s.dev.kids ∧ t.dev.mgt.acc = s.dev.mram.access ∧ t.otp = s.otp ∧ t.key = s.key ∧ t.pending = s.pending) ∧
          (∀ c l, s.dev.crg.fromPor → e.keyOk → 256 ≤ e.mbit → keyIdent s.key ≠ s.dev.kids → e.test = c :: l →
            Runs i s fun t => t.dev.getF BOT_FAILS_COUNT = 1 ∧ t.dev.mram.fails = 1 ∧ t.dev.getF BOT_FAILINFO_CODE = c.1 % 256 ∧
              t.dev.getF BOT_STAT_STAGE = 0 ∧ t.dev.crg.retry)) ∧
        (s.dev.getF BOT_FAILS_COUNT < 3 →
          (∀ c l, e.test = c :: l → Runs i s fun t => StartFailed s t e c.1 c.2) ∧
          (e.test = [] → (e.keyOk = false ∨ e.mbit < 256) → Runs i s fun t => StartFailed s t e 0x31 0) ∧
          (e.test = [] → e.keyOk → 256 ≤ e.mbit →
            Runs i s fun t => match (s.tested e).cands with
              | [] => StartFailed s t e 0x01 0
              | (slot, h) :: rest => match tryImage s.key (s.tried e).dev slot h with
                | .inl (x, fw) => StartDone s t x fw slot h false
                | .inr (code, detail) => match rest with
                  | [] => StartFailed s t e code detail
                  | (slot2, h2) :: _ => match tryImage s.key ((s.tried e).dev.fellBack code detail) slot2 h2 with
                    | .inl (x, fw) => StartDone s t x fw slot2 h2 true
                    | .inr (code2, detail2) => StartFailed s t e code2 detail2)))) ∧
    (∀ (d : Dev) (code detail : Nat),
      let f := d.fellBack code detail
      f.getF BOT_FAILINFO_CODE = code % 256 ∧ f.getF BOT_FAILINFO_DETAIL = detail % 2 ^ 24 ∧ f.bit BOT_EVT_FALLBACK ∧
        f.getF BOT_FALLBACKS = d.counted BOT_FALLBACKS 1 ∧ (d.log.queue.length < 64 → Recorded d f 2 0x1000 [code, detail]))

/-- R403, R417, R420, R428: the count of failed starts, the slot pin, the relaunch and the SVN floor. -/
def Obligations.BootControl : Prop :=
  ∀ s : State,
    (s.bak.main → s.dev.getF BOT_STAT_STAGE = 1 →
      Runs .failsClear s fun t => t.dev.getF BOT_FAILS_COUNT = 0 ∧ t.dev.mram.fails = 0 ∧ t.dev.getF BOT_STAT_PIN = 0 ∧
        (s.dev.log.queue.length < 64 → Recorded s.dev t.dev 2 0x3008 []) ∧
        Frame s t ([addr_BOT_FAILS, addr_BOT_STAT] ++ logAddrs) [] [.log, .mram]) ∧
    (s.bak.main → s.dev.getF BOT_STAT_STAGE ≠ 1 → Runs .failsClear s fun t => t = s) ∧
    (∀ (p : Sys2Proof.Path) (v : Word) (i : Instr), s.granted p addr_BOT_CTRL v → i = .relaunch p v ∨ i = .pin p v →
      let rel := v.toNat % 2 = 1
      let pin := v.toNat / 2 % 2 = 1
      let slot := v.toNat / 16 % 4
      let leaves := rel ∧ ¬ pin ∧ s.dev.bit BOT_STAT_SLIPWAY ∧ v.toNat / 2 ^ 16 = 0x5A1A ∧ slot ≠ 3
      let pins := pin ∧ ¬ rel ∧ s.dev.bit BOT_STAT_SLIPWAY = false ∧ s.dev.noArm ∧ slot ≠ 3
      (leaves → Runs i s fun t => Taken t p addr_BOT_CTRL ∧ t.dev.getF BOT_STAT_PIN = slot ∧
        t.dev.getF BOT_FAILS_COUNT = 0 ∧ t.dev.mram.fails = 0 ∧ t.dev.bit CRG_RSTCAUSE_SW ∧ t.dev.getF BOT_STAT_STAGE = 0 ∧
        t.dev.bit BOT_STAT_SLIPWAY = false ∧ t.dev.latched16 = 0xFFFF ∧ t.canStart false ∧ Outside s t) ∧
      (pins → Runs i s fun t => Taken t p addr_BOT_CTRL ∧ t.dev.getF BOT_STAT_PIN = slot ∧ Frame s t [addr_BOT_STAT] [] [.sent]) ∧
      (¬ rel → ¬ pin → Runs i s fun t => Taken t p addr_BOT_CTRL ∧ Frame s t [] [] [.sent]) ∧
      (rel ∨ pin → ¬ leaves → ¬ pins → Runs i s fun t => Turned s t p addr_BOT_CTRL stR10 ∧ t.dev.bit BOT_EVT_CTRL_REFUSED ∧
        Frame s t (addr_BOT_EVT :: refAddrs) [] [.sent])) ∧
    (∀ (p : Sys2Proof.Path) (v : Word), s.granted p addr_BOT_SVNBURN v →
      let ok := v.toNat / 2 ^ 16 = 0xA51E ∧ s.dev.bit BOT_STAT_SLIPWAY = false
      let n := max s.otp.svnFloor (s.dev.getF BOT_SVN_IMAGE)
      (ok → Runs (.svnburn p v) s fun t => Taken t p addr_BOT_SVNBURN ∧ t.otp = { s.otp with svnFloor := n } ∧
        t.dev.getF BOT_SVN_FLOOR = n % 64 ∧ Within (Regs [addr_BOT_SVN] []) [.sent] s.dev t.dev ∧ t.isl = s.isl ∧ t.bak = s.bak ∧
        t.key = s.key ∧ t.pending = s.pending) ∧
      (¬ ok → Runs (.svnburn p v) s fun t => Turned s t p addr_BOT_SVNBURN stR10 ∧ t.dev.bit BOT_EVT_CTRL_REFUSED ∧
        Frame s t (addr_BOT_EVT :: refAddrs) [] [.sent]))

/-- R422: key commands. A refused one says why; an accepted one runs on the key's bytes, erased ones reading 0xFF (that PROGRAM can only
clear bits: log entry 42), and touches no byte outside its area (for key contents in canonical form: InvariantKept); its end or its timeout is reported. -/
def Obligations.KeyCommands : Prop :=
  ∀ s : State,
    (∀ (p : Sys2Proof.Path) (op : Nat) (i : Instr),
      (op, i) ∈ [(1, Instr.keyRead p), (2, .keyProgram p), (3, .erase4k p), (4, .erase64k p)] →
      let v := BitVec.ofNat 32 op
      let a := s.dev.getF BOT_KADDR_ADDR
      let n := if op = 3 then 4096 else if op = 4 then 65536 else 256
      let bad := a % n ≠ 0 ∨ 0x2000000 < a + n ∨ (s.dev.bit BOT_STAT_SLIPWAY = false ∧ a / 0x1000000 = s.dev.getF BOT_STAT_SLOT)
      (s.bak.main → s.dev.judge (s.classOf p) addr_BOT_KCMD v = stR10 →
        Runs i s fun t => Turned s t p addr_BOT_KCMD stR10 ∧ t.dev.getF BOT_KSTAT_RESULT = 5 ∧
          t.dev.getF BOT_KCMD_REFUSED = s.dev.counted BOT_KCMD_REFUSED 1 ∧
          Frame s t ([addr_BOT_KSTAT, addr_BOT_KCMD_REFUSED] ++ refAddrs) [] [.sent]) ∧
      (s.granted p addr_BOT_KCMD v → s.dev.kcmd.isSome ∨ bad →
        Runs i s fun t => Turned s t p addr_BOT_KCMD stR10 ∧ t.dev.getF BOT_KSTAT_RESULT = (if s.dev.kcmd.isSome then 2 else 1) ∧
          t.dev.getF BOT_KCMD_REFUSED = s.dev.counted BOT_KCMD_REFUSED 1 ∧
          Frame s t ([addr_BOT_KSTAT, addr_BOT_KCMD_REFUSED] ++ refAddrs) [] [.sent]) ∧
      (s.granted p addr_BOT_KCMD v → s.dev.kcmd = none → ¬ bad → s.keyWf →
        Runs i s fun t => Taken t p addr_BOT_KCMD ∧ t.dev.bit BOT_KSTAT_BUSY ∧ t.dev.getF BOT_KSTAT_RESULT = 0 ∧
          (∃ c, t.dev.kcmd = some c ∧ c.op = op ∧ c.addr = a ∧ c.bytes.length = n ∧ ∀ b, b < n →
            let old := (s.keyByte (a + b)).toNat
            let page := (s.dev.rd (addr_BOT_KBUF (b / 4))).toNat / 256 ^ (b % 4) % 256
            c.bytes.getD b 0 = if op = 1 then old else if op = 2 then old &&& page else 255) ∧
          (∀ b, b < a ∨ a + n ≤ b ∨ op = 1 → t.keyByte b = s.keyByte b) ∧
          Within (Regs [addr_BOT_KSTAT] []) [.kcmd, .freeCtr, .sent] s.dev t.dev ∧ t.isl = s.isl ∧ t.bak = s.bak ∧ t.otp = s.otp ∧
          t.pending = s.pending)) ∧
    (s.bak.main → s.dev.kcmd = none → ∀ late, Runs (.kcmdDone late) s fun t => t = s) ∧
    (∀ c, s.bak.main → s.dev.kcmd = some c →
      let ended := fun (t : State) (r : Nat) => t.dev.kcmd = none ∧ t.dev.bit BOT_KSTAT_BUSY = false ∧ t.dev.getF BOT_KSTAT_RESULT = r ∧
        t.dev.bit BOT_EVT_KCMD_DONE
      (Runs (.kcmdDone true) s fun t => ended t 4 ∧ Frame s t [addr_BOT_KSTAT, addr_BOT_EVT] [] [.kcmd]) ∧
      (c.op = 1 → Runs (.kcmdDone false) s fun t => ended t 0 ∧
        (∀ w, w < 64 → t.dev.rd (addr_BOT_KBUF w) = BitVec.ofNat 32 (numAt c.bytes (4 * w) 4)) ∧
        Frame s t ([addr_BOT_KSTAT, addr_BOT_EVT] ++ (List.range 64).map addr_BOT_KBUF) [] [.kcmd]) ∧
      (c.op ≠ 1 → Runs (.kcmdDone false) s fun t => ended t (if c.op = 2 ∧ c.bytes ≠ c.want then 3 else 0) ∧
        (∀ b, b < c.bytes.length → t.keyByte (c.addr + b) = BitVec.ofNat 8 (c.bytes.getD b 0)) ∧
        (∀ b, b < c.addr ∨ c.addr + c.bytes.length ≤ b → t.keyByte b = s.keyByte b) ∧
        Within (Regs [addr_BOT_KSTAT, addr_BOT_EVT] []) [.kcmd] s.dev t.dev ∧ t.isl = s.isl ∧ t.bak = s.bak ∧ t.otp = s.otp ∧
        t.pending = s.pending))

/-- R11, R424 to R426: arm commands. An enable starts the control period at the first multiple of T_cfg at least 1.0 ms later; the arms
change at the next sampling instant; a refused write changes nothing but its reasons. -/
def Obligations.ArmCommands : Prop :=
  ∀ (s : State) (p : Sys2Proof.Path) (v : Word) (set : Bool),
    let i := if set then Instr.armSet p v else .armClr p v
    let a := if set then addr_BOT_ARM_SET else addr_BOT_ARM_CLR
    let asked := fun n => v.toNat / 2 ^ n % 2 = 1
    let free := set → s.dev.getF CRG_STAT_PSTATE ≠ 3 ∧ s.dev.bit TBS_STAT_STEPPED ∧
      ∀ n, n < 8 → asked n → s.dev.bit (BLS_ARM_CFG_EN n)
    let refused := fun (t : State) (r : Nat) => Turned s t p a stR10 ∧ t.dev.bit BOT_ARM_STAT_ACCEPTED = false ∧
      t.dev.getF BOT_ARM_STAT_REASON = r ∧ t.dev.bit BOT_EVT_ARM_REFUSED ∧
      t.dev.getF BOT_ARM_REFUSED = s.dev.counted BOT_ARM_REFUSED 1 ∧
      Frame s t ([addr_BOT_ARM_STAT, addr_BOT_EVT, addr_BOT_ARM_REFUSED] ++ refAddrs) [] [.sent]
    (s.granted p a v → s.dev.applied → s.dev.bit BOT_STAT_SLIPWAY = false → free →
      Runs i s fun t => Taken t p a ∧ t.dev.bit BOT_ARM_STAT_ACCEPTED ∧ t.dev.getF BOT_ARM_STAT_REASON = 0 ∧
        t.dev.getF BOT_ARM_EN = s.dev.getF BOT_ARM_EN ∧ (∀ n, n < 8 → t.dev.armWanted n = (if asked n then set else s.dev.armWanted n)) ∧
        (s.dev.paired = false → (s.dev.log.queue.length < 64 → Recorded s.dev t.dev 2 (if set then 0x3020 else 0x3021) []) ∧
          Frame s t ([addr_BOT_ARM, addr_BOT_ARM_STAT] ++ logAddrs) [] [.log, .mram, .per, .sent]) ∧
        (set = false ∨ s.dev.per.started → t.dev.per = s.dev.per) ∧
        (set → s.dev.per.started = false → 0 < s.dev.getF TBS_PER_PER → t.dev.per.started ∧ t.dev.per.running = false ∧
          t.dev.per.sk % s.dev.getF TBS_PER_PER = 0 ∧ s.dev.time + nsU 1000000 ≤ unitsOf125 t.dev.per.sk ∧
          unitsOf125 t.dev.per.sk < s.dev.time + nsU 1000000 + unitsOf125 (s.dev.getF TBS_PER_PER)) ∧ Outside s t) ∧
    (s.granted p a v →
      (s.dev.applied = false ∨ s.dev.bit BOT_STAT_SLIPWAY → Runs i s fun t => refused t 1) ∧
      (set → s.dev.applied → s.dev.bit BOT_STAT_SLIPWAY = false →
        (s.dev.getF CRG_STAT_PSTATE = 3 → Runs i s fun t => refused t 2) ∧
        (s.dev.getF CRG_STAT_PSTATE ≠ 3 → s.dev.bit TBS_STAT_STEPPED = false → Runs i s fun t => refused t 3) ∧
        (s.dev.getF CRG_STAT_PSTATE ≠ 3 → s.dev.bit TBS_STAT_STEPPED → (∃ n, n < 8 ∧ asked n ∧ s.dev.bit (BLS_ARM_CFG_EN n) = false) →
          Runs i s fun t => refused t 4))) ∧
    (s.bak.main → s.dev.judge (s.classOf p) a v = stDone → s.dev.drives = false → s.dev.applied → s.dev.bit BOT_STAT_SLIPWAY = false →
      free → Runs i s fun t => refused t 5) ∧
    (s.bak.main → s.dev.judge (s.classOf p) a v = stR10 → s.dev.applied → s.dev.bit BOT_STAT_SLIPWAY = false → s.dev.drives → free →
      Runs i s fun t => refused t 6)

/-- R434 to R436, R439: the head of the write queue goes into the lowest free slot, or over the stored record of lowest SEQ and no higher
severity, or is dropped; during a freeze it goes into the freeze buffer, and a severe one that finds it full ends the freeze. -/
def Obligations.RecordStored : Prop :=
  ∀ s : State, s.bak.main →
    (s.dev.log.queue = [] → Runs .recordStore s fun t => t = s) ∧
    (∀ r rest, s.dev.log.queue = r :: rest →
      (s.dev.bit LOG_STAT_FROZEN = false →
        let slots := s.dev.mram.slots
        let put := fun (t : State) (n : Nat) => t.dev.log = { s.dev.log with queue := rest } ∧ t.dev.mram.slot n = some r ∧
          (∀ m, m ≠ n → t.dev.mram.slot m = s.dev.mram.slot m) ∧ t.dev.getF LOG_STAT_STORED = t.dev.mram.stored.length % 2 ^ 17 ∧
          (t.dev.bit LOG_EVT_REC ↔ s.dev.bit LOG_EVT_REC ∨ s.dev.getF LOG_CTRL_ALERT_SEV ≤ r.sev)
        (∀ n, n < 65536 → n ∉ slots.map (·.1) → (∀ m, m < n → m ∈ slots.map (·.1)) →
          Runs .recordStore s fun t => put t n ∧ Frame s t [addr_LOG_STAT, addr_LOG_EVT] [] [.log, .mram]) ∧
        ((∀ n, n < 65536 → n ∈ slots.map (·.1)) →
          (∀ n x, (n, some x) ∈ slots → x.sev ≤ r.sev → (∀ m y, (m, some y) ∈ slots → m ≠ n → y.sev ≤ r.sev → x.seq < y.seq) →
            (∀ y, (n, some y) ∈ slots → y = x) →
            Runs .recordStore s fun t => put t n ∧ t.dev.bit LOG_EVT_OVERWRITE ∧
              t.dev.getF LOG_OVERWRITES = s.dev.counted LOG_OVERWRITES 1 ∧
              Frame s t ([addr_LOG_STAT, addr_LOG_EVT, addr_LOG_OVERWRITES] ++ satAddrs) [] [.log, .mram]) ∧
          ((∀ n x, (n, some x) ∈ slots → r.sev < x.sev) →
            Runs .recordStore s fun t => t.dev.log = { s.dev.log with queue := rest } ∧ t.dev.bit LOG_EVT_DROP ∧
              t.dev.getF LOG_DROPPED = s.dev.counted LOG_DROPPED 1 ∧
              Frame s t ([addr_LOG_EVT, addr_LOG_DROPPED] ++ satAddrs) [] [.log]))) ∧
      (s.dev.bit LOG_STAT_FROZEN →
        (s.dev.log.fbuf.length < 256 → Runs .recordStore s fun t =>
          t.dev.log = { s.dev.log with queue := rest, fbuf := s.dev.log.fbuf ++ [{ r with frz := true }] } ∧
            t.dev.getF LOG_STAT_FBUF = s.dev.log.fbuf.length + 1 ∧ Frame s t [addr_LOG_STAT] [] [.log]) ∧
        (256 ≤ s.dev.log.fbuf.length → r.sev < 6 → Runs .recordStore s fun t =>
          t.dev.log = { s.dev.log with queue := rest } ∧ t.dev.bit LOG_EVT_DROP ∧
            t.dev.getF LOG_FRZ_DROP = s.dev.counted LOG_FRZ_DROP 1 ∧
            Frame s t ([addr_LOG_EVT, addr_LOG_FRZ_DROP] ++ satAddrs) [] [.log]) ∧
        (256 ≤ s.dev.log.fbuf.length → 6 ≤ r.sev → Runs .recordStore s fun t =>
          t.dev.log.queue = rest ∧ t.dev.bit LOG_EVT_FRZ_END ∧ Unfrozen s t (s.dev.log.fbuf ++ [r]))))

/-- R439, R440, R441: freezing, clearing, and what the memories' protection code reports.
R438: a cursor command looks for its record among the stored ones; one that finds none leaves cursor and window and sets END. -/
def Obligations.LogbookControl : Prop :=
  (∀ s : State,
    (∀ p : Sys2Proof.Path, s.granted p addr_LOG_CTRL (fldPut 0 1 1 (s.dev.rd addr_LOG_CTRL)) →
      (s.dev.bit LOG_STAT_FROZEN = false → Runs (.freeze p) s fun t => Taken t p addr_LOG_CTRL ∧ t.dev.bit LOG_STAT_FROZEN ∧
        t.dev.bit LOG_CTRL_FREEZE ∧ Frame s t [addr_LOG_CTRL, addr_LOG_STAT] [] [.sent]) ∧
      (s.dev.bit LOG_STAT_FROZEN → Runs (.freeze p) s fun t => Taken t p addr_LOG_CTRL ∧ Frame s t [] [] [.sent])) ∧
    (∀ p : Sys2Proof.Path, s.granted p addr_LOG_CTRL (fldPut 0 1 0 (s.dev.rd addr_LOG_CTRL)) →
      (s.dev.bit LOG_STAT_FROZEN → Runs (.unfreeze p) s fun t => Taken t p addr_LOG_CTRL ∧ Unfrozen s t s.dev.log.fbuf) ∧
      (s.dev.bit LOG_STAT_FROZEN = false → Runs (.unfreeze p) s fun t => Taken t p addr_LOG_CTRL ∧ Frame s t [] [] [.sent])) ∧
    (s.bak.main → s.dev.bit LOG_STAT_FROZEN →
      Runs .freezeTimeout s fun t => t.dev.bit LOG_EVT_FRZ_END ∧ Unfrozen s t s.dev.log.fbuf) ∧
    (s.bak.main → s.dev.bit LOG_STAT_FROZEN = false → Runs .freezeTimeout s fun t => t = s) ∧
    (∀ (p : Sys2Proof.Path) (v : Word), s.granted p addr_LOG_CLR v →
      let ok := v.toNat % 2 ^ 16 = 0xC1EA ∧ s.dev.bit LOG_STAT_FROZEN = false
      (ok → Runs (.logClr p v) s fun t => Taken t p addr_LOG_CLR ∧
        t.dev.log = { s.dev.log with clearAfter := some s.dev.mram.header.1 } ∧ Frame s t [] [] [.log, .sent]) ∧
      (¬ ok → Runs (.logClr p v) s fun t => Turned s t p addr_LOG_CLR stR10 ∧ Frame s t refAddrs [] [.sent])) ∧
    (s.bak.main →
      (s.dev.log.clearAfter = none ∨
        (∃ q, s.dev.log.clearAfter = some q ∧ ∃ r ∈ s.dev.log.queue ++ s.dev.log.fbuf, r.seq ≤ q) → Runs .clearExecute s fun t => t = s) ∧
      (∀ q, s.dev.log.clearAfter = some q → (∀ r ∈ s.dev.log.queue ++ s.dev.log.fbuf, q < r.seq) →
        Runs .clearExecute s fun t => t.dev.mram.slots = [] ∧ t.dev.log.clearAfter = none ∧ t.dev.bit LOG_EVT_CLEARED ∧
          t.dev.getF LOG_STAT_STORED = 0 ∧ t.dev.log.fbuf = s.dev.log.fbuf ∧
          (s.dev.log.queue.length < 64 → ∀ lo ∈ s.dev.mram.stored, ∀ hi ∈ s.dev.mram.stored,
            (∀ x ∈ s.dev.mram.stored, lo.seq ≤ x.seq ∧ x.seq ≤ hi.seq) →
            Recorded s.dev t.dev 22 0x4001 (s.dev.mram.stored.length :: (words64 lo.seq ++ words64 hi.seq))) ∧
          Frame s t (addr_LOG_STAT :: logAddrs) [] [.log, .mram])) ∧
    (∀ f : ScrubWord, s.bak.main →
      (6 < f.mem ∨ (f.err ≠ 1 ∧ f.err ≠ 2) → Runs (.scrub f) s fun t => t = s) ∧
      (f.mem < 7 → f.err = 1 → Runs (.scrub f) s fun t => t.dev.getF (LOG_ECC_COR f.mem) = s.dev.counted (LOG_ECC_COR f.mem) 1 ∧
        Frame s t (addr_LOG_ECC_COR f.mem :: satAddrs) [] []) ∧
      (f.mem < 7 → f.err = 2 → Runs (.scrub f) s fun t => t.dev.getF (LOG_ECC_UNC f.mem) = s.dev.counted (LOG_ECC_UNC f.mem) 1 ∧
        t.dev.bit LOG_EVT_ECC_UNC ∧ t.dev.getF LOG_ECC_LAST_MEM = f.mem ∧ t.dev.getF LOG_ECC_LAST_WORD = f.word % 2 ^ 29 ∧
        (s.dev.log.queue.length < 64 → Recorded s.dev t.dev 22 0x1007 []) ∧
        (f.mem = 0 → ∀ w, w < 0x80000 → t.dev.mw w = if w / 4 = f.word then 0x7FC00000 else s.dev.mw w) ∧
        (f.mem = 1 → f.word ∈ t.dev.hlm.bad) ∧ (f.mem = 2 → t.dev.bit TWL_EVT_BAD_FRAME) ∧
        (∀ n, f.mem = 6 → f.holds = .slot n → t.dev.mram.slot n = none) ∧
        (∀ n e, f.mem = 6 → f.holds = .archive n → s.dev.mram.archive[n]? = some e →
          t.dev.mram.archive[n]? = some { e with bad := true }) ∧ Outside s t))) ∧
  (∀ (s : State) (c : Nat), c < 2 →
    (∀ (p : Sys2Proof.Path) (op : Nat) (i : Instr),
      (op, i) ∈ [(1, Instr.oldest p c), (2, .newest p c), (3, .next p c), (4, .prev p c), (5, .seek p c)] →
      s.granted p (addr_LOG_CUR_CMD c) (BitVec.ofNat 32 (op * 2 ^ 28)) →
      let x := s.dev.cursor c
      let seek := (s.dev.rd (addr_LOG_CUR_SEEK_LO c)).toNat + (s.dev.rd (addr_LOG_CUR_SEEK_HI c)).toNat * 2 ^ 32
      let fit := fun r : LogRec => (op = 3 → x.valid → x.pos < r.seq) ∧ (op = 4 → x.valid → r.seq < x.pos) ∧ (op = 5 → seek ≤ r.seq)
      (s.dev.bit (LOG_CUR_STAT_BUSY c) → Runs i s fun t => Turned s t p (addr_LOG_CUR_CMD c) stR10 ∧ Frame s t refAddrs [] [.sent]) ∧
      (s.dev.bit (LOG_CUR_STAT_BUSY c) = false → (∃ r ∈ s.dev.mram.stored, fit r) →
        Runs i s fun t => Taken t p (addr_LOG_CUR_CMD c) ∧ t.dev.bit (LOG_CUR_STAT_BUSY c) ∧ t.dev.bit (LOG_CUR_STAT_END c) = false ∧
          (∃ r ∈ s.dev.mram.stored, fit r ∧ (∀ y ∈ s.dev.mram.stored, fit y → if op = 2 ∨ op = 4 then y.seq ≤ r.seq else r.seq ≤ y.seq) ∧
            t.dev.cursor c = { x with pos := r.seq, copy := some r }) ∧ t.dev.cursor (1 - c) = s.dev.cursor (1 - c) ∧
          Frame s t [addr_LOG_CUR_STAT c] [] [.log, .sent]) ∧
      (s.dev.bit (LOG_CUR_STAT_BUSY c) = false → (∀ r ∈ s.dev.mram.stored, ¬ fit r) →
        Runs i s fun t => Taken t p (addr_LOG_CUR_CMD c) ∧ t.dev.bit (LOG_CUR_STAT_END c) ∧
          Frame s t [addr_LOG_CUR_STAT c] [] [.sent])) ∧
    (s.bak.main → (s.dev.cursor c).copy = none → Runs (.cursorCopyDone c) s fun t => t = s) ∧
    (∀ r, s.bak.main → (s.dev.cursor c).copy = some r →
      Runs (.cursorCopyDone c) s fun t => t.dev.cursor c = { s.dev.cursor c with valid := true, copy := none } ∧
        t.dev.bit (LOG_CUR_STAT_VALID c) ∧ t.dev.bit (LOG_CUR_STAT_BUSY c) = false ∧
        (∀ w, w < 16 → t.dev.rd (addr_LOG_CUR_WIN c w) = BitVec.ofNat 32 (leNat ((r.bytes.drop (4 * w)).take 4))) ∧
        Frame s t (addr_LOG_CUR_STAT c :: (List.range 16).map (addr_LOG_CUR_WIN c)) [] [.log]))

/-- R442 to R445, R452: triggers, the latch of every block's registers at T_m, the archive and its window. -/
def Obligations.Manifests : Prop :=
  ∀ s : State,
    (s.bak.main → Runs .manin s fun t => Triggered s t 4 0 (s.dev.time + nsU 1000) ∧ Frame s t mftAddrs [] [.mft]) ∧
    (∀ p : Sys2Proof.Path, s.granted p addr_MFT_CTRL 2 →
      Runs (.mftTrig p) s fun t => Taken t p addr_MFT_CTRL ∧ Triggered s t 5 0 (s.dev.time + nsU 1000) ∧
        Frame s t mftAddrs [] [.mft, .sent]) ∧
    (∀ p : Sys2Proof.Path, s.granted p addr_MFT_CTRL 1 →
      (s.dev.bit MFT_STAT_ARC_BUSY → Runs (.mftRearm p) s fun t => Taken t p addr_MFT_CTRL ∧
        t.dev.mft = { s.dev.mft with rearm := true } ∧ Frame s t [] [] [.mft, .sent]) ∧
      (s.dev.bit MFT_STAT_ARC_BUSY = false → Runs (.mftRearm p) s fun t => Taken t p addr_MFT_CTRL ∧ t.dev.bit MFT_STAT_ARMED ∧
        Frame s t [addr_MFT_STAT] [] [.mft, .sent])) ∧
    (∀ late, s.bak.main → s.dev.mft.pend = none → Runs (.manifestLatch late) s fun t => t = s) ∧
    (∀ late q, s.bak.main → s.dev.mft.pend = some q →
      let own := [addr_MFT_TM_LO, addr_MFT_TM_HI, addr_MFT_TM_FR, addr_MFT_NUM, addr_MFT_DETAIL, addr_MFT_STAT, addr_MFT_EVT,
        addr_MFT_CAPTURES] ++ (List.range 24).map addr_MFT_LAT ++ logAddrs
      Runs (.manifestLatch late) s fun t =>
        (∀ b, b < 24 → t.dev.getF (MFT_LAT_LATE b) = late.getD b 0 % 65536 ∧
          t.dev.bit (MFT_LAT_STOPPED b) = s.dev.blockStopped b ∧
          ∀ i w, (s.manWords b (q.tm + nsU (late.getD b 0)))[i]? = some w → t.dev.rd (manAddr b i) = BitVec.ofNat 32 w) ∧
        t.dev.rd addr_MFT_TM_LO = BitVec.ofNat 32 (q.tm / 2 ^ 32) ∧ t.dev.rd addr_MFT_TM_HI = BitVec.ofNat 32 (q.tm / 2 ^ 64) ∧
        t.dev.rd addr_MFT_TM_FR = BitVec.ofNat 32 q.tm ∧ t.dev.rd addr_MFT_NUM = s.dev.rd addr_MFT_NUM + 1 ∧
        t.dev.rd addr_MFT_DETAIL = BitVec.ofNat 32 q.det ∧ t.dev.getF MFT_STAT_SRC = q.src % 128 ∧
        t.dev.bit MFT_STAT_ARMED = false ∧ t.dev.bit MFT_EVT_CAPTURED ∧ t.dev.getF MFT_CAPTURES = s.dev.counted MFT_CAPTURES 1 ∧
        t.dev.mft.pend = none ∧ t.dev.bit MFT_STAT_ARC_BUSY ∧
        (∃ e, t.dev.mft.arcNew = some e ∧ e.tm = q.tm ∧ e.src = q.src ∧ e.det = q.det ∧
          ∀ b i, b < 24 → i < 64 → spGet 0 e.words (64 * b + i) = t.dev.rd (manAddr b i)) ∧
        (s.dev.log.queue.length < 64 →
          Recorded s.dev t.dev 23 0x1000 ((s.dev.rd addr_MFT_NUM + 1).toNat :: timeWords q.tm)) ∧
        Within (fun a => a ∈ own ∨ ∃ b i, b < 24 ∧ i < 64 ∧ a = manAddr b i) [.mft, .log, .mram] s.dev t.dev ∧ Outside s t) ∧
    (∀ ok, s.bak.main → s.dev.mft.arcNew = none → Runs (.archiveWriteDone ok) s fun t => t = s) ∧
    (∀ ok e, s.bak.main → s.dev.mft.arcNew = some e →
      Runs (.archiveWriteDone ok) s fun t => t.dev.mram.archive = ({ e with bad := !ok } :: s.dev.mram.archive).take 32 ∧
        t.dev.mft.arcNew = none ∧ t.dev.bit MFT_STAT_ARC_BUSY = false ∧
        t.dev.getF MFT_STAT_ARCN = min 32 (s.dev.mram.archive.length + 1) ∧
        t.dev.bit MFT_STAT_ARMED = (s.dev.bit MFT_STAT_ARMED || s.dev.bit MFT_CFG_AUTO || s.dev.mft.rearm) ∧
        (ok = false → t.dev.bit MFT_EVT_ARC_FAIL ∧ t.dev.getF MFT_ARC_FAIL = s.dev.counted MFT_ARC_FAIL 1) ∧
        Frame s t ([addr_MFT_STAT, addr_MFT_EVT, addr_MFT_ARC_FAIL] ++ satAddrs) [] [.mft, .mram]) ∧
    (∀ (p : Sys2Proof.Path) (v : Word), s.granted p addr_MFT_ASEL v →
      (24 < v.toNat % 32 → Runs (.aselWrite p v) s fun t => Turned s t p addr_MFT_ASEL stR10 ∧ Frame s t refAddrs [] [.sent]) ∧
      (v.toNat % 32 ≤ 24 → Runs (.aselWrite p v) s fun t => Taken t p addr_MFT_ASEL ∧ t.dev.bit MFT_ASTAT_BUSY ∧
        t.dev.mft = { s.dev.mft with copy := some (v.toNat / 256 % 32, v.toNat % 32) } ∧
        Frame s t [addr_MFT_ASEL, addr_MFT_ASTAT] [] [.mft, .sent])) ∧
    (s.bak.main → s.dev.mft.copy = none → Runs .aselCopyDone s fun t => t = s) ∧
    (∀ age sl, s.bak.main → s.dev.mft.copy = some (age, sl) →
      (s.dev.mram.archive[age]? = none → Runs .aselCopyDone s fun t => t.dev.bit MFT_ASTAT_VALID = false ∧
        t.dev.bit MFT_ASTAT_BUSY = false ∧ t.dev.mft = { s.dev.mft with copy := none } ∧ Frame s t [addr_MFT_ASTAT] [] [.mft]) ∧
      (∀ e, s.dev.mram.archive[age]? = some e → Runs .aselCopyDone s fun t => t.dev.bit MFT_ASTAT_VALID ∧
        t.dev.bit MFT_ASTAT_BUSY = false ∧ t.dev.bit MFT_ASTAT_BAD = e.bad ∧ t.dev.mft = { s.dev.mft with copy := none } ∧
        (sl ≠ 0 → ∀ w, w < 64 → t.dev.rd (addr_MFT_AWIN w) = spGet 0 e.words (64 * (sl - 1) + w)) ∧
        (sl = 0 → t.dev.rd (addr_MFT_AWIN 0) = BitVec.ofNat 32 (e.tm / 2 ^ 32) ∧ t.dev.rd (addr_MFT_AWIN 1) = BitVec.ofNat 32 (e.tm / 2 ^ 64) ∧
          t.dev.rd (addr_MFT_AWIN 2) = BitVec.ofNat 32 e.tm ∧ t.dev.rd (addr_MFT_AWIN 3) = BitVec.ofNat 32 e.num ∧
          t.dev.rd (addr_MFT_AWIN 4) = BitVec.ofNat 32 e.src ∧ t.dev.rd (addr_MFT_AWIN 5) = BitVec.ofNat 32 e.det ∧
          (∀ b, b < 12 → t.dev.rd (addr_MFT_AWIN (6 + b)) = BitVec.ofNat 32 (e.lat.getD (2 * b) 0 + e.lat.getD (2 * b + 1) 0 * 65536)) ∧
          t.dev.rd (addr_MFT_AWIN 18) = BitVec.ofNat 32 e.stopped ∧ ∀ w, 19 ≤ w → w < 64 → t.dev.rd (addr_MFT_AWIN w) = 0) ∧
        Frame s t (addr_MFT_ASTAT :: (List.range 64).map addr_MFT_AWIN) [] [.mft]))

/-- R446 to R449, R453: a measurement of the nine sensors (`x`, in 0.125 °C): validity against the median, Tj, the state machine, and the
end of a hold by command. Which of two equally hot sensors is shown is free (log entry 3). -/
def Obligations.Thermal : Prop :=
  ∀ s : State,
    (∀ (ts : List Int) (med tj : Int), s.bak.main → s.dev.thmState ≤ 4 →
      let x := fun n => ts.getD n 0
      let all := List.range 9
      let ok := fun n => -440 ≤ x n ∧ x n ≤ 1200 ∧ (x n - med).natAbs ≤ 160
      let good := all.filter fun n => ok n
      (∃ n, n < 9 ∧ x n = med) → 5 ≤ (all.filter fun n => x n ≤ med).length → 5 ≤ (all.filter fun n => med ≤ x n).length →
      (good.length < 5 → tj = 1000) → (5 ≤ good.length → (∃ n ∈ good, x n = tj) ∧ ∀ n ∈ good, x n ≤ tj) →
      let st := s.dev.thmState
      let down := s.dev.thm.down
      Runs (.thermalMeasurement ts) s fun t =>
        (∀ n, n < 9 → t.dev.getF (THM_TS_T n) = ofSigned 12 (x n) ∧ (t.dev.bit (THM_TS_VALID n) ↔ ok n)) ∧
        t.dev.getF THM_STAT_TJ = ofSigned 12 tj ∧ t.dev.getF THM_STAT_VALID = (good.map fun n => 2 ^ n).sum ∧
        t.dev.getF THM_SENSOR_BAD = s.dev.counted THM_SENSOR_BAD (9 - good.length) ∧ (good.length < 9 → t.dev.bit THM_EVT_SENSOR) ∧
        (st ≠ 4 → 1000 ≤ tj → t.dev.thmState = 4 ∧ t.dev.bit THM_EVT_HOLD ∧ t.dev.getF THM_HOLDS = s.dev.counted THM_HOLDS 1 ∧
          t.dev.mram.hold ∧ t.dev.srcActive 62 ∧
          (t.dev.log.queue.length < 64 → ∃ r ∈ t.dev.log.queue, r.src = 3 ∧ r.code = 0x1003 ∧ r.sev = 7)) ∧
        (st < 2 → 920 ≤ tj → tj < 1000 → t.dev.thmState = 2 ∧ t.dev.bit THM_EVT_THROTTLE ∧ t.dev.bit CRG_STAT_SYC_DIV ∧
          t.dev.getF THM_THROTTLES = s.dev.counted THM_THROTTLES 1 ∧ (s.dev.getF CRG_STAT_PSTATE = 1 → t.dev.getF CRG_STAT_PSTATE = 2)) ∧
        (st = 0 → tj < 920 → t.dev.thmState = (if 840 ≤ tj then 1 else 0) ∧
          (840 ≤ tj → t.dev.bit THM_EVT_WARN ∧ t.dev.getF THM_WARNS = s.dev.counted THM_WARNS 1)) ∧
        (st = 1 → tj < 920 → t.dev.thmState = (if tj < 800 ∧ 10 ≤ down + 1 then 0 else 1) ∧
          (t.dev.thmState = 1 → t.dev.thm.down = if tj < 800 then down + 1 else 0)) ∧
        (st = 2 → tj < 1000 →
          let up := if 920 ≤ tj then s.dev.thm.up + 1 else 0
          t.dev.thmState = (if 10 ≤ up ∨ 960 ≤ tj then 3 else if tj < 880 ∧ 100 ≤ down + 1 then 1 else 2) ∧
          (t.dev.thmState = 3 → t.dev.bit THM_EVT_STAGE2) ∧
          (t.dev.thmState = 2 → t.dev.thm.up = up ∧ t.dev.thm.down = if tj < 880 then down + 1 else 0) ∧
          (t.dev.thmState = 1 → t.dev.bit CRG_STAT_SYC_DIV = false ∧
            (s.dev.getF CRG_STAT_PSTATE = 2 → t.dev.getF CRG_STAT_PSTATE = 1))) ∧
        (st = 3 → tj < 1000 → t.dev.thmState = (if tj < 880 ∧ 100 ≤ down + 1 then 2 else 3) ∧
          (t.dev.thmState = 3 → t.dev.thm.down = if tj < 880 then down + 1 else 0)) ∧
        (st = 4 → 800 ≤ tj → t.dev.thmState = 4 ∧ t.dev.bit THM_STAT_RESUME_OK = false ∧ t.dev.thm.down = 0) ∧
        (st = 4 → tj < 800 → down < 9 → t.dev.thmState = 4 ∧ t.dev.thm.down = down + 1 ∧
          t.dev.bit THM_STAT_RESUME_OK = s.dev.bit THM_STAT_RESUME_OK) ∧
        (st = 4 → tj < 800 → 9 ≤ down → s.dev.bit THM_STAT_RESUME_OK = false →
          (s.dev.bit THM_CTRL_AUTO → t.dev.thmState = 1 ∧ t.dev.bit THM_EVT_RELEASE ∧ t.dev.mram.hold = false ∧
            t.dev.srcActive 62 = false ∧ t.dev.bit CRG_STAT_SYC_DIV = false) ∧
          (s.dev.bit THM_CTRL_AUTO = false → t.dev.thmState = 4 ∧ t.dev.bit THM_STAT_RESUME_OK ∧ t.dev.bit THM_EVT_RESUME_OK)) ∧
        Outside s t) ∧
    (∀ p : Sys2Proof.Path, s.granted p addr_THM_CTRL (fldPut 1 1 1 (s.dev.rd addr_THM_CTRL)) →
      (s.dev.bit THM_STAT_RESUME_OK → Runs (.resume p) s fun t => Taken t p addr_THM_CTRL ∧ t.dev.thmState = 1 ∧
        t.dev.bit THM_STAT_RESUME_OK = false ∧ t.dev.bit THM_EVT_RELEASE ∧ t.dev.mram.hold = false ∧ t.dev.srcActive 62 = false ∧
        t.dev.bit CRG_STAT_SYC_DIV = false ∧ (s.dev.getF CRG_STAT_PSTATE = 2 → t.dev.getF CRG_STAT_PSTATE = 1) ∧ Outside s t) ∧
      (s.dev.bit THM_STAT_RESUME_OK = false → Runs (.resume p) s fun t => Turned s t p addr_THM_CTRL stR10 ∧
        Frame s t refAddrs [] [.sent]))

/-- R460: a read of a register that latches others returns its value and gives the path its own copy of the others, and changes nothing
any other path reads; without a class it is refused; in a domain that does not run (R385) it answers the last value and is counted. R8:
a read of a read-clear register returns it and leaves zero. -/
def Obligations.LatchedReads : Prop :=
  ∀ (s : State) (p : Sys2Proof.Path) (n : Nat),
    (∀ x ∈ s.dev.latchRows p n,
      let a := x.2.1
      let copies := fun t : State => (∀ y ∈ x.2.2.2, t.dev.latched (pathNo p) y.1 = y.2) ∧
        ∀ q h, h < 2 ^ 24 → (q ≠ pathNo p ∨ h ∉ x.2.2.2.map (·.1)) → t.dev.latched q h = s.dev.latched q h
      (s.readable p a → Runs x.1 s fun t => ReadOk t p a x.2.2.1.toNat ∧ copies t ∧ Frame s t [] [] [.mgt, .sent]) ∧
      (s.bak.main → s.classOf p ≠ 0 → s.dev.stopped (domOf a) → Runs x.1 s fun t => ReadOk t p a x.2.2.1.toNat ∧ copies t ∧
        t.dev.bit CRG_EVT_XD_STOPPED ∧ t.dev.getF CRG_XD_STOPPED = s.dev.counted CRG_XD_STOPPED 1 ∧
        Frame s t (addr_CRG_XD_STOPPED :: satAddrs) [] [.mgt, .sent]) ∧
      (s.bak.main → s.classOf p = 0 → Runs x.1 s fun t => Turned s t p a stR10 ∧ Frame s t refAddrs [] [.sent])) ∧
    (∀ x ∈ clearRows p n, s.readable p x.2.1 →
      Runs x.1 s fun t => ReadOk t p x.2.1 (s.dev.rd x.2.1).toNat ∧ t.dev.rd x.2.1 = 0 ∧ Frame s t [x.2.1] [] x.2.2)

/-- R4, R6, R9, R10, R454 to R457, R473, R507: a write by its address. Refused, it is answered with its status, counted and shown, and sets
no more than flags, counts and reasons of its own block, with their record; taken by a register that commands nothing, it acts on each field by its type; on a
register command's register it is that command. -/
def Obligations.RegisterWrites : Prop :=
  ∀ (s : State) (p : Sys2Proof.Path) (a : Nat) (v : Word), s.bak.main →
    (∀ st, blockOf a ≠ some 19 → s.dev.judge (s.classOf p) a v = st → st ≠ stDone →
      Runs (.registerWrite p a v) s fun t => Turned s t p a st ∧ (a % 4 ≠ 0 ∨ blockOf a = none → st = stR4) ∧
        Within (fun x => x ∈ refAddrs ∨ (st = stR10 ∧ (blockOf x = blockOf a ∨ x ∈ logAddrs)))
          (if st = stR10 then [.mgt, .sent, .crg, .log, .mram] else [.mgt, .sent]) s.dev t.dev ∧ Outside s t) ∧
    (∀ r, writesPlain a → s.granted p a v → regRow? a = some r →
      Runs (.registerWrite p a v) s fun t => Taken t p a ∧
        (∀ f ∈ r.fields, fldGet f.lo f.width (t.dev.rd a) =
          let old := fldGet f.lo f.width (s.dev.rd a)
          let new := fldGet f.lo f.width v
          if f.ty = .rw then new else if f.ty = .w1c then old &&& (new ^^^ (2 ^ f.width - 1)) else old) ∧
        Frame s t [a] [] [.mgt, .sent]) ∧
    (∀ x ∈ writeRows p v, ∃ t u, exec (.registerWrite p x.2.1 x.2.2) s = .next t ∧ exec x.1 s = .next u ∧
      Within (fun _ => False) [.mgt] u.dev t.dev ∧ Outside u t)

/-- R461, R462: frames of the management SPI. A frame whose check fails, or with a reserved OP, makes no access; a READ or WRITE frame
makes the access that the same command by the SPI path makes, and is answered with its status, data and check byte. -/
def Obligations.ManagementSpi : Prop :=
  ∀ s : State, s.bak.main →
    let answer := fun (t : State) (bytes : List Nat) => ⟨OutKind.spiStatus, 0, bytes ++ [crc8 bytes]⟩ :: t.dev.sent
    let noAccess := fun (t : State) (st : Nat) => t.dev.sent = answer s [st] ∧ t.dev.bit MGT_EVT_SPI_ERR ∧
      t.dev.getF MGT_SPI_ERR = s.dev.counted MGT_SPI_ERR 1 ∧ Frame s t ([addr_MGT_EVT, addr_MGT_SPI_ERR] ++ satAddrs) [] [.sent]
    (∀ a rcrc, crc8 (3 :: beBytes 3 a) ≠ rcrc → Runs (.mspiRead a rcrc) s fun t => noAccess t 0xC4) ∧
    (∀ a v rcrc, crc8 (2 :: beBytes 3 a ++ beBytes 4 v.toNat) ≠ rcrc → Runs (.mspiWrite a v rcrc) s fun t => noAccess t 0xC4) ∧
    (∀ op, op ≠ 2 → op ≠ 3 → Runs (.mspiReservedOp op) s fun t => noAccess t 0xC5) ∧
    (Runs .mspiCsnRise s fun t => t.dev.getF MGT_SPI_ERR = s.dev.counted MGT_SPI_ERR 1 ∧ Frame s t (addr_MGT_SPI_ERR :: satAddrs) [] []) ∧
    (∀ a, a < 2 ^ 24 → a % 4 ≠ 0 ∨ blockOf a = none → Runs (.mspiRead a (crc8 (3 :: beBytes 3 a))) s fun t =>
      t.dev.sent = answer s [0xC1] ∧ Noted s t .spi a 0xC1 ∧ Frame s t refAddrs [] [.sent]) ∧
    (∀ a, a < 2 ^ 24 → s.readable .spi a → readsPlain a → Runs (.mspiRead a (crc8 (3 :: beBytes 3 a))) s fun t =>
      t.dev.sent = answer s (0x5A :: beBytes 4 (s.peek a).toNat) ∧ Frame s t [] [] [.sent]) ∧
    (∀ a, a < 2 ^ 24 → s.readable .spi a → latchedReg a → loEff 0 a = none → arrEff 0 a = none →
      Runs (.mspiRead a (crc8 (3 :: beBytes 3 a))) s fun t =>
        t.dev.sent = answer s (0x5A :: beBytes 4 (s.dev.latched 0 a).toNat) ∧ Frame s t [] [] [.sent]) ∧
    (∀ n, ∀ x ∈ s.dev.latchRows .spi n, s.readable .spi x.2.1 →
      ∃ t u, exec (.mspiRead x.2.1 (crc8 (3 :: beBytes 3 x.2.1))) s = .next t ∧ exec x.1 s = .next u ∧
        t.dev.sent = answer s (0x5A :: beBytes 4 x.2.2.1.toNat) ∧ Within (fun _ => False) [.sent] u.dev t.dev ∧ Outside u t) ∧
    (∀ a v, a < 2 ^ 24 → ∃ t u st old, exec (.mspiWrite a v (crc8 (2 :: beBytes 3 a ++ beBytes 4 v.toNat))) s = .next t ∧
      exec (.registerWrite .spi a v) s = .next u ∧ u.dev.sent = ⟨.reply, 0, [st, a]⟩ :: old ∧
      t.dev.sent = ⟨.spiStatus, 0, [st] ++ [crc8 [st]]⟩ :: old ∧ Within (fun _ => False) [.sent] u.dev t.dev ∧ Outside u t)

/-- R464 to R466, R469 to R471: Landing sessions open, are kept, and end; datagrams that are no message, ARP and ICMP. Which free slot a
session takes and its DNONCE are free (log entry 3). -/
def Obligations.LandingSessions : Prop :=
  ∀ s : State, s.bak.main →
    let keys := (s.dev.mgt.acc.map (·.keys)).getD []
    let authentic := fun (m : LandMsg) (k : AccKey) (body : List Nat) => m.tag = hmacSha256 k.secret (landHead 1 m.sid m.seq body) ∧
      (k.mask = 0 ∨ m.ip &&& k.mask = k.ip &&& k.mask)
    (∀ (m : LandMsg) (kid cls note : Nat) (cnonce : List Nat),
      let i := Instr.landingHello m kid cls note cnonce
      let body := leBytes 2 kid ++ [cls % 256, note % 256] ++ cnonce
      (s.dev.ipUp m.port = false → Runs i s fun t => t = s) ∧
      (s.dev.ipUp m.port → (∀ k ∈ keys, k.kid = kid → ¬ authentic m k body) →
        Runs i s fun t => t.dev.bit MGT_EVT_AUTH_FAIL ∧ t.dev.getF MGT_AUTH_FAIL = s.dev.counted MGT_AUTH_FAIL 1 ∧
          Frame s t ([addr_MGT_EVT, addr_MGT_AUTH_FAIL] ++ satAddrs) [] []) ∧
      (∀ k, s.dev.ipUp m.port → k ∈ keys → k.kid = kid → authentic m k body → (∀ x ∈ keys, x.kid = kid → x = k) →
        ((∀ n, n < 8 → s.dev.sessState n ≠ 0) →
          Runs i s fun t => t.dev.getF MGT_SESS_FULL = s.dev.counted MGT_SESS_FULL 1 ∧
            t.dev.sent = s.dev.ipOut .landing m.port (m.ip :: m.udp :: landMsg k.secret 6 0 0 [2, 0, 0, 0]) ++ s.dev.sent ∧
            Frame s t (addr_MGT_SESS_FULL :: ipAddrs) [] [.net, .sent]) ∧
        ((∃ n, n < 8 ∧ s.dev.sessState n = 0) →
          Runs i s fun t => ∃ n dn g num sk, n < 8 ∧ s.dev.sessState n = 0 ∧ dn.length = 16 ∧
            g = (if s.maintOk then min cls k.cls else min (min cls k.cls) 2) ∧ num = (if s.dev.mgt.num = 2 ^ 29 - 1 then 1 else s.dev.mgt.num + 1) ∧
            sk = hmacSha256 k.secret ([0x4C, 0x41, 0x4E, 0x44] ++ cnonce ++ dn) ∧
            t.dev.mgt.num = num ∧ t.dev.sessState n = 1 ∧ t.dev.getF (MGT_SESS_CLASS n) = g % 4 ∧
            t.dev.getF (MGT_SESS_NOTE n) = note % 2 ∧ t.dev.getF (MGT_SESS_PORT n) = m.port % 8 ∧
            t.dev.getF (MGT_SESS_KID n) = kid % 2 ^ 16 ∧ t.dev.rd (addr_MGT_SESS_IP n) = BitVec.ofNat 32 m.ip ∧
            t.dev.rd (addr_MGT_SESS_UDP n) = BitVec.ofNat 32 m.udp ∧ t.dev.rd (addr_MGT_SESS_SID n) = BitVec.ofNat 32 (num * 8 + n) ∧
            t.dev.sess n = { sk := sk, seen := s.alertSum } ∧ (∀ j, j ≠ n → t.dev.sess j = s.dev.sess j) ∧
            t.dev.sent = s.dev.ipOut .landing m.port (m.ip :: m.udp :: landMsg sk 2 (num * 8 + n) 0 (dn ++ [g, n, 0, 0])) ++ s.dev.sent ∧
            Frame s t ([addr_MGT_SESS n, addr_MGT_SESS_IP n, addr_MGT_SESS_UDP n, addr_MGT_SESS_SID n, addr_MGT_STAT] ++ ipAddrs) []
              [.net, .mgt, .sent, .freeCtr]))) ∧
    (∀ (m : LandMsg) (reason : Nat), s.dev.ipUp m.port → s.dev.sidsDiffer →
      (∀ n, n < 8 → s.dev.speaks m 6 [reason % 256, 0, 0, 0] n →
        Runs (.landingClose m reason) s fun t => SessFreed s t n (s.dev.toClient n 6 [1, 0, 0, 0])) ∧
      (∀ n, n < 8 → s.dev.speaks m 7 [] n →
        Runs (.landingKeepalive m) s fun t => t.dev.sent = s.dev.toClient n 7 [] ++ s.dev.sent ∧
          t.dev.sess n = { s.dev.sess n with txSeq := ((s.dev.sess n).txSeq + 1) % 2 ^ 32 } ∧
          Frame s t ipAddrs [] [.net, .mgt, .sent]) ∧
      ((∀ n, n < 8 → ¬ s.dev.speaks m 6 [reason % 256, 0, 0, 0] n) →
        Runs (.landingClose m reason) s fun t => t.dev.bit MGT_EVT_TAG_FAIL ∧ t.dev.getF MGT_TAG_FAIL = s.dev.counted MGT_TAG_FAIL 1 ∧
          Frame s t ([addr_MGT_EVT, addr_MGT_TAG_FAIL] ++ satAddrs) [] []) ∧
      ((∀ n, n < 8 → ¬ s.dev.speaks m 7 [] n) →
        Runs (.landingKeepalive m) s fun t => t.dev.bit MGT_EVT_TAG_FAIL ∧ t.dev.getF MGT_TAG_FAIL = s.dev.counted MGT_TAG_FAIL 1 ∧
          Frame s t ([addr_MGT_EVT, addr_MGT_TAG_FAIL] ++ satAddrs) [] [])) ∧
    (∀ n, n < 8 →
      (s.dev.sessState n = 1 → Runs (.welcomeTimeout n) s fun t => SessFreed s t n []) ∧
      (s.dev.sessState n ≠ 1 → Runs (.welcomeTimeout n) s fun t => t = s) ∧
      (s.dev.sessState n ≠ 0 → s.dev.ipUp (s.dev.getF (MGT_SESS_PORT n)) →
        Runs (.idleTimeout n) s fun t => SessFreed s t n (s.dev.toClient n 6 [3, 0, 0, 0])) ∧
      (s.dev.sessState n = 0 → Runs (.idleTimeout n) s fun t => t = s) ∧
      (let news := s.dev.sessState n ≠ 0 ∧ s.dev.bit (MGT_SESS_NOTE n) ∧ s.alertSum ||| (s.dev.sess n).seen ≠ (s.dev.sess n).seen
       (news → s.dev.ipUp (s.dev.getF (MGT_SESS_PORT n)) → Runs (.notify n) s fun t =>
          t.dev.sent = s.dev.toClient n 5 (leBytes 4 s.alertSum) ++ s.dev.sent ∧ (t.dev.sess n).seen = s.alertSum ∧
          Frame s t ipAddrs [] [.net, .mgt, .sent]) ∧
       (¬ news → Runs (.notify n) s fun t => t = s))) ∧
    (∀ port,
      (s.dev.ipUp port → Runs (.msgBad port) s fun t => t.dev.getF MGT_MSG_BAD = s.dev.counted MGT_MSG_BAD 1 ∧
        Frame s t (addr_MGT_MSG_BAD :: satAddrs) [] []) ∧
      (s.dev.ipUp port = false → Runs (.msgBad port) s fun t => t = s)) ∧
    (∀ port ip, let holds := ∃ e ∈ s.dev.mgt.netif, e.port = port ∧ e.ip = ip
      (holds → Runs (.arpRequest port ip) s fun t => t.dev.sent = s.dev.ipOut .arp port [ip] ++ s.dev.sent ∧
        Frame s t ipAddrs [] [.net, .sent]) ∧
      (¬ holds → Runs (.arpRequest port ip) s fun t => t = s)) ∧
    (∀ port ip dst data, let answers := ∃ e ∈ s.dev.mgt.netif, e.port = port ∧ e.ip = dst ∧ e.flags % 2 = 1
      (answers → Runs (.icmpEcho port ip dst data) s fun t => t.dev.sent = s.dev.ipOut .icmp port (ip :: data) ++ s.dev.sent ∧
        Frame s t ipAddrs [] [.net, .sent]) ∧
      (¬ answers → Runs (.icmpEcho port ip dst data) s fun t => t = s))

/-- R465, R467, R468: a REQUEST is executed once, in order, its operations answered one by one; a repeated one is answered again, any other
discarded, and up to four wait. -/
def Obligations.LandingRequests : Prop :=
  ∀ s : State, s.bak.main →
    (∀ (m : LandMsg) (ops : List (Nat × Nat × Nat)), s.dev.ipUp m.port → s.dev.sidsDiffer →
      let body := ops.flatMap fun o => o.1 % 256 :: leBytes 3 o.2.1 ++ leBytes 4 o.2.2
      let i := Instr.landingRequest m ops
      (ops.length = 0 ∨ 64 < ops.length → Runs i s fun t => t.dev.getF MGT_MSG_BAD = s.dev.counted MGT_MSG_BAD 1 ∧
        Frame s t (addr_MGT_MSG_BAD :: satAddrs) [] []) ∧
      (1 ≤ ops.length → ops.length ≤ 64 → (∀ n, n < 8 → ¬ s.dev.speaks m 3 body n) →
        Runs i s fun t => t.dev.bit MGT_EVT_TAG_FAIL ∧ t.dev.getF MGT_TAG_FAIL = s.dev.counted MGT_TAG_FAIL 1 ∧
          Frame s t ([addr_MGT_EVT, addr_MGT_TAG_FAIL] ++ satAddrs) [] []) ∧
      (∀ n, n < 8 → 1 ≤ ops.length → ops.length ≤ 64 → s.dev.speaks m 3 body n →
        let x := s.dev.sess n
        (x.todo ≠ [] → x.held.length < 4 →
          Runs i s fun t => t.dev.sess n = { x with held := x.held ++ [⟨m.seq, ops, m.tag⟩] } ∧ Frame s t [] [] [.mgt]) ∧
        (x.todo ≠ [] → 4 ≤ x.held.length →
          Runs i s fun t => t.dev.getF MGT_QDROP = s.dev.counted MGT_QDROP 1 ∧ Frame s t (addr_MGT_QDROP :: satAddrs) [] []) ∧
        (x.todo = [] → m.seq = (x.lastSeq + 1) % 2 ^ 32 → (∀ o ∈ ops.head?, o.1 = 1 ∨ o.1 = 2) →
          Runs i s fun t => t.dev.sess n = { x with lastSeq := m.seq, lastTag := m.tag, todo := ops, resp := [] } ∧
            t.dev.sessState n = 2 ∧ Frame s t [addr_MGT_SESS n] [] [.mgt]) ∧
        (x.todo = [] → x.held = [] → m.seq ≠ (x.lastSeq + 1) % 2 ^ 32 →
          (m.seq = x.lastSeq → m.tag = x.lastTag → x.lastResp ≠ [] →
            Runs i s fun t => t.dev.sent = s.dev.ipOut .landing m.port (m.ip :: m.udp :: x.lastResp) ++ s.dev.sent ∧
              Frame s t ipAddrs [] [.net, .sent]) ∧
          (m.seq ≠ x.lastSeq ∨ m.tag ≠ x.lastTag ∨ x.lastResp = [] →
            Runs i s fun t => t.dev.bit MGT_EVT_REPLAY ∧ t.dev.getF MGT_REPLAY = s.dev.counted MGT_REPLAY 1 ∧
              Frame s t ([addr_MGT_EVT, addr_MGT_REPLAY] ++ satAddrs) [] [])))) ∧
    (∀ n, n < 8 →
      let x := s.dev.sess n
      let p := Sys2Proof.Path.landing n
      let entry := fun (st a v : Nat) => st :: leBytes 3 a ++ leBytes 4 v
      (∀ a v rest, x.todo = (1, a, v) :: rest → a < 2 ^ 24 → s.readable p a → readsPlain a →
        (∀ o, rest.head? = some o → o.1 = 1 ∨ o.1 = 2 →
          Runs (.landingRead n) s fun t => t.dev.sess n = { x with todo := rest, resp := x.resp ++ entry 0x5A a (s.peek a).toNat } ∧
            Frame s t [] [] [.mgt]) ∧
        (rest = [] → x.held = [] → s.dev.ipUp (s.dev.getF (MGT_SESS_PORT n)) →
          Runs (.landingRead n) s fun t => t.dev.sent = s.dev.toClient n 4 (x.resp ++ entry 0x5A a (s.peek a).toNat) ++ s.dev.sent ∧
            (t.dev.sess n).todo = [] ∧ (t.dev.sess n).txSeq = (x.txSeq + 1) % 2 ^ 32 ∧
            (t.dev.sess n).lastResp = landMsg x.sk 4 (s.dev.getF (MGT_SESS_SID n)) ((x.txSeq + 1) % 2 ^ 32)
              (x.resp ++ entry 0x5A a (s.peek a).toNat) ∧ Frame s t ipAddrs [] [.net, .mgt, .sent])) ∧
      (∀ a v o rest, x.todo = (2, a, v) :: o :: rest → a < 2 ^ 24 → o.1 = 1 ∨ o.1 = 2 →
        ∃ t u st old, exec (.landingWrite n) s = .next t ∧ exec (.registerWrite p a (BitVec.ofNat 32 v)) s = .next u ∧
          u.dev.sent = ⟨.reply, n + 1, [st, a]⟩ :: old ∧ Outside u t ∧
          (u.dev.sessState n = 0 → t.dev.sent = old ∧ Within (fun _ => False) [.sent] u.dev t.dev) ∧
          (u.dev.sessState n ≠ 0 → (u.dev.sess n).todo = x.todo → t.dev.sent = old ∧
            t.dev.sess n = { u.dev.sess n with todo := o :: rest, resp := (u.dev.sess n).resp ++ entry st a 0 } ∧
            Within (fun _ => False) [.mgt, .sent] u.dev t.dev)) ∧
      ((∀ y ∈ x.todo.head?, y.1 ≠ 1) → Runs (.landingRead n) s fun t => t = s) ∧
      ((∀ y ∈ x.todo.head?, y.1 ≠ 2) → Runs (.landingWrite n) s fun t => t = s))

/-- The queue of commands, first in, first out: a step with command `c` at the front is `exec c` on the state with the queue's rest. -/
def Obligations.StepRunsFront : Prop :=
  ∀ (s : State) (c : Instr) (rest : List Instr), s.pending = c :: rest → step s = exec c { s with pending := rest } ∧
    step (s.push c) = exec c s

/-- R393: every command completes, and `exec` leaves the queue alone. In BACKUP (no main power) none acts but a power-on, the backup
domain's own events and the seal watch. -/
def Obligations.CommandsComplete : Prop :=
  ∀ (i : Instr) (s : State),
    (∃ t, exec i s = .next t ∧ t.pending = s.pending) ∧
    (s.bak.main = false → i ≠ .por → i ≠ .backupPor → i ≠ .brtcTrim → (∀ h, i ≠ .sealWatchPulse h) → exec i s = .next s)

/-- R37, R59, R263, R276, R279, R288, R393: the state right after the power-on reset; it has the invariant of InvariantKept, and its
register file is in canonical form. Every register holds the reset value of its table. -/
def Obligations.AtReset : Prop :=
  State.reset.Inv ∧ spWf regReset State.reset.dev.regs ∧ (∀ a, State.reset.dev.rd a = regReset a ∧ State.reset.isl.rd a = regReset a) ∧
    State.reset.dev.tbsState = tbsUnset ∧ State.reset.dev.getF PTP_STAT_SEL_PORT = 0 ∧ State.reset.dev.noArm ∧
    State.reset.dev.getF CRG_STAT_PSTATE = 0 ∧ State.reset.dev.getF BOT_STAT_STAGE = 0 ∧ State.reset.dev.getF MGT_STAT_SPI_GRANT = 3 ∧
    State.reset.dev.latched16 = 0xFFFF ∧ State.reset.dev.per.running = false ∧ State.reset.safState = safStart ∧
    State.reset.isl.outA = false ∧ State.reset.isl.outB = false ∧ State.reset.dev.saf ∧ State.reset.canStart false ∧
    (∀ c, c < 256 → State.reset.dev.cellState c = cellEmpty) ∧ State.reset.pending = []

/-- R354, R385, R457: when a register command is turned away whatever it asks: without the class, in a domain that does not run (counted),
and a carried register's in a standby. A carried write that comes too late for the period is held for the next one, with none of its
effect (R354). -/
def Obligations.Refusals : Prop :=
  ∀ (s : State) (p : Sys2Proof.Path) (v : Word), s.bak.main →
    (∀ w n, w < 0x80000 → n < 72 → ∀ x ∈ [(Instr.coefWrite p w v, 0x200000 + 4 * w, v), (Instr.slip p n, addr_LNK_SLIP n, (0x80000000 : Word))],
      s.dev.judge (s.classOf p) x.2.1 x.2.2 = stDone → s.dev.stopped (domOf x.2.1) → Runs x.1 s fun t => Turned s t p x.2.1 stR10 ∧
        t.dev.bit CRG_EVT_XD_STOPPED ∧ t.dev.getF CRG_XD_STOPPED = s.dev.counted CRG_XD_STOPPED 1 ∧
        Frame s t (addr_CRG_XD_STOPPED :: refAddrs) [] [.sent]) ∧
    ∀ x ∈ writeRows p v,
    let a := x.2.1
    (s.dev.judge (s.classOf p) a x.2.2 = stR10 → Runs x.1 s fun t => Turned s t p a stR10 ∧ Outside s t ∧
      Within (fun y => y ∈ refAddrs ∨ blockOf y = blockOf a) [.sent, .crg] s.dev t.dev) ∧
    (s.dev.judge (s.classOf p) a x.2.2 = stDone → s.dev.stopped (domOf a) = false → carriedAddr a → s.dev.drives = false →
      Runs x.1 s fun t => Turned s t p a stR10 ∧ Outside s t ∧
        Within (fun y => y ∈ refAddrs ∨ blockOf y = blockOf a) [.sent] s.dev t.dev) ∧
    (x.1 = .loopWrite p v → s.dev.judge (s.classOf p) a v = stDone → s.dev.stopped (domOf a) = false → s.dev.drives → s.dev.defers a →
      Runs x.1 s fun t => Taken t p a ∧ t.dev.mor = { s.dev.mor with defer := s.dev.mor.defer ++ [(a, v)] } ∧
        t.dev.getF MOR_CMD_DEFER = s.dev.counted MOR_CMD_DEFER 1 ∧ Frame s t (addr_MOR_CMD_DEFER :: satAddrs) [] [.mor, .sent])

/-- The model's invariant, kept by every step from every state that has it: the key's contents are in canonical form, the SVN floor is a
6-bit number, and SAFEOFF_A and SAFEOFF_B are high only with main power, in RUN, with no cause of R291 present (R288, R289, R291). And
R403: OWN_KH once fused never changes, and the SVN floor never falls. -/
def Obligations.InvariantKept : Prop :=
  ∀ s t : State, s.Inv → step s = .next t →
    t.Inv ∧ (s.otp.ownKh ≠ [] → t.otp.ownKh = s.otp.ownKh) ∧ s.otp.svnFloor ≤ t.otp.svnFloor
end

