-- ==== Sys2Proof/Laws/Sparse.lean ====
section
/-! SUPPORT. The laws of the sparse maps: read after write, a write leaves every other index alone, and a write keeps the
canonical form. -/

namespace Sys2Proof.Machine

variable {α : Type}

@[simp] theorem spGet_nil (d : α) (k : Nat) : spGet d [] k = d := rfl

@[simp] theorem spGet_spErase_same (d : α) (m : Sp α) (k : Nat) : spGet d (spErase m k) k = d := by
  induction m with
  | nil => rfl
  | cons x t ih =>
    obtain ⟨a, x⟩ := x
    by_cases h : a = k
    · simp [spErase, h, ih]
    · simp [spErase, h, spGet, ih]

theorem spGet_spErase_ne (d : α) (m : Sp α) {k j : Nat} (h : j ≠ k) : spGet d (spErase m k) j = spGet d m j := by
  induction m with
  | nil => rfl
  | cons x t ih =>
    obtain ⟨a, x⟩ := x
    by_cases ha : a = k
    · subst ha; simp [spErase, spGet, ih, Ne.symm h]
    · by_cases hj : a = j
      · subst hj; simp [spErase, ha, spGet]
      · simp [spErase, ha, spGet, hj, ih]

theorem spGet_spIns_same (d : α) (m : Sp α) (k : Nat) (v : α) (h : ∀ x ∈ m, x.1 ≠ k) : spGet d (spIns m k v) k = v := by
  induction m with
  | nil => simp [spIns, spGet]
  | cons x t ih =>
    obtain ⟨a, x⟩ := x
    have ha : a ≠ k := h (a, x) (by simp)
    have ht : ∀ x ∈ t, x.1 ≠ k := fun y hy => h y (by simp [hy])
    by_cases hk : k < a <;> simp [spIns, hk, spGet, ha, ih ht]

theorem spGet_spIns_ne (d : α) (m : Sp α) {k j : Nat} (v : α) (h : j ≠ k) : spGet d (spIns m k v) j = spGet d m j := by
  induction m with
  | nil => simp [spIns, spGet, Ne.symm h]
  | cons x t ih =>
    obtain ⟨a, x⟩ := x
    by_cases hk : k < a
    · simp [spIns, hk, spGet, Ne.symm h]
    · by_cases hj : a = j
      · subst hj; simp [spIns, hk, spGet]
      · simp [spIns, hk, spGet, hj, ih]

theorem spErase_absent (m : Sp α) (k : Nat) : ∀ x ∈ spErase m k, x.1 ≠ k := by
  induction m with
  | nil => simp [spErase]
  | cons x t ih =>
    obtain ⟨a, x⟩ := x
    by_cases h : a = k
    · simpa [spErase, h] using ih
    · simp only [spErase, h, if_false, List.mem_cons, forall_eq_or_imp]
      exact ⟨h, ih⟩

/-- Read after write. -/
@[simp] theorem spGet_spSet_same [DecidableEq α] (d : α) (m : Sp α) (k : Nat) (v : α) : spGet d (spSet d m k v) k = v := by
  unfold spSet
  split
  · next h => rw [spGet_spErase_same, h]
  · exact spGet_spIns_same d _ k v (spErase_absent m k)

/-- A write leaves every other index alone, whatever default the reader uses. -/
theorem spGet_spSet_ne [DecidableEq α] (d e : α) (m : Sp α) {k j : Nat} (v : α) (h : j ≠ k) :
    spGet e (spSet d m k v) j = spGet e m j := by
  unfold spSet
  split
  · exact spGet_spErase_ne e m h
  · rw [spGet_spIns_ne e _ v h, spGet_spErase_ne e m h]

/-! ### The canonical form -/

theorem spWfFrom_mono [DecidableEq α] (d : Nat → α) {lo hi : Nat} {m : Sp α} (h : lo ≤ hi) (hm : spWfFrom d hi m = true) :
    spWfFrom d lo m = true := by
  cases m with
  | nil => rfl
  | cons x t =>
    simp only [spWfFrom, Bool.and_eq_true, decide_eq_true_eq] at hm ⊢
    exact ⟨⟨Nat.le_trans h hm.1.1, hm.1.2⟩, hm.2⟩

theorem spWfFrom_spErase [DecidableEq α] (d : Nat → α) {lo : Nat} {m : Sp α} (k : Nat) (hm : spWfFrom d lo m = true) :
    spWfFrom d lo (spErase m k) = true := by
  induction m generalizing lo with
  | nil => rfl
  | cons x t ih =>
    obtain ⟨a, x⟩ := x
    simp only [spWfFrom, Bool.and_eq_true, decide_eq_true_eq] at hm
    by_cases h : a = k
    · simp only [spErase, h, if_true]
      exact spWfFrom_mono d (by omega) (ih hm.2)
    · simp only [spErase, h, if_false, spWfFrom, Bool.and_eq_true, decide_eq_true_eq]
      exact ⟨hm.1, ih hm.2⟩

theorem spWfFrom_spIns [DecidableEq α] (d : Nat → α) {lo : Nat} {m : Sp α} {k : Nat} {v : α} (hlo : lo ≤ k) (hv : v ≠ d k)
    (hk : ∀ x ∈ m, x.1 ≠ k) (hm : spWfFrom d lo m = true) : spWfFrom d lo (spIns m k v) = true := by
  induction m generalizing lo with
  | nil => simp [spIns, spWfFrom, hlo, hv]
  | cons x t ih =>
    obtain ⟨a, x⟩ := x
    have ha : a ≠ k := hk (a, x) (by simp)
    simp only [spWfFrom, Bool.and_eq_true, decide_eq_true_eq] at hm
    by_cases h : k < a
    · simp only [spIns, h, if_true, spWfFrom, Bool.and_eq_true, decide_eq_true_eq]
      exact ⟨⟨hlo, hv⟩, ⟨by omega, hm.1.2⟩, hm.2⟩
    · simp only [spIns, h, if_false, spWfFrom, Bool.and_eq_true, decide_eq_true_eq]
      exact ⟨hm.1, ih (by omega) (fun y hy => hk y (by simp [hy])) hm.2⟩

/-- A write keeps the canonical form. -/
theorem spWf_spSet [DecidableEq α] (d : Nat → α) {m : Sp α} (k : Nat) (v : α) (hm : spWf d m = true) :
    spWf d (spSet (d k) m k v) = true := by
  unfold spSet
  split
  · exact spWfFrom_spErase d k hm
  · next h => exact spWfFrom_spIns d (Nat.zero_le k) h (spErase_absent m k) (spWfFrom_spErase d k hm)

end Sys2Proof.Machine
end

