-- ==== Sys2Proof/Laws/State.lean ====
section
/-! SUPPORT. What each shared update leaves alone: one lemma per field per update. The updates of the register file change
`regs` only; a record request changes the register file, the Logbook queue and the MRAM header; `emit` and `free` change the
model's own record of outputs and counter. The proofs stand as (rfl), so that simp rewrites by them as equations and the kernel does
not compare the updated values. -/

namespace Sys2Proof.Machine

/-! ### Each update as a change of the fields it may change -/

theorem Dev.noteSat_only (d : Dev) (b : Nat) : ∃ r, d.noteSat b = { d with regs := r } := by
  unfold Dev.noteSat
  split
  · exact ⟨d.regs, rfl⟩
  · exact ⟨_, rfl⟩

theorem Dev.bumpBy_only (d : Dev) (f : Fld) (n : Nat) : ∃ r, d.bumpBy f n = { d with regs := r } := by
  unfold Dev.bumpBy
  simp only []
  split
  · exact ⟨d.regs, rfl⟩
  · split
    · obtain ⟨r, h⟩ := (d.setF f (2 ^ f.width - 1)).noteSat_only ((blockOf f.addr).getD 0)
      exact ⟨r, h⟩
    · exact ⟨_, rfl⟩

theorem Dev.bump_only (d : Dev) (f : Fld) : ∃ r, d.bump f = { d with regs := r } := d.bumpBy_only f 1

theorem Dev.logAccept_only (d : Dev) (blk code stat : Nat) (items : List Nat) (b : Bool) :
    ∃ r m l, d.logAccept blk code stat items b = { d with regs := r, mram := m, log := l } := by
  unfold Dev.logAccept
  split
  · obtain ⟨r, h⟩ := d.bump_only LOG_QDROP
    rw [h]
    exact ⟨_, d.mram, d.log, rfl⟩
  · exact ⟨d.regs, _, _, rfl⟩

theorem Dev.mftTriggerAt_only (d : Dev) (src det tm : Nat) :
    ∃ r m, d.mftTriggerAt src det tm = { d with regs := r, mft := m } := by
  unfold Dev.mftTriggerAt
  have missed : ∃ r m, (d.bump MFT_MISSED).evt MFT_EVT_MISSED = { d with regs := r, mft := m } := by
    obtain ⟨r, h⟩ := d.bump_only MFT_MISSED
    rw [h]
    exact ⟨_, d.mft, rfl⟩
  split
  · exact ⟨d.regs, d.mft, rfl⟩
  · split
    · split
      · exact ⟨d.regs, _, rfl⟩
      · exact missed
    · split
      · exact ⟨d.regs, _, rfl⟩
      · exact missed

/-! ### The fields -/

section
variable (d : Dev) (f : Fld) (a n v i : Nat) (w : Word) (b : Bool)

@[simp] theorem Dev.wr_time : (d.wr a w).time = d.time := (rfl)
@[simp] theorem Dev.wrN_time : (d.wrN a v).time = d.time := (rfl)
@[simp] theorem Dev.setF_time : (d.setF f v).time = d.time := (rfl)
@[simp] theorem Dev.setB_time : (d.setB f b).time = d.time := (rfl)
@[simp] theorem Dev.setMaskBit_time : (d.setMaskBit a i b).time = d.time := (rfl)
@[simp] theorem Dev.evt_time : (d.evt f).time = d.time := (rfl)
@[simp] theorem Dev.noteSat_time : (d.noteSat n).time = d.time := by obtain ⟨r, h⟩ := d.noteSat_only n; rw [h]
@[simp] theorem Dev.bumpBy_time : (d.bumpBy f n).time = d.time := by obtain ⟨r, h⟩ := d.bumpBy_only f n; rw [h]
@[simp] theorem Dev.bump_time : (d.bump f).time = d.time := by obtain ⟨r, h⟩ := d.bump_only f; rw [h]
@[simp] theorem Dev.wr_brtc : (d.wr a w).brtc = d.brtc := (rfl)
@[simp] theorem Dev.wrN_brtc : (d.wrN a v).brtc = d.brtc := (rfl)
@[simp] theorem Dev.setF_brtc : (d.setF f v).brtc = d.brtc := (rfl)
@[simp] theorem Dev.setB_brtc : (d.setB f b).brtc = d.brtc := (rfl)
@[simp] theorem Dev.setMaskBit_brtc : (d.setMaskBit a i b).brtc = d.brtc := (rfl)
@[simp] theorem Dev.evt_brtc : (d.evt f).brtc = d.brtc := (rfl)
@[simp] theorem Dev.noteSat_brtc : (d.noteSat n).brtc = d.brtc := by obtain ⟨r, h⟩ := d.noteSat_only n; rw [h]
@[simp] theorem Dev.bumpBy_brtc : (d.bumpBy f n).brtc = d.brtc := by obtain ⟨r, h⟩ := d.bumpBy_only f n; rw [h]
@[simp] theorem Dev.bump_brtc : (d.bump f).brtc = d.brtc := by obtain ⟨r, h⟩ := d.bump_only f; rw [h]
@[simp] theorem Dev.wr_per : (d.wr a w).per = d.per := (rfl)
@[simp] theorem Dev.wrN_per : (d.wrN a v).per = d.per := (rfl)
@[simp] theorem Dev.setF_per : (d.setF f v).per = d.per := (rfl)
@[simp] theorem Dev.setB_per : (d.setB f b).per = d.per := (rfl)
@[simp] theorem Dev.setMaskBit_per : (d.setMaskBit a i b).per = d.per := (rfl)
@[simp] theorem Dev.evt_per : (d.evt f).per = d.per := (rfl)
@[simp] theorem Dev.noteSat_per : (d.noteSat n).per = d.per := by obtain ⟨r, h⟩ := d.noteSat_only n; rw [h]
@[simp] theorem Dev.bumpBy_per : (d.bumpBy f n).per = d.per := by obtain ⟨r, h⟩ := d.bumpBy_only f n; rw [h]
@[simp] theorem Dev.bump_per : (d.bump f).per = d.per := by obtain ⟨r, h⟩ := d.bump_only f; rw [h]
@[simp] theorem Dev.wr_tbs : (d.wr a w).tbs = d.tbs := (rfl)
@[simp] theorem Dev.wrN_tbs : (d.wrN a v).tbs = d.tbs := (rfl)
@[simp] theorem Dev.setF_tbs : (d.setF f v).tbs = d.tbs := (rfl)
@[simp] theorem Dev.setB_tbs : (d.setB f b).tbs = d.tbs := (rfl)
@[simp] theorem Dev.setMaskBit_tbs : (d.setMaskBit a i b).tbs = d.tbs := (rfl)
@[simp] theorem Dev.evt_tbs : (d.evt f).tbs = d.tbs := (rfl)
@[simp] theorem Dev.noteSat_tbs : (d.noteSat n).tbs = d.tbs := by obtain ⟨r, h⟩ := d.noteSat_only n; rw [h]
@[simp] theorem Dev.bumpBy_tbs : (d.bumpBy f n).tbs = d.tbs := by obtain ⟨r, h⟩ := d.bumpBy_only f n; rw [h]
@[simp] theorem Dev.bump_tbs : (d.bump f).tbs = d.tbs := by obtain ⟨r, h⟩ := d.bump_only f; rw [h]
@[simp] theorem Dev.wr_ptp1 : (d.wr a w).ptp1 = d.ptp1 := (rfl)
@[simp] theorem Dev.wrN_ptp1 : (d.wrN a v).ptp1 = d.ptp1 := (rfl)
@[simp] theorem Dev.setF_ptp1 : (d.setF f v).ptp1 = d.ptp1 := (rfl)
@[simp] theorem Dev.setB_ptp1 : (d.setB f b).ptp1 = d.ptp1 := (rfl)
@[simp] theorem Dev.setMaskBit_ptp1 : (d.setMaskBit a i b).ptp1 = d.ptp1 := (rfl)
@[simp] theorem Dev.evt_ptp1 : (d.evt f).ptp1 = d.ptp1 := (rfl)
@[simp] theorem Dev.noteSat_ptp1 : (d.noteSat n).ptp1 = d.ptp1 := by obtain ⟨r, h⟩ := d.noteSat_only n; rw [h]
@[simp] theorem Dev.bumpBy_ptp1 : (d.bumpBy f n).ptp1 = d.ptp1 := by obtain ⟨r, h⟩ := d.bumpBy_only f n; rw [h]
@[simp] theorem Dev.bump_ptp1 : (d.bump f).ptp1 = d.ptp1 := by obtain ⟨r, h⟩ := d.bump_only f; rw [h]
@[simp] theorem Dev.wr_ptp2 : (d.wr a w).ptp2 = d.ptp2 := (rfl)
@[simp] theorem Dev.wrN_ptp2 : (d.wrN a v).ptp2 = d.ptp2 := (rfl)
@[simp] theorem Dev.setF_ptp2 : (d.setF f v).ptp2 = d.ptp2 := (rfl)
@[simp] theorem Dev.setB_ptp2 : (d.setB f b).ptp2 = d.ptp2 := (rfl)
@[simp] theorem Dev.setMaskBit_ptp2 : (d.setMaskBit a i b).ptp2 = d.ptp2 := (rfl)
@[simp] theorem Dev.evt_ptp2 : (d.evt f).ptp2 = d.ptp2 := (rfl)
@[simp] theorem Dev.noteSat_ptp2 : (d.noteSat n).ptp2 = d.ptp2 := by obtain ⟨r, h⟩ := d.noteSat_only n; rw [h]
@[simp] theorem Dev.bumpBy_ptp2 : (d.bumpBy f n).ptp2 = d.ptp2 := by obtain ⟨r, h⟩ := d.bumpBy_only f n; rw [h]
@[simp] theorem Dev.bump_ptp2 : (d.bump f).ptp2 = d.ptp2 := by obtain ⟨r, h⟩ := d.bump_only f; rw [h]
@[simp] theorem Dev.wr_lanes : (d.wr a w).lanes = d.lanes := (rfl)
@[simp] theorem Dev.wrN_lanes : (d.wrN a v).lanes = d.lanes := (rfl)
@[simp] theorem Dev.setF_lanes : (d.setF f v).lanes = d.lanes := (rfl)
@[simp] theorem Dev.setB_lanes : (d.setB f b).lanes = d.lanes := (rfl)
@[simp] theorem Dev.setMaskBit_lanes : (d.setMaskBit a i b).lanes = d.lanes := (rfl)
@[simp] theorem Dev.evt_lanes : (d.evt f).lanes = d.lanes := (rfl)
@[simp] theorem Dev.noteSat_lanes : (d.noteSat n).lanes = d.lanes := by obtain ⟨r, h⟩ := d.noteSat_only n; rw [h]
@[simp] theorem Dev.bumpBy_lanes : (d.bumpBy f n).lanes = d.lanes := by obtain ⟨r, h⟩ := d.bumpBy_only f n; rw [h]
@[simp] theorem Dev.bump_lanes : (d.bump f).lanes = d.lanes := by obtain ⟨r, h⟩ := d.bump_only f; rw [h]
@[simp] theorem Dev.wr_twl : (d.wr a w).twl = d.twl := (rfl)
@[simp] theorem Dev.wrN_twl : (d.wrN a v).twl = d.twl := (rfl)
@[simp] theorem Dev.setF_twl : (d.setF f v).twl = d.twl := (rfl)
@[simp] theorem Dev.setB_twl : (d.setB f b).twl = d.twl := (rfl)
@[simp] theorem Dev.setMaskBit_twl : (d.setMaskBit a i b).twl = d.twl := (rfl)
@[simp] theorem Dev.evt_twl : (d.evt f).twl = d.twl := (rfl)
@[simp] theorem Dev.noteSat_twl : (d.noteSat n).twl = d.twl := by obtain ⟨r, h⟩ := d.noteSat_only n; rw [h]
@[simp] theorem Dev.bumpBy_twl : (d.bumpBy f n).twl = d.twl := by obtain ⟨r, h⟩ := d.bumpBy_only f n; rw [h]
@[simp] theorem Dev.bump_twl : (d.bump f).twl = d.twl := by obtain ⟨r, h⟩ := d.bump_only f; rw [h]
@[simp] theorem Dev.wr_smem : (d.wr a w).smem = d.smem := (rfl)
@[simp] theorem Dev.wrN_smem : (d.wrN a v).smem = d.smem := (rfl)
@[simp] theorem Dev.setF_smem : (d.setF f v).smem = d.smem := (rfl)
@[simp] theorem Dev.setB_smem : (d.setB f b).smem = d.smem := (rfl)
@[simp] theorem Dev.setMaskBit_smem : (d.setMaskBit a i b).smem = d.smem := (rfl)
@[simp] theorem Dev.evt_smem : (d.evt f).smem = d.smem := (rfl)
@[simp] theorem Dev.noteSat_smem : (d.noteSat n).smem = d.smem := by obtain ⟨r, h⟩ := d.noteSat_only n; rw [h]
@[simp] theorem Dev.bumpBy_smem : (d.bumpBy f n).smem = d.smem := by obtain ⟨r, h⟩ := d.bumpBy_only f n; rw [h]
@[simp] theorem Dev.bump_smem : (d.bump f).smem = d.smem := by obtain ⟨r, h⟩ := d.bump_only f; rw [h]
@[simp] theorem Dev.wr_cbk : (d.wr a w).cbk = d.cbk := (rfl)
@[simp] theorem Dev.wrN_cbk : (d.wrN a v).cbk = d.cbk := (rfl)
@[simp] theorem Dev.setF_cbk : (d.setF f v).cbk = d.cbk := (rfl)
@[simp] theorem Dev.setB_cbk : (d.setB f b).cbk = d.cbk := (rfl)
@[simp] theorem Dev.setMaskBit_cbk : (d.setMaskBit a i b).cbk = d.cbk := (rfl)
@[simp] theorem Dev.evt_cbk : (d.evt f).cbk = d.cbk := (rfl)
@[simp] theorem Dev.noteSat_cbk : (d.noteSat n).cbk = d.cbk := by obtain ⟨r, h⟩ := d.noteSat_only n; rw [h]
@[simp] theorem Dev.bumpBy_cbk : (d.bumpBy f n).cbk = d.cbk := by obtain ⟨r, h⟩ := d.bumpBy_only f n; rw [h]
@[simp] theorem Dev.bump_cbk : (d.bump f).cbk = d.cbk := by obtain ⟨r, h⟩ := d.bump_only f; rw [h]
@[simp] theorem Dev.wr_hlm : (d.wr a w).hlm = d.hlm := (rfl)
@[simp] theorem Dev.wrN_hlm : (d.wrN a v).hlm = d.hlm := (rfl)
@[simp] theorem Dev.setF_hlm : (d.setF f v).hlm = d.hlm := (rfl)
@[simp] theorem Dev.setB_hlm : (d.setB f b).hlm = d.hlm := (rfl)
@[simp] theorem Dev.setMaskBit_hlm : (d.setMaskBit a i b).hlm = d.hlm := (rfl)
@[simp] theorem Dev.evt_hlm : (d.evt f).hlm = d.hlm := (rfl)
@[simp] theorem Dev.noteSat_hlm : (d.noteSat n).hlm = d.hlm := by obtain ⟨r, h⟩ := d.noteSat_only n; rw [h]
@[simp] theorem Dev.bumpBy_hlm : (d.bumpBy f n).hlm = d.hlm := by obtain ⟨r, h⟩ := d.bumpBy_only f n; rw [h]
@[simp] theorem Dev.bump_hlm : (d.bump f).hlm = d.hlm := by obtain ⟨r, h⟩ := d.bump_only f; rw [h]
@[simp] theorem Dev.wr_gwy : (d.wr a w).gwy = d.gwy := (rfl)
@[simp] theorem Dev.wrN_gwy : (d.wrN a v).gwy = d.gwy := (rfl)
@[simp] theorem Dev.setF_gwy : (d.setF f v).gwy = d.gwy := (rfl)
@[simp] theorem Dev.setB_gwy : (d.setB f b).gwy = d.gwy := (rfl)
@[simp] theorem Dev.setMaskBit_gwy : (d.setMaskBit a i b).gwy = d.gwy := (rfl)
@[simp] theorem Dev.evt_gwy : (d.evt f).gwy = d.gwy := (rfl)
@[simp] theorem Dev.noteSat_gwy : (d.noteSat n).gwy = d.gwy := by obtain ⟨r, h⟩ := d.noteSat_only n; rw [h]
@[simp] theorem Dev.bumpBy_gwy : (d.bumpBy f n).gwy = d.gwy := by obtain ⟨r, h⟩ := d.bumpBy_only f n; rw [h]
@[simp] theorem Dev.bump_gwy : (d.bump f).gwy = d.gwy := by obtain ⟨r, h⟩ := d.bump_only f; rw [h]
@[simp] theorem Dev.wr_bls : (d.wr a w).bls = d.bls := (rfl)
@[simp] theorem Dev.wrN_bls : (d.wrN a v).bls = d.bls := (rfl)
@[simp] theorem Dev.setF_bls : (d.setF f v).bls = d.bls := (rfl)
@[simp] theorem Dev.setB_bls : (d.setB f b).bls = d.bls := (rfl)
@[simp] theorem Dev.setMaskBit_bls : (d.setMaskBit a i b).bls = d.bls := (rfl)
@[simp] theorem Dev.evt_bls : (d.evt f).bls = d.bls := (rfl)
@[simp] theorem Dev.noteSat_bls : (d.noteSat n).bls = d.bls := by obtain ⟨r, h⟩ := d.noteSat_only n; rw [h]
@[simp] theorem Dev.bumpBy_bls : (d.bumpBy f n).bls = d.bls := by obtain ⟨r, h⟩ := d.bumpBy_only f n; rw [h]
@[simp] theorem Dev.bump_bls : (d.bump f).bls = d.bls := by obtain ⟨r, h⟩ := d.bump_only f; rw [h]
@[simp] theorem Dev.wr_mod : (d.wr a w).mod = d.mod := (rfl)
@[simp] theorem Dev.wrN_mod : (d.wrN a v).mod = d.mod := (rfl)
@[simp] theorem Dev.setF_mod : (d.setF f v).mod = d.mod := (rfl)
@[simp] theorem Dev.setB_mod : (d.setB f b).mod = d.mod := (rfl)
@[simp] theorem Dev.setMaskBit_mod : (d.setMaskBit a i b).mod = d.mod := (rfl)
@[simp] theorem Dev.evt_mod : (d.evt f).mod = d.mod := (rfl)
@[simp] theorem Dev.noteSat_mod : (d.noteSat n).mod = d.mod := by obtain ⟨r, h⟩ := d.noteSat_only n; rw [h]
@[simp] theorem Dev.bumpBy_mod : (d.bumpBy f n).mod = d.mod := by obtain ⟨r, h⟩ := d.bumpBy_only f n; rw [h]
@[simp] theorem Dev.bump_mod : (d.bump f).mod = d.mod := by obtain ⟨r, h⟩ := d.bump_only f; rw [h]
@[simp] theorem Dev.wr_sar : (d.wr a w).sar = d.sar := (rfl)
@[simp] theorem Dev.wrN_sar : (d.wrN a v).sar = d.sar := (rfl)
@[simp] theorem Dev.setF_sar : (d.setF f v).sar = d.sar := (rfl)
@[simp] theorem Dev.setB_sar : (d.setB f b).sar = d.sar := (rfl)
@[simp] theorem Dev.setMaskBit_sar : (d.setMaskBit a i b).sar = d.sar := (rfl)
@[simp] theorem Dev.evt_sar : (d.evt f).sar = d.sar := (rfl)
@[simp] theorem Dev.noteSat_sar : (d.noteSat n).sar = d.sar := by obtain ⟨r, h⟩ := d.noteSat_only n; rw [h]
@[simp] theorem Dev.bumpBy_sar : (d.bumpBy f n).sar = d.sar := by obtain ⟨r, h⟩ := d.bumpBy_only f n; rw [h]
@[simp] theorem Dev.bump_sar : (d.bump f).sar = d.sar := by obtain ⟨r, h⟩ := d.bump_only f; rw [h]
@[simp] theorem Dev.wr_wcm : (d.wr a w).wcm = d.wcm := (rfl)
@[simp] theorem Dev.wrN_wcm : (d.wrN a v).wcm = d.wcm := (rfl)
@[simp] theorem Dev.setF_wcm : (d.setF f v).wcm = d.wcm := (rfl)
@[simp] theorem Dev.setB_wcm : (d.setB f b).wcm = d.wcm := (rfl)
@[simp] theorem Dev.setMaskBit_wcm : (d.setMaskBit a i b).wcm = d.wcm := (rfl)
@[simp] theorem Dev.evt_wcm : (d.evt f).wcm = d.wcm := (rfl)
@[simp] theorem Dev.noteSat_wcm : (d.noteSat n).wcm = d.wcm := by obtain ⟨r, h⟩ := d.noteSat_only n; rw [h]
@[simp] theorem Dev.bumpBy_wcm : (d.bumpBy f n).wcm = d.wcm := by obtain ⟨r, h⟩ := d.bumpBy_only f n; rw [h]
@[simp] theorem Dev.bump_wcm : (d.bump f).wcm = d.wcm := by obtain ⟨r, h⟩ := d.bump_only f; rw [h]
@[simp] theorem Dev.wr_mtr : (d.wr a w).mtr = d.mtr := (rfl)
@[simp] theorem Dev.wrN_mtr : (d.wrN a v).mtr = d.mtr := (rfl)
@[simp] theorem Dev.setF_mtr : (d.setF f v).mtr = d.mtr := (rfl)
@[simp] theorem Dev.setB_mtr : (d.setB f b).mtr = d.mtr := (rfl)
@[simp] theorem Dev.setMaskBit_mtr : (d.setMaskBit a i b).mtr = d.mtr := (rfl)
@[simp] theorem Dev.evt_mtr : (d.evt f).mtr = d.mtr := (rfl)
@[simp] theorem Dev.noteSat_mtr : (d.noteSat n).mtr = d.mtr := by obtain ⟨r, h⟩ := d.noteSat_only n; rw [h]
@[simp] theorem Dev.bumpBy_mtr : (d.bumpBy f n).mtr = d.mtr := by obtain ⟨r, h⟩ := d.bumpBy_only f n; rw [h]
@[simp] theorem Dev.bump_mtr : (d.bump f).mtr = d.mtr := by obtain ⟨r, h⟩ := d.bump_only f; rw [h]
@[simp] theorem Dev.wr_net : (d.wr a w).net = d.net := (rfl)
@[simp] theorem Dev.wrN_net : (d.wrN a v).net = d.net := (rfl)
@[simp] theorem Dev.setF_net : (d.setF f v).net = d.net := (rfl)
@[simp] theorem Dev.setB_net : (d.setB f b).net = d.net := (rfl)
@[simp] theorem Dev.setMaskBit_net : (d.setMaskBit a i b).net = d.net := (rfl)
@[simp] theorem Dev.evt_net : (d.evt f).net = d.net := (rfl)
@[simp] theorem Dev.noteSat_net : (d.noteSat n).net = d.net := by obtain ⟨r, h⟩ := d.noteSat_only n; rw [h]
@[simp] theorem Dev.bumpBy_net : (d.bumpBy f n).net = d.net := by obtain ⟨r, h⟩ := d.bumpBy_only f n; rw [h]
@[simp] theorem Dev.bump_net : (d.bump f).net = d.net := by obtain ⟨r, h⟩ := d.bump_only f; rw [h]
@[simp] theorem Dev.wr_svx : (d.wr a w).svx = d.svx := (rfl)
@[simp] theorem Dev.wrN_svx : (d.wrN a v).svx = d.svx := (rfl)
@[simp] theorem Dev.setF_svx : (d.setF f v).svx = d.svx := (rfl)
@[simp] theorem Dev.setB_svx : (d.setB f b).svx = d.svx := (rfl)
@[simp] theorem Dev.setMaskBit_svx : (d.setMaskBit a i b).svx = d.svx := (rfl)
@[simp] theorem Dev.evt_svx : (d.evt f).svx = d.svx := (rfl)
@[simp] theorem Dev.noteSat_svx : (d.noteSat n).svx = d.svx := by obtain ⟨r, h⟩ := d.noteSat_only n; rw [h]
@[simp] theorem Dev.bumpBy_svx : (d.bumpBy f n).svx = d.svx := by obtain ⟨r, h⟩ := d.bumpBy_only f n; rw [h]
@[simp] theorem Dev.bump_svx : (d.bump f).svx = d.svx := by obtain ⟨r, h⟩ := d.bump_only f; rw [h]
@[simp] theorem Dev.wr_gse : (d.wr a w).gse = d.gse := (rfl)
@[simp] theorem Dev.wrN_gse : (d.wrN a v).gse = d.gse := (rfl)
@[simp] theorem Dev.setF_gse : (d.setF f v).gse = d.gse := (rfl)
@[simp] theorem Dev.setB_gse : (d.setB f b).gse = d.gse := (rfl)
@[simp] theorem Dev.setMaskBit_gse : (d.setMaskBit a i b).gse = d.gse := (rfl)
@[simp] theorem Dev.evt_gse : (d.evt f).gse = d.gse := (rfl)
@[simp] theorem Dev.noteSat_gse : (d.noteSat n).gse = d.gse := by obtain ⟨r, h⟩ := d.noteSat_only n; rw [h]
@[simp] theorem Dev.bumpBy_gse : (d.bumpBy f n).gse = d.gse := by obtain ⟨r, h⟩ := d.bumpBy_only f n; rw [h]
@[simp] theorem Dev.bump_gse : (d.bump f).gse = d.gse := by obtain ⟨r, h⟩ := d.bump_only f; rw [h]
@[simp] theorem Dev.wr_lb : (d.wr a w).lb = d.lb := (rfl)
@[simp] theorem Dev.wrN_lb : (d.wrN a v).lb = d.lb := (rfl)
@[simp] theorem Dev.setF_lb : (d.setF f v).lb = d.lb := (rfl)
@[simp] theorem Dev.setB_lb : (d.setB f b).lb = d.lb := (rfl)
@[simp] theorem Dev.setMaskBit_lb : (d.setMaskBit a i b).lb = d.lb := (rfl)
@[simp] theorem Dev.evt_lb : (d.evt f).lb = d.lb := (rfl)
@[simp] theorem Dev.noteSat_lb : (d.noteSat n).lb = d.lb := by obtain ⟨r, h⟩ := d.noteSat_only n; rw [h]
@[simp] theorem Dev.bumpBy_lb : (d.bumpBy f n).lb = d.lb := by obtain ⟨r, h⟩ := d.bumpBy_only f n; rw [h]
@[simp] theorem Dev.bump_lb : (d.bump f).lb = d.lb := by obtain ⟨r, h⟩ := d.bump_only f; rw [h]
@[simp] theorem Dev.wr_mor : (d.wr a w).mor = d.mor := (rfl)
@[simp] theorem Dev.wrN_mor : (d.wrN a v).mor = d.mor := (rfl)
@[simp] theorem Dev.setF_mor : (d.setF f v).mor = d.mor := (rfl)
@[simp] theorem Dev.setB_mor : (d.setB f b).mor = d.mor := (rfl)
@[simp] theorem Dev.setMaskBit_mor : (d.setMaskBit a i b).mor = d.mor := (rfl)
@[simp] theorem Dev.evt_mor : (d.evt f).mor = d.mor := (rfl)
@[simp] theorem Dev.noteSat_mor : (d.noteSat n).mor = d.mor := by obtain ⟨r, h⟩ := d.noteSat_only n; rw [h]
@[simp] theorem Dev.bumpBy_mor : (d.bumpBy f n).mor = d.mor := by obtain ⟨r, h⟩ := d.bumpBy_only f n; rw [h]
@[simp] theorem Dev.bump_mor : (d.bump f).mor = d.mor := by obtain ⟨r, h⟩ := d.bump_only f; rw [h]
@[simp] theorem Dev.wr_saf : (d.wr a w).saf = d.saf := (rfl)
@[simp] theorem Dev.wrN_saf : (d.wrN a v).saf = d.saf := (rfl)
@[simp] theorem Dev.setF_saf : (d.setF f v).saf = d.saf := (rfl)
@[simp] theorem Dev.setB_saf : (d.setB f b).saf = d.saf := (rfl)
@[simp] theorem Dev.setMaskBit_saf : (d.setMaskBit a i b).saf = d.saf := (rfl)
@[simp] theorem Dev.evt_saf : (d.evt f).saf = d.saf := (rfl)
@[simp] theorem Dev.noteSat_saf : (d.noteSat n).saf = d.saf := by obtain ⟨r, h⟩ := d.noteSat_only n; rw [h]
@[simp] theorem Dev.bumpBy_saf : (d.bumpBy f n).saf = d.saf := by obtain ⟨r, h⟩ := d.bumpBy_only f n; rw [h]
@[simp] theorem Dev.bump_saf : (d.bump f).saf = d.saf := by obtain ⟨r, h⟩ := d.bump_only f; rw [h]
@[simp] theorem Dev.wr_rxReady : (d.wr a w).rxReady = d.rxReady := (rfl)
@[simp] theorem Dev.wrN_rxReady : (d.wrN a v).rxReady = d.rxReady := (rfl)
@[simp] theorem Dev.setF_rxReady : (d.setF f v).rxReady = d.rxReady := (rfl)
@[simp] theorem Dev.setB_rxReady : (d.setB f b).rxReady = d.rxReady := (rfl)
@[simp] theorem Dev.setMaskBit_rxReady : (d.setMaskBit a i b).rxReady = d.rxReady := (rfl)
@[simp] theorem Dev.evt_rxReady : (d.evt f).rxReady = d.rxReady := (rfl)
@[simp] theorem Dev.noteSat_rxReady : (d.noteSat n).rxReady = d.rxReady := by obtain ⟨r, h⟩ := d.noteSat_only n; rw [h]
@[simp] theorem Dev.bumpBy_rxReady : (d.bumpBy f n).rxReady = d.rxReady := by obtain ⟨r, h⟩ := d.bumpBy_only f n; rw [h]
@[simp] theorem Dev.bump_rxReady : (d.bump f).rxReady = d.rxReady := by obtain ⟨r, h⟩ := d.bump_only f; rw [h]
@[simp] theorem Dev.wr_log : (d.wr a w).log = d.log := (rfl)
@[simp] theorem Dev.wrN_log : (d.wrN a v).log = d.log := (rfl)
@[simp] theorem Dev.setF_log : (d.setF f v).log = d.log := (rfl)
@[simp] theorem Dev.setB_log : (d.setB f b).log = d.log := (rfl)
@[simp] theorem Dev.setMaskBit_log : (d.setMaskBit a i b).log = d.log := (rfl)
@[simp] theorem Dev.evt_log : (d.evt f).log = d.log := (rfl)
@[simp] theorem Dev.noteSat_log : (d.noteSat n).log = d.log := by obtain ⟨r, h⟩ := d.noteSat_only n; rw [h]
@[simp] theorem Dev.bumpBy_log : (d.bumpBy f n).log = d.log := by obtain ⟨r, h⟩ := d.bumpBy_only f n; rw [h]
@[simp] theorem Dev.bump_log : (d.bump f).log = d.log := by obtain ⟨r, h⟩ := d.bump_only f; rw [h]
@[simp] theorem Dev.wr_mft : (d.wr a w).mft = d.mft := (rfl)
@[simp] theorem Dev.wrN_mft : (d.wrN a v).mft = d.mft := (rfl)
@[simp] theorem Dev.setF_mft : (d.setF f v).mft = d.mft := (rfl)
@[simp] theorem Dev.setB_mft : (d.setB f b).mft = d.mft := (rfl)
@[simp] theorem Dev.setMaskBit_mft : (d.setMaskBit a i b).mft = d.mft := (rfl)
@[simp] theorem Dev.evt_mft : (d.evt f).mft = d.mft := (rfl)
@[simp] theorem Dev.noteSat_mft : (d.noteSat n).mft = d.mft := by obtain ⟨r, h⟩ := d.noteSat_only n; rw [h]
@[simp] theorem Dev.bumpBy_mft : (d.bumpBy f n).mft = d.mft := by obtain ⟨r, h⟩ := d.bumpBy_only f n; rw [h]
@[simp] theorem Dev.bump_mft : (d.bump f).mft = d.mft := by obtain ⟨r, h⟩ := d.bump_only f; rw [h]
@[simp] theorem Dev.wr_thm : (d.wr a w).thm = d.thm := (rfl)
@[simp] theorem Dev.wrN_thm : (d.wrN a v).thm = d.thm := (rfl)
@[simp] theorem Dev.setF_thm : (d.setF f v).thm = d.thm := (rfl)
@[simp] theorem Dev.setB_thm : (d.setB f b).thm = d.thm := (rfl)
@[simp] theorem Dev.setMaskBit_thm : (d.setMaskBit a i b).thm = d.thm := (rfl)
@[simp] theorem Dev.evt_thm : (d.evt f).thm = d.thm := (rfl)
@[simp] theorem Dev.noteSat_thm : (d.noteSat n).thm = d.thm := by obtain ⟨r, h⟩ := d.noteSat_only n; rw [h]
@[simp] theorem Dev.bumpBy_thm : (d.bumpBy f n).thm = d.thm := by obtain ⟨r, h⟩ := d.bumpBy_only f n; rw [h]
@[simp] theorem Dev.bump_thm : (d.bump f).thm = d.thm := by obtain ⟨r, h⟩ := d.bump_only f; rw [h]
@[simp] theorem Dev.wr_mgt : (d.wr a w).mgt = d.mgt := (rfl)
@[simp] theorem Dev.wrN_mgt : (d.wrN a v).mgt = d.mgt := (rfl)
@[simp] theorem Dev.setF_mgt : (d.setF f v).mgt = d.mgt := (rfl)
@[simp] theorem Dev.setB_mgt : (d.setB f b).mgt = d.mgt := (rfl)
@[simp] theorem Dev.setMaskBit_mgt : (d.setMaskBit a i b).mgt = d.mgt := (rfl)
@[simp] theorem Dev.evt_mgt : (d.evt f).mgt = d.mgt := (rfl)
@[simp] theorem Dev.noteSat_mgt : (d.noteSat n).mgt = d.mgt := by obtain ⟨r, h⟩ := d.noteSat_only n; rw [h]
@[simp] theorem Dev.bumpBy_mgt : (d.bumpBy f n).mgt = d.mgt := by obtain ⟨r, h⟩ := d.bumpBy_only f n; rw [h]
@[simp] theorem Dev.bump_mgt : (d.bump f).mgt = d.mgt := by obtain ⟨r, h⟩ := d.bump_only f; rw [h]
@[simp] theorem Dev.wr_crg : (d.wr a w).crg = d.crg := (rfl)
@[simp] theorem Dev.wrN_crg : (d.wrN a v).crg = d.crg := (rfl)
@[simp] theorem Dev.setF_crg : (d.setF f v).crg = d.crg := (rfl)
@[simp] theorem Dev.setB_crg : (d.setB f b).crg = d.crg := (rfl)
@[simp] theorem Dev.setMaskBit_crg : (d.setMaskBit a i b).crg = d.crg := (rfl)
@[simp] theorem Dev.evt_crg : (d.evt f).crg = d.crg := (rfl)
@[simp] theorem Dev.noteSat_crg : (d.noteSat n).crg = d.crg := by obtain ⟨r, h⟩ := d.noteSat_only n; rw [h]
@[simp] theorem Dev.bumpBy_crg : (d.bumpBy f n).crg = d.crg := by obtain ⟨r, h⟩ := d.bumpBy_only f n; rw [h]
@[simp] theorem Dev.bump_crg : (d.bump f).crg = d.crg := by obtain ⟨r, h⟩ := d.bump_only f; rw [h]
@[simp] theorem Dev.wr_kcmd : (d.wr a w).kcmd = d.kcmd := (rfl)
@[simp] theorem Dev.wrN_kcmd : (d.wrN a v).kcmd = d.kcmd := (rfl)
@[simp] theorem Dev.setF_kcmd : (d.setF f v).kcmd = d.kcmd := (rfl)
@[simp] theorem Dev.setB_kcmd : (d.setB f b).kcmd = d.kcmd := (rfl)
@[simp] theorem Dev.setMaskBit_kcmd : (d.setMaskBit a i b).kcmd = d.kcmd := (rfl)
@[simp] theorem Dev.evt_kcmd : (d.evt f).kcmd = d.kcmd := (rfl)
@[simp] theorem Dev.noteSat_kcmd : (d.noteSat n).kcmd = d.kcmd := by obtain ⟨r, h⟩ := d.noteSat_only n; rw [h]
@[simp] theorem Dev.bumpBy_kcmd : (d.bumpBy f n).kcmd = d.kcmd := by obtain ⟨r, h⟩ := d.bumpBy_only f n; rw [h]
@[simp] theorem Dev.bump_kcmd : (d.bump f).kcmd = d.kcmd := by obtain ⟨r, h⟩ := d.bump_only f; rw [h]
@[simp] theorem Dev.wr_mram : (d.wr a w).mram = d.mram := (rfl)
@[simp] theorem Dev.wrN_mram : (d.wrN a v).mram = d.mram := (rfl)
@[simp] theorem Dev.setF_mram : (d.setF f v).mram = d.mram := (rfl)
@[simp] theorem Dev.setB_mram : (d.setB f b).mram = d.mram := (rfl)
@[simp] theorem Dev.setMaskBit_mram : (d.setMaskBit a i b).mram = d.mram := (rfl)
@[simp] theorem Dev.evt_mram : (d.evt f).mram = d.mram := (rfl)
@[simp] theorem Dev.noteSat_mram : (d.noteSat n).mram = d.mram := by obtain ⟨r, h⟩ := d.noteSat_only n; rw [h]
@[simp] theorem Dev.bumpBy_mram : (d.bumpBy f n).mram = d.mram := by obtain ⟨r, h⟩ := d.bumpBy_only f n; rw [h]
@[simp] theorem Dev.bump_mram : (d.bump f).mram = d.mram := by obtain ⟨r, h⟩ := d.bump_only f; rw [h]
@[simp] theorem Dev.wr_sent : (d.wr a w).sent = d.sent := (rfl)
@[simp] theorem Dev.wrN_sent : (d.wrN a v).sent = d.sent := (rfl)
@[simp] theorem Dev.setF_sent : (d.setF f v).sent = d.sent := (rfl)
@[simp] theorem Dev.setB_sent : (d.setB f b).sent = d.sent := (rfl)
@[simp] theorem Dev.setMaskBit_sent : (d.setMaskBit a i b).sent = d.sent := (rfl)
@[simp] theorem Dev.evt_sent : (d.evt f).sent = d.sent := (rfl)
@[simp] theorem Dev.noteSat_sent : (d.noteSat n).sent = d.sent := by obtain ⟨r, h⟩ := d.noteSat_only n; rw [h]
@[simp] theorem Dev.bumpBy_sent : (d.bumpBy f n).sent = d.sent := by obtain ⟨r, h⟩ := d.bumpBy_only f n; rw [h]
@[simp] theorem Dev.bump_sent : (d.bump f).sent = d.sent := by obtain ⟨r, h⟩ := d.bump_only f; rw [h]
@[simp] theorem Dev.wr_freeCtr : (d.wr a w).freeCtr = d.freeCtr := (rfl)
@[simp] theorem Dev.wrN_freeCtr : (d.wrN a v).freeCtr = d.freeCtr := (rfl)
@[simp] theorem Dev.setF_freeCtr : (d.setF f v).freeCtr = d.freeCtr := (rfl)
@[simp] theorem Dev.setB_freeCtr : (d.setB f b).freeCtr = d.freeCtr := (rfl)
@[simp] theorem Dev.setMaskBit_freeCtr : (d.setMaskBit a i b).freeCtr = d.freeCtr := (rfl)
@[simp] theorem Dev.evt_freeCtr : (d.evt f).freeCtr = d.freeCtr := (rfl)
@[simp] theorem Dev.noteSat_freeCtr : (d.noteSat n).freeCtr = d.freeCtr := by obtain ⟨r, h⟩ := d.noteSat_only n; rw [h]
@[simp] theorem Dev.bumpBy_freeCtr : (d.bumpBy f n).freeCtr = d.freeCtr := by obtain ⟨r, h⟩ := d.bumpBy_only f n; rw [h]
@[simp] theorem Dev.bump_freeCtr : (d.bump f).freeCtr = d.freeCtr := by obtain ⟨r, h⟩ := d.bump_only f; rw [h]

variable (k : OutKind) (port : Nat) (words : List Nat)

@[simp] theorem Dev.emit_regs : (d.emit k port words).regs = d.regs := (rfl)
@[simp] theorem Dev.emit_time : (d.emit k port words).time = d.time := (rfl)
@[simp] theorem Dev.emit_brtc : (d.emit k port words).brtc = d.brtc := (rfl)
@[simp] theorem Dev.emit_per : (d.emit k port words).per = d.per := (rfl)
@[simp] theorem Dev.emit_tbs : (d.emit k port words).tbs = d.tbs := (rfl)
@[simp] theorem Dev.emit_ptp1 : (d.emit k port words).ptp1 = d.ptp1 := (rfl)
@[simp] theorem Dev.emit_ptp2 : (d.emit k port words).ptp2 = d.ptp2 := (rfl)
@[simp] theorem Dev.emit_lanes : (d.emit k port words).lanes = d.lanes := (rfl)
@[simp] theorem Dev.emit_twl : (d.emit k port words).twl = d.twl := (rfl)
@[simp] theorem Dev.emit_smem : (d.emit k port words).smem = d.smem := (rfl)
@[simp] theorem Dev.emit_cbk : (d.emit k port words).cbk = d.cbk := (rfl)
@[simp] theorem Dev.emit_hlm : (d.emit k port words).hlm = d.hlm := (rfl)
@[simp] theorem Dev.emit_gwy : (d.emit k port words).gwy = d.gwy := (rfl)
@[simp] theorem Dev.emit_bls : (d.emit k port words).bls = d.bls := (rfl)
@[simp] theorem Dev.emit_mod : (d.emit k port words).mod = d.mod := (rfl)
@[simp] theorem Dev.emit_sar : (d.emit k port words).sar = d.sar := (rfl)
@[simp] theorem Dev.emit_wcm : (d.emit k port words).wcm = d.wcm := (rfl)
@[simp] theorem Dev.emit_mtr : (d.emit k port words).mtr = d.mtr := (rfl)
@[simp] theorem Dev.emit_net : (d.emit k port words).net = d.net := (rfl)
@[simp] theorem Dev.emit_svx : (d.emit k port words).svx = d.svx := (rfl)
@[simp] theorem Dev.emit_gse : (d.emit k port words).gse = d.gse := (rfl)
@[simp] theorem Dev.emit_lb : (d.emit k port words).lb = d.lb := (rfl)
@[simp] theorem Dev.emit_mor : (d.emit k port words).mor = d.mor := (rfl)
@[simp] theorem Dev.emit_saf : (d.emit k port words).saf = d.saf := (rfl)
@[simp] theorem Dev.emit_rxReady : (d.emit k port words).rxReady = d.rxReady := (rfl)
@[simp] theorem Dev.emit_log : (d.emit k port words).log = d.log := (rfl)
@[simp] theorem Dev.emit_mft : (d.emit k port words).mft = d.mft := (rfl)
@[simp] theorem Dev.emit_thm : (d.emit k port words).thm = d.thm := (rfl)
@[simp] theorem Dev.emit_mgt : (d.emit k port words).mgt = d.mgt := (rfl)
@[simp] theorem Dev.emit_crg : (d.emit k port words).crg = d.crg := (rfl)
@[simp] theorem Dev.emit_kcmd : (d.emit k port words).kcmd = d.kcmd := (rfl)
@[simp] theorem Dev.emit_mram : (d.emit k port words).mram = d.mram := (rfl)
@[simp] theorem Dev.emit_freeCtr : (d.emit k port words).freeCtr = d.freeCtr := (rfl)
@[simp] theorem Dev.emit_sent : (d.emit k port words).sent = ⟨k, port, words⟩ :: d.sent := (rfl)

@[simp] theorem Dev.free_regs : (d.free n).2.regs = d.regs := (rfl)
@[simp] theorem Dev.free_time : (d.free n).2.time = d.time := (rfl)
@[simp] theorem Dev.free_brtc : (d.free n).2.brtc = d.brtc := (rfl)
@[simp] theorem Dev.free_per : (d.free n).2.per = d.per := (rfl)
@[simp] theorem Dev.free_tbs : (d.free n).2.tbs = d.tbs := (rfl)
@[simp] theorem Dev.free_ptp1 : (d.free n).2.ptp1 = d.ptp1 := (rfl)
@[simp] theorem Dev.free_ptp2 : (d.free n).2.ptp2 = d.ptp2 := (rfl)
@[simp] theorem Dev.free_lanes : (d.free n).2.lanes = d.lanes := (rfl)
@[simp] theorem Dev.free_twl : (d.free n).2.twl = d.twl := (rfl)
@[simp] theorem Dev.free_smem : (d.free n).2.smem = d.smem := (rfl)
@[simp] theorem Dev.free_cbk : (d.free n).2.cbk = d.cbk := (rfl)
@[simp] theorem Dev.free_hlm : (d.free n).2.hlm = d.hlm := (rfl)
@[simp] theorem Dev.free_gwy : (d.free n).2.gwy = d.gwy := (rfl)
@[simp] theorem Dev.free_bls : (d.free n).2.bls = d.bls := (rfl)
@[simp] theorem Dev.free_mod : (d.free n).2.mod = d.mod := (rfl)
@[simp] theorem Dev.free_sar : (d.free n).2.sar = d.sar := (rfl)
@[simp] theorem Dev.free_wcm : (d.free n).2.wcm = d.wcm := (rfl)
@[simp] theorem Dev.free_mtr : (d.free n).2.mtr = d.mtr := (rfl)
@[simp] theorem Dev.free_net : (d.free n).2.net = d.net := (rfl)
@[simp] theorem Dev.free_svx : (d.free n).2.svx = d.svx := (rfl)
@[simp] theorem Dev.free_gse : (d.free n).2.gse = d.gse := (rfl)
@[simp] theorem Dev.free_lb : (d.free n).2.lb = d.lb := (rfl)
@[simp] theorem Dev.free_mor : (d.free n).2.mor = d.mor := (rfl)
@[simp] theorem Dev.free_saf : (d.free n).2.saf = d.saf := (rfl)
@[simp] theorem Dev.free_rxReady : (d.free n).2.rxReady = d.rxReady := (rfl)
@[simp] theorem Dev.free_log : (d.free n).2.log = d.log := (rfl)
@[simp] theorem Dev.free_mft : (d.free n).2.mft = d.mft := (rfl)
@[simp] theorem Dev.free_thm : (d.free n).2.thm = d.thm := (rfl)
@[simp] theorem Dev.free_mgt : (d.free n).2.mgt = d.mgt := (rfl)
@[simp] theorem Dev.free_crg : (d.free n).2.crg = d.crg := (rfl)
@[simp] theorem Dev.free_kcmd : (d.free n).2.kcmd = d.kcmd := (rfl)
@[simp] theorem Dev.free_mram : (d.free n).2.mram = d.mram := (rfl)
@[simp] theorem Dev.free_sent : (d.free n).2.sent = d.sent := (rfl)

variable (blk code stat : Nat) (items : List Nat)

@[simp] theorem Dev.logAccept_time : (d.logAccept blk code stat items b).time = d.time := by
  obtain ⟨r, m, l, h⟩ := d.logAccept_only blk code stat items b; rw [h]
@[simp] theorem Dev.logEvt_time : (d.logEvt blk i items).time = d.time := Dev.logAccept_time ..
@[simp] theorem Dev.logEvt7_time : (d.logEvt7 blk i items).time = d.time := Dev.logAccept_time ..
@[simp] theorem Dev.logLane_time : (d.logLane n i items).time = d.time := Dev.logAccept_time ..
@[simp] theorem Dev.logReg_time : (d.logReg blk i items).time = d.time := Dev.logAccept_time ..
@[simp] theorem Dev.logReg7_time : (d.logReg7 blk i items).time = d.time := Dev.logAccept_time ..
@[simp] theorem Dev.logAccept_brtc : (d.logAccept blk code stat items b).brtc = d.brtc := by
  obtain ⟨r, m, l, h⟩ := d.logAccept_only blk code stat items b; rw [h]
@[simp] theorem Dev.logEvt_brtc : (d.logEvt blk i items).brtc = d.brtc := Dev.logAccept_brtc ..
@[simp] theorem Dev.logEvt7_brtc : (d.logEvt7 blk i items).brtc = d.brtc := Dev.logAccept_brtc ..
@[simp] theorem Dev.logLane_brtc : (d.logLane n i items).brtc = d.brtc := Dev.logAccept_brtc ..
@[simp] theorem Dev.logReg_brtc : (d.logReg blk i items).brtc = d.brtc := Dev.logAccept_brtc ..
@[simp] theorem Dev.logReg7_brtc : (d.logReg7 blk i items).brtc = d.brtc := Dev.logAccept_brtc ..
@[simp] theorem Dev.logAccept_per : (d.logAccept blk code stat items b).per = d.per := by
  obtain ⟨r, m, l, h⟩ := d.logAccept_only blk code stat items b; rw [h]
@[simp] theorem Dev.logEvt_per : (d.logEvt blk i items).per = d.per := Dev.logAccept_per ..
@[simp] theorem Dev.logEvt7_per : (d.logEvt7 blk i items).per = d.per := Dev.logAccept_per ..
@[simp] theorem Dev.logLane_per : (d.logLane n i items).per = d.per := Dev.logAccept_per ..
@[simp] theorem Dev.logReg_per : (d.logReg blk i items).per = d.per := Dev.logAccept_per ..
@[simp] theorem Dev.logReg7_per : (d.logReg7 blk i items).per = d.per := Dev.logAccept_per ..
@[simp] theorem Dev.logAccept_tbs : (d.logAccept blk code stat items b).tbs = d.tbs := by
  obtain ⟨r, m, l, h⟩ := d.logAccept_only blk code stat items b; rw [h]
@[simp] theorem Dev.logEvt_tbs : (d.logEvt blk i items).tbs = d.tbs := Dev.logAccept_tbs ..
@[simp] theorem Dev.logEvt7_tbs : (d.logEvt7 blk i items).tbs = d.tbs := Dev.logAccept_tbs ..
@[simp] theorem Dev.logLane_tbs : (d.logLane n i items).tbs = d.tbs := Dev.logAccept_tbs ..
@[simp] theorem Dev.logReg_tbs : (d.logReg blk i items).tbs = d.tbs := Dev.logAccept_tbs ..
@[simp] theorem Dev.logReg7_tbs : (d.logReg7 blk i items).tbs = d.tbs := Dev.logAccept_tbs ..
@[simp] theorem Dev.logAccept_ptp1 : (d.logAccept blk code stat items b).ptp1 = d.ptp1 := by
  obtain ⟨r, m, l, h⟩ := d.logAccept_only blk code stat items b; rw [h]
@[simp] theorem Dev.logEvt_ptp1 : (d.logEvt blk i items).ptp1 = d.ptp1 := Dev.logAccept_ptp1 ..
@[simp] theorem Dev.logEvt7_ptp1 : (d.logEvt7 blk i items).ptp1 = d.ptp1 := Dev.logAccept_ptp1 ..
@[simp] theorem Dev.logLane_ptp1 : (d.logLane n i items).ptp1 = d.ptp1 := Dev.logAccept_ptp1 ..
@[simp] theorem Dev.logReg_ptp1 : (d.logReg blk i items).ptp1 = d.ptp1 := Dev.logAccept_ptp1 ..
@[simp] theorem Dev.logReg7_ptp1 : (d.logReg7 blk i items).ptp1 = d.ptp1 := Dev.logAccept_ptp1 ..
@[simp] theorem Dev.logAccept_ptp2 : (d.logAccept blk code stat items b).ptp2 = d.ptp2 := by
  obtain ⟨r, m, l, h⟩ := d.logAccept_only blk code stat items b; rw [h]
@[simp] theorem Dev.logEvt_ptp2 : (d.logEvt blk i items).ptp2 = d.ptp2 := Dev.logAccept_ptp2 ..
@[simp] theorem Dev.logEvt7_ptp2 : (d.logEvt7 blk i items).ptp2 = d.ptp2 := Dev.logAccept_ptp2 ..
@[simp] theorem Dev.logLane_ptp2 : (d.logLane n i items).ptp2 = d.ptp2 := Dev.logAccept_ptp2 ..
@[simp] theorem Dev.logReg_ptp2 : (d.logReg blk i items).ptp2 = d.ptp2 := Dev.logAccept_ptp2 ..
@[simp] theorem Dev.logReg7_ptp2 : (d.logReg7 blk i items).ptp2 = d.ptp2 := Dev.logAccept_ptp2 ..
@[simp] theorem Dev.logAccept_lanes : (d.logAccept blk code stat items b).lanes = d.lanes := by
  obtain ⟨r, m, l, h⟩ := d.logAccept_only blk code stat items b; rw [h]
@[simp] theorem Dev.logEvt_lanes : (d.logEvt blk i items).lanes = d.lanes := Dev.logAccept_lanes ..
@[simp] theorem Dev.logEvt7_lanes : (d.logEvt7 blk i items).lanes = d.lanes := Dev.logAccept_lanes ..
@[simp] theorem Dev.logLane_lanes : (d.logLane n i items).lanes = d.lanes := Dev.logAccept_lanes ..
@[simp] theorem Dev.logReg_lanes : (d.logReg blk i items).lanes = d.lanes := Dev.logAccept_lanes ..
@[simp] theorem Dev.logReg7_lanes : (d.logReg7 blk i items).lanes = d.lanes := Dev.logAccept_lanes ..
@[simp] theorem Dev.logAccept_twl : (d.logAccept blk code stat items b).twl = d.twl := by
  obtain ⟨r, m, l, h⟩ := d.logAccept_only blk code stat items b; rw [h]
@[simp] theorem Dev.logEvt_twl : (d.logEvt blk i items).twl = d.twl := Dev.logAccept_twl ..
@[simp] theorem Dev.logEvt7_twl : (d.logEvt7 blk i items).twl = d.twl := Dev.logAccept_twl ..
@[simp] theorem Dev.logLane_twl : (d.logLane n i items).twl = d.twl := Dev.logAccept_twl ..
@[simp] theorem Dev.logReg_twl : (d.logReg blk i items).twl = d.twl := Dev.logAccept_twl ..
@[simp] theorem Dev.logReg7_twl : (d.logReg7 blk i items).twl = d.twl := Dev.logAccept_twl ..
@[simp] theorem Dev.logAccept_smem : (d.logAccept blk code stat items b).smem = d.smem := by
  obtain ⟨r, m, l, h⟩ := d.logAccept_only blk code stat items b; rw [h]
@[simp] theorem Dev.logEvt_smem : (d.logEvt blk i items).smem = d.smem := Dev.logAccept_smem ..
@[simp] theorem Dev.logEvt7_smem : (d.logEvt7 blk i items).smem = d.smem := Dev.logAccept_smem ..
@[simp] theorem Dev.logLane_smem : (d.logLane n i items).smem = d.smem := Dev.logAccept_smem ..
@[simp] theorem Dev.logReg_smem : (d.logReg blk i items).smem = d.smem := Dev.logAccept_smem ..
@[simp] theorem Dev.logReg7_smem : (d.logReg7 blk i items).smem = d.smem := Dev.logAccept_smem ..
@[simp] theorem Dev.logAccept_cbk : (d.logAccept blk code stat items b).cbk = d.cbk := by
  obtain ⟨r, m, l, h⟩ := d.logAccept_only blk code stat items b; rw [h]
@[simp] theorem Dev.logEvt_cbk : (d.logEvt blk i items).cbk = d.cbk := Dev.logAccept_cbk ..
@[simp] theorem Dev.logEvt7_cbk : (d.logEvt7 blk i items).cbk = d.cbk := Dev.logAccept_cbk ..
@[simp] theorem Dev.logLane_cbk : (d.logLane n i items).cbk = d.cbk := Dev.logAccept_cbk ..
@[simp] theorem Dev.logReg_cbk : (d.logReg blk i items).cbk = d.cbk := Dev.logAccept_cbk ..
@[simp] theorem Dev.logReg7_cbk : (d.logReg7 blk i items).cbk = d.cbk := Dev.logAccept_cbk ..
@[simp] theorem Dev.logAccept_hlm : (d.logAccept blk code stat items b).hlm = d.hlm := by
  obtain ⟨r, m, l, h⟩ := d.logAccept_only blk code stat items b; rw [h]
@[simp] theorem Dev.logEvt_hlm : (d.logEvt blk i items).hlm = d.hlm := Dev.logAccept_hlm ..
@[simp] theorem Dev.logEvt7_hlm : (d.logEvt7 blk i items).hlm = d.hlm := Dev.logAccept_hlm ..
@[simp] theorem Dev.logLane_hlm : (d.logLane n i items).hlm = d.hlm := Dev.logAccept_hlm ..
@[simp] theorem Dev.logReg_hlm : (d.logReg blk i items).hlm = d.hlm := Dev.logAccept_hlm ..
@[simp] theorem Dev.logReg7_hlm : (d.logReg7 blk i items).hlm = d.hlm := Dev.logAccept_hlm ..
@[simp] theorem Dev.logAccept_gwy : (d.logAccept blk code stat items b).gwy = d.gwy := by
  obtain ⟨r, m, l, h⟩ := d.logAccept_only blk code stat items b; rw [h]
@[simp] theorem Dev.logEvt_gwy : (d.logEvt blk i items).gwy = d.gwy := Dev.logAccept_gwy ..
@[simp] theorem Dev.logEvt7_gwy : (d.logEvt7 blk i items).gwy = d.gwy := Dev.logAccept_gwy ..
@[simp] theorem Dev.logLane_gwy : (d.logLane n i items).gwy = d.gwy := Dev.logAccept_gwy ..
@[simp] theorem Dev.logReg_gwy : (d.logReg blk i items).gwy = d.gwy := Dev.logAccept_gwy ..
@[simp] theorem Dev.logReg7_gwy : (d.logReg7 blk i items).gwy = d.gwy := Dev.logAccept_gwy ..
@[simp] theorem Dev.logAccept_bls : (d.logAccept blk code stat items b).bls = d.bls := by
  obtain ⟨r, m, l, h⟩ := d.logAccept_only blk code stat items b; rw [h]
@[simp] theorem Dev.logEvt_bls : (d.logEvt blk i items).bls = d.bls := Dev.logAccept_bls ..
@[simp] theorem Dev.logEvt7_bls : (d.logEvt7 blk i items).bls = d.bls := Dev.logAccept_bls ..
@[simp] theorem Dev.logLane_bls : (d.logLane n i items).bls = d.bls := Dev.logAccept_bls ..
@[simp] theorem Dev.logReg_bls : (d.logReg blk i items).bls = d.bls := Dev.logAccept_bls ..
@[simp] theorem Dev.logReg7_bls : (d.logReg7 blk i items).bls = d.bls := Dev.logAccept_bls ..
@[simp] theorem Dev.logAccept_mod : (d.logAccept blk code stat items b).mod = d.mod := by
  obtain ⟨r, m, l, h⟩ := d.logAccept_only blk code stat items b; rw [h]
@[simp] theorem Dev.logEvt_mod : (d.logEvt blk i items).mod = d.mod := Dev.logAccept_mod ..
@[simp] theorem Dev.logEvt7_mod : (d.logEvt7 blk i items).mod = d.mod := Dev.logAccept_mod ..
@[simp] theorem Dev.logLane_mod : (d.logLane n i items).mod = d.mod := Dev.logAccept_mod ..
@[simp] theorem Dev.logReg_mod : (d.logReg blk i items).mod = d.mod := Dev.logAccept_mod ..
@[simp] theorem Dev.logReg7_mod : (d.logReg7 blk i items).mod = d.mod := Dev.logAccept_mod ..
@[simp] theorem Dev.logAccept_sar : (d.logAccept blk code stat items b).sar = d.sar := by
  obtain ⟨r, m, l, h⟩ := d.logAccept_only blk code stat items b; rw [h]
@[simp] theorem Dev.logEvt_sar : (d.logEvt blk i items).sar = d.sar := Dev.logAccept_sar ..
@[simp] theorem Dev.logEvt7_sar : (d.logEvt7 blk i items).sar = d.sar := Dev.logAccept_sar ..
@[simp] theorem Dev.logLane_sar : (d.logLane n i items).sar = d.sar := Dev.logAccept_sar ..
@[simp] theorem Dev.logReg_sar : (d.logReg blk i items).sar = d.sar := Dev.logAccept_sar ..
@[simp] theorem Dev.logReg7_sar : (d.logReg7 blk i items).sar = d.sar := Dev.logAccept_sar ..
@[simp] theorem Dev.logAccept_wcm : (d.logAccept blk code stat items b).wcm = d.wcm := by
  obtain ⟨r, m, l, h⟩ := d.logAccept_only blk code stat items b; rw [h]
@[simp] theorem Dev.logEvt_wcm : (d.logEvt blk i items).wcm = d.wcm := Dev.logAccept_wcm ..
@[simp] theorem Dev.logEvt7_wcm : (d.logEvt7 blk i items).wcm = d.wcm := Dev.logAccept_wcm ..
@[simp] theorem Dev.logLane_wcm : (d.logLane n i items).wcm = d.wcm := Dev.logAccept_wcm ..
@[simp] theorem Dev.logReg_wcm : (d.logReg blk i items).wcm = d.wcm := Dev.logAccept_wcm ..
@[simp] theorem Dev.logReg7_wcm : (d.logReg7 blk i items).wcm = d.wcm := Dev.logAccept_wcm ..
@[simp] theorem Dev.logAccept_mtr : (d.logAccept blk code stat items b).mtr = d.mtr := by
  obtain ⟨r, m, l, h⟩ := d.logAccept_only blk code stat items b; rw [h]
@[simp] theorem Dev.logEvt_mtr : (d.logEvt blk i items).mtr = d.mtr := Dev.logAccept_mtr ..
@[simp] theorem Dev.logEvt7_mtr : (d.logEvt7 blk i items).mtr = d.mtr := Dev.logAccept_mtr ..
@[simp] theorem Dev.logLane_mtr : (d.logLane n i items).mtr = d.mtr := Dev.logAccept_mtr ..
@[simp] theorem Dev.logReg_mtr : (d.logReg blk i items).mtr = d.mtr := Dev.logAccept_mtr ..
@[simp] theorem Dev.logReg7_mtr : (d.logReg7 blk i items).mtr = d.mtr := Dev.logAccept_mtr ..
@[simp] theorem Dev.logAccept_net : (d.logAccept blk code stat items b).net = d.net := by
  obtain ⟨r, m, l, h⟩ := d.logAccept_only blk code stat items b; rw [h]
@[simp] theorem Dev.logEvt_net : (d.logEvt blk i items).net = d.net := Dev.logAccept_net ..
@[simp] theorem Dev.logEvt7_net : (d.logEvt7 blk i items).net = d.net := Dev.logAccept_net ..
@[simp] theorem Dev.logLane_net : (d.logLane n i items).net = d.net := Dev.logAccept_net ..
@[simp] theorem Dev.logReg_net : (d.logReg blk i items).net = d.net := Dev.logAccept_net ..
@[simp] theorem Dev.logReg7_net : (d.logReg7 blk i items).net = d.net := Dev.logAccept_net ..
@[simp] theorem Dev.logAccept_svx : (d.logAccept blk code stat items b).svx = d.svx := by
  obtain ⟨r, m, l, h⟩ := d.logAccept_only blk code stat items b; rw [h]
@[simp] theorem Dev.logEvt_svx : (d.logEvt blk i items).svx = d.svx := Dev.logAccept_svx ..
@[simp] theorem Dev.logEvt7_svx : (d.logEvt7 blk i items).svx = d.svx := Dev.logAccept_svx ..
@[simp] theorem Dev.logLane_svx : (d.logLane n i items).svx = d.svx := Dev.logAccept_svx ..
@[simp] theorem Dev.logReg_svx : (d.logReg blk i items).svx = d.svx := Dev.logAccept_svx ..
@[simp] theorem Dev.logReg7_svx : (d.logReg7 blk i items).svx = d.svx := Dev.logAccept_svx ..
@[simp] theorem Dev.logAccept_gse : (d.logAccept blk code stat items b).gse = d.gse := by
  obtain ⟨r, m, l, h⟩ := d.logAccept_only blk code stat items b; rw [h]
@[simp] theorem Dev.logEvt_gse : (d.logEvt blk i items).gse = d.gse := Dev.logAccept_gse ..
@[simp] theorem Dev.logEvt7_gse : (d.logEvt7 blk i items).gse = d.gse := Dev.logAccept_gse ..
@[simp] theorem Dev.logLane_gse : (d.logLane n i items).gse = d.gse := Dev.logAccept_gse ..
@[simp] theorem Dev.logReg_gse : (d.logReg blk i items).gse = d.gse := Dev.logAccept_gse ..
@[simp] theorem Dev.logReg7_gse : (d.logReg7 blk i items).gse = d.gse := Dev.logAccept_gse ..
@[simp] theorem Dev.logAccept_lb : (d.logAccept blk code stat items b).lb = d.lb := by
  obtain ⟨r, m, l, h⟩ := d.logAccept_only blk code stat items b; rw [h]
@[simp] theorem Dev.logEvt_lb : (d.logEvt blk i items).lb = d.lb := Dev.logAccept_lb ..
@[simp] theorem Dev.logEvt7_lb : (d.logEvt7 blk i items).lb = d.lb := Dev.logAccept_lb ..
@[simp] theorem Dev.logLane_lb : (d.logLane n i items).lb = d.lb := Dev.logAccept_lb ..
@[simp] theorem Dev.logReg_lb : (d.logReg blk i items).lb = d.lb := Dev.logAccept_lb ..
@[simp] theorem Dev.logReg7_lb : (d.logReg7 blk i items).lb = d.lb := Dev.logAccept_lb ..
@[simp] theorem Dev.logAccept_mor : (d.logAccept blk code stat items b).mor = d.mor := by
  obtain ⟨r, m, l, h⟩ := d.logAccept_only blk code stat items b; rw [h]
@[simp] theorem Dev.logEvt_mor : (d.logEvt blk i items).mor = d.mor := Dev.logAccept_mor ..
@[simp] theorem Dev.logEvt7_mor : (d.logEvt7 blk i items).mor = d.mor := Dev.logAccept_mor ..
@[simp] theorem Dev.logLane_mor : (d.logLane n i items).mor = d.mor := Dev.logAccept_mor ..
@[simp] theorem Dev.logReg_mor : (d.logReg blk i items).mor = d.mor := Dev.logAccept_mor ..
@[simp] theorem Dev.logReg7_mor : (d.logReg7 blk i items).mor = d.mor := Dev.logAccept_mor ..
@[simp] theorem Dev.logAccept_saf : (d.logAccept blk code stat items b).saf = d.saf := by
  obtain ⟨r, m, l, h⟩ := d.logAccept_only blk code stat items b; rw [h]
@[simp] theorem Dev.logEvt_saf : (d.logEvt blk i items).saf = d.saf := Dev.logAccept_saf ..
@[simp] theorem Dev.logEvt7_saf : (d.logEvt7 blk i items).saf = d.saf := Dev.logAccept_saf ..
@[simp] theorem Dev.logLane_saf : (d.logLane n i items).saf = d.saf := Dev.logAccept_saf ..
@[simp] theorem Dev.logReg_saf : (d.logReg blk i items).saf = d.saf := Dev.logAccept_saf ..
@[simp] theorem Dev.logReg7_saf : (d.logReg7 blk i items).saf = d.saf := Dev.logAccept_saf ..
@[simp] theorem Dev.logAccept_rxReady : (d.logAccept blk code stat items b).rxReady = d.rxReady := by
  obtain ⟨r, m, l, h⟩ := d.logAccept_only blk code stat items b; rw [h]
@[simp] theorem Dev.logEvt_rxReady : (d.logEvt blk i items).rxReady = d.rxReady := Dev.logAccept_rxReady ..
@[simp] theorem Dev.logEvt7_rxReady : (d.logEvt7 blk i items).rxReady = d.rxReady := Dev.logAccept_rxReady ..
@[simp] theorem Dev.logLane_rxReady : (d.logLane n i items).rxReady = d.rxReady := Dev.logAccept_rxReady ..
@[simp] theorem Dev.logReg_rxReady : (d.logReg blk i items).rxReady = d.rxReady := Dev.logAccept_rxReady ..
@[simp] theorem Dev.logReg7_rxReady : (d.logReg7 blk i items).rxReady = d.rxReady := Dev.logAccept_rxReady ..
@[simp] theorem Dev.logAccept_mft : (d.logAccept blk code stat items b).mft = d.mft := by
  obtain ⟨r, m, l, h⟩ := d.logAccept_only blk code stat items b; rw [h]
@[simp] theorem Dev.logEvt_mft : (d.logEvt blk i items).mft = d.mft := Dev.logAccept_mft ..
@[simp] theorem Dev.logEvt7_mft : (d.logEvt7 blk i items).mft = d.mft := Dev.logAccept_mft ..
@[simp] theorem Dev.logLane_mft : (d.logLane n i items).mft = d.mft := Dev.logAccept_mft ..
@[simp] theorem Dev.logReg_mft : (d.logReg blk i items).mft = d.mft := Dev.logAccept_mft ..
@[simp] theorem Dev.logReg7_mft : (d.logReg7 blk i items).mft = d.mft := Dev.logAccept_mft ..
@[simp] theorem Dev.logAccept_thm : (d.logAccept blk code stat items b).thm = d.thm := by
  obtain ⟨r, m, l, h⟩ := d.logAccept_only blk code stat items b; rw [h]
@[simp] theorem Dev.logEvt_thm : (d.logEvt blk i items).thm = d.thm := Dev.logAccept_thm ..
@[simp] theorem Dev.logEvt7_thm : (d.logEvt7 blk i items).thm = d.thm := Dev.logAccept_thm ..
@[simp] theorem Dev.logLane_thm : (d.logLane n i items).thm = d.thm := Dev.logAccept_thm ..
@[simp] theorem Dev.logReg_thm : (d.logReg blk i items).thm = d.thm := Dev.logAccept_thm ..
@[simp] theorem Dev.logReg7_thm : (d.logReg7 blk i items).thm = d.thm := Dev.logAccept_thm ..
@[simp] theorem Dev.logAccept_mgt : (d.logAccept blk code stat items b).mgt = d.mgt := by
  obtain ⟨r, m, l, h⟩ := d.logAccept_only blk code stat items b; rw [h]
@[simp] theorem Dev.logEvt_mgt : (d.logEvt blk i items).mgt = d.mgt := Dev.logAccept_mgt ..
@[simp] theorem Dev.logEvt7_mgt : (d.logEvt7 blk i items).mgt = d.mgt := Dev.logAccept_mgt ..
@[simp] theorem Dev.logLane_mgt : (d.logLane n i items).mgt = d.mgt := Dev.logAccept_mgt ..
@[simp] theorem Dev.logReg_mgt : (d.logReg blk i items).mgt = d.mgt := Dev.logAccept_mgt ..
@[simp] theorem Dev.logReg7_mgt : (d.logReg7 blk i items).mgt = d.mgt := Dev.logAccept_mgt ..
@[simp] theorem Dev.logAccept_crg : (d.logAccept blk code stat items b).crg = d.crg := by
  obtain ⟨r, m, l, h⟩ := d.logAccept_only blk code stat items b; rw [h]
@[simp] theorem Dev.logEvt_crg : (d.logEvt blk i items).crg = d.crg := Dev.logAccept_crg ..
@[simp] theorem Dev.logEvt7_crg : (d.logEvt7 blk i items).crg = d.crg := Dev.logAccept_crg ..
@[simp] theorem Dev.logLane_crg : (d.logLane n i items).crg = d.crg := Dev.logAccept_crg ..
@[simp] theorem Dev.logReg_crg : (d.logReg blk i items).crg = d.crg := Dev.logAccept_crg ..
@[simp] theorem Dev.logReg7_crg : (d.logReg7 blk i items).crg = d.crg := Dev.logAccept_crg ..
@[simp] theorem Dev.logAccept_kcmd : (d.logAccept blk code stat items b).kcmd = d.kcmd := by
  obtain ⟨r, m, l, h⟩ := d.logAccept_only blk code stat items b; rw [h]
@[simp] theorem Dev.logEvt_kcmd : (d.logEvt blk i items).kcmd = d.kcmd := Dev.logAccept_kcmd ..
@[simp] theorem Dev.logEvt7_kcmd : (d.logEvt7 blk i items).kcmd = d.kcmd := Dev.logAccept_kcmd ..
@[simp] theorem Dev.logLane_kcmd : (d.logLane n i items).kcmd = d.kcmd := Dev.logAccept_kcmd ..
@[simp] theorem Dev.logReg_kcmd : (d.logReg blk i items).kcmd = d.kcmd := Dev.logAccept_kcmd ..
@[simp] theorem Dev.logReg7_kcmd : (d.logReg7 blk i items).kcmd = d.kcmd := Dev.logAccept_kcmd ..
@[simp] theorem Dev.logAccept_sent : (d.logAccept blk code stat items b).sent = d.sent := by
  obtain ⟨r, m, l, h⟩ := d.logAccept_only blk code stat items b; rw [h]
@[simp] theorem Dev.logEvt_sent : (d.logEvt blk i items).sent = d.sent := Dev.logAccept_sent ..
@[simp] theorem Dev.logEvt7_sent : (d.logEvt7 blk i items).sent = d.sent := Dev.logAccept_sent ..
@[simp] theorem Dev.logLane_sent : (d.logLane n i items).sent = d.sent := Dev.logAccept_sent ..
@[simp] theorem Dev.logReg_sent : (d.logReg blk i items).sent = d.sent := Dev.logAccept_sent ..
@[simp] theorem Dev.logReg7_sent : (d.logReg7 blk i items).sent = d.sent := Dev.logAccept_sent ..
@[simp] theorem Dev.logAccept_freeCtr : (d.logAccept blk code stat items b).freeCtr = d.freeCtr := by
  obtain ⟨r, m, l, h⟩ := d.logAccept_only blk code stat items b; rw [h]
@[simp] theorem Dev.logEvt_freeCtr : (d.logEvt blk i items).freeCtr = d.freeCtr := Dev.logAccept_freeCtr ..
@[simp] theorem Dev.logEvt7_freeCtr : (d.logEvt7 blk i items).freeCtr = d.freeCtr := Dev.logAccept_freeCtr ..
@[simp] theorem Dev.logLane_freeCtr : (d.logLane n i items).freeCtr = d.freeCtr := Dev.logAccept_freeCtr ..
@[simp] theorem Dev.logReg_freeCtr : (d.logReg blk i items).freeCtr = d.freeCtr := Dev.logAccept_freeCtr ..
@[simp] theorem Dev.logReg7_freeCtr : (d.logReg7 blk i items).freeCtr = d.freeCtr := Dev.logAccept_freeCtr ..
@[simp] theorem Dev.mftTrigger_time : (d.mftTrigger n v).time = d.time := by
  unfold Dev.mftTrigger; obtain ⟨r, m, h⟩ := d.mftTriggerAt_only n v (d.time + nsU 1000); rw [h]
@[simp] theorem Dev.mftTrigger_brtc : (d.mftTrigger n v).brtc = d.brtc := by
  unfold Dev.mftTrigger; obtain ⟨r, m, h⟩ := d.mftTriggerAt_only n v (d.time + nsU 1000); rw [h]
@[simp] theorem Dev.mftTrigger_per : (d.mftTrigger n v).per = d.per := by
  unfold Dev.mftTrigger; obtain ⟨r, m, h⟩ := d.mftTriggerAt_only n v (d.time + nsU 1000); rw [h]
@[simp] theorem Dev.mftTrigger_tbs : (d.mftTrigger n v).tbs = d.tbs := by
  unfold Dev.mftTrigger; obtain ⟨r, m, h⟩ := d.mftTriggerAt_only n v (d.time + nsU 1000); rw [h]
@[simp] theorem Dev.mftTrigger_ptp1 : (d.mftTrigger n v).ptp1 = d.ptp1 := by
  unfold Dev.mftTrigger; obtain ⟨r, m, h⟩ := d.mftTriggerAt_only n v (d.time + nsU 1000); rw [h]
@[simp] theorem Dev.mftTrigger_ptp2 : (d.mftTrigger n v).ptp2 = d.ptp2 := by
  unfold Dev.mftTrigger; obtain ⟨r, m, h⟩ := d.mftTriggerAt_only n v (d.time + nsU 1000); rw [h]
@[simp] theorem Dev.mftTrigger_lanes : (d.mftTrigger n v).lanes = d.lanes := by
  unfold Dev.mftTrigger; obtain ⟨r, m, h⟩ := d.mftTriggerAt_only n v (d.time + nsU 1000); rw [h]
@[simp] theorem Dev.mftTrigger_twl : (d.mftTrigger n v).twl = d.twl := by
  unfold Dev.mftTrigger; obtain ⟨r, m, h⟩ := d.mftTriggerAt_only n v (d.time + nsU 1000); rw [h]
@[simp] theorem Dev.mftTrigger_smem : (d.mftTrigger n v).smem = d.smem := by
  unfold Dev.mftTrigger; obtain ⟨r, m, h⟩ := d.mftTriggerAt_only n v (d.time + nsU 1000); rw [h]
@[simp] theorem Dev.mftTrigger_cbk : (d.mftTrigger n v).cbk = d.cbk := by
  unfold Dev.mftTrigger; obtain ⟨r, m, h⟩ := d.mftTriggerAt_only n v (d.time + nsU 1000); rw [h]
@[simp] theorem Dev.mftTrigger_hlm : (d.mftTrigger n v).hlm = d.hlm := by
  unfold Dev.mftTrigger; obtain ⟨r, m, h⟩ := d.mftTriggerAt_only n v (d.time + nsU 1000); rw [h]
@[simp] theorem Dev.mftTrigger_gwy : (d.mftTrigger n v).gwy = d.gwy := by
  unfold Dev.mftTrigger; obtain ⟨r, m, h⟩ := d.mftTriggerAt_only n v (d.time + nsU 1000); rw [h]
@[simp] theorem Dev.mftTrigger_bls : (d.mftTrigger n v).bls = d.bls := by
  unfold Dev.mftTrigger; obtain ⟨r, m, h⟩ := d.mftTriggerAt_only n v (d.time + nsU 1000); rw [h]
@[simp] theorem Dev.mftTrigger_mod : (d.mftTrigger n v).mod = d.mod := by
  unfold Dev.mftTrigger; obtain ⟨r, m, h⟩ := d.mftTriggerAt_only n v (d.time + nsU 1000); rw [h]
@[simp] theorem Dev.mftTrigger_sar : (d.mftTrigger n v).sar = d.sar := by
  unfold Dev.mftTrigger; obtain ⟨r, m, h⟩ := d.mftTriggerAt_only n v (d.time + nsU 1000); rw [h]
@[simp] theorem Dev.mftTrigger_wcm : (d.mftTrigger n v).wcm = d.wcm := by
  unfold Dev.mftTrigger; obtain ⟨r, m, h⟩ := d.mftTriggerAt_only n v (d.time + nsU 1000); rw [h]
@[simp] theorem Dev.mftTrigger_mtr : (d.mftTrigger n v).mtr = d.mtr := by
  unfold Dev.mftTrigger; obtain ⟨r, m, h⟩ := d.mftTriggerAt_only n v (d.time + nsU 1000); rw [h]
@[simp] theorem Dev.mftTrigger_net : (d.mftTrigger n v).net = d.net := by
  unfold Dev.mftTrigger; obtain ⟨r, m, h⟩ := d.mftTriggerAt_only n v (d.time + nsU 1000); rw [h]
@[simp] theorem Dev.mftTrigger_svx : (d.mftTrigger n v).svx = d.svx := by
  unfold Dev.mftTrigger; obtain ⟨r, m, h⟩ := d.mftTriggerAt_only n v (d.time + nsU 1000); rw [h]
@[simp] theorem Dev.mftTrigger_gse : (d.mftTrigger n v).gse = d.gse := by
  unfold Dev.mftTrigger; obtain ⟨r, m, h⟩ := d.mftTriggerAt_only n v (d.time + nsU 1000); rw [h]
@[simp] theorem Dev.mftTrigger_lb : (d.mftTrigger n v).lb = d.lb := by
  unfold Dev.mftTrigger; obtain ⟨r, m, h⟩ := d.mftTriggerAt_only n v (d.time + nsU 1000); rw [h]
@[simp] theorem Dev.mftTrigger_mor : (d.mftTrigger n v).mor = d.mor := by
  unfold Dev.mftTrigger; obtain ⟨r, m, h⟩ := d.mftTriggerAt_only n v (d.time + nsU 1000); rw [h]
@[simp] theorem Dev.mftTrigger_saf : (d.mftTrigger n v).saf = d.saf := by
  unfold Dev.mftTrigger; obtain ⟨r, m, h⟩ := d.mftTriggerAt_only n v (d.time + nsU 1000); rw [h]
@[simp] theorem Dev.mftTrigger_rxReady : (d.mftTrigger n v).rxReady = d.rxReady := by
  unfold Dev.mftTrigger; obtain ⟨r, m, h⟩ := d.mftTriggerAt_only n v (d.time + nsU 1000); rw [h]
@[simp] theorem Dev.mftTrigger_log : (d.mftTrigger n v).log = d.log := by
  unfold Dev.mftTrigger; obtain ⟨r, m, h⟩ := d.mftTriggerAt_only n v (d.time + nsU 1000); rw [h]
@[simp] theorem Dev.mftTrigger_thm : (d.mftTrigger n v).thm = d.thm := by
  unfold Dev.mftTrigger; obtain ⟨r, m, h⟩ := d.mftTriggerAt_only n v (d.time + nsU 1000); rw [h]
@[simp] theorem Dev.mftTrigger_mgt : (d.mftTrigger n v).mgt = d.mgt := by
  unfold Dev.mftTrigger; obtain ⟨r, m, h⟩ := d.mftTriggerAt_only n v (d.time + nsU 1000); rw [h]
@[simp] theorem Dev.mftTrigger_crg : (d.mftTrigger n v).crg = d.crg := by
  unfold Dev.mftTrigger; obtain ⟨r, m, h⟩ := d.mftTriggerAt_only n v (d.time + nsU 1000); rw [h]
@[simp] theorem Dev.mftTrigger_kcmd : (d.mftTrigger n v).kcmd = d.kcmd := by
  unfold Dev.mftTrigger; obtain ⟨r, m, h⟩ := d.mftTriggerAt_only n v (d.time + nsU 1000); rw [h]
@[simp] theorem Dev.mftTrigger_mram : (d.mftTrigger n v).mram = d.mram := by
  unfold Dev.mftTrigger; obtain ⟨r, m, h⟩ := d.mftTriggerAt_only n v (d.time + nsU 1000); rw [h]
@[simp] theorem Dev.mftTrigger_sent : (d.mftTrigger n v).sent = d.sent := by
  unfold Dev.mftTrigger; obtain ⟨r, m, h⟩ := d.mftTriggerAt_only n v (d.time + nsU 1000); rw [h]
@[simp] theorem Dev.mftTrigger_freeCtr : (d.mftTrigger n v).freeCtr = d.freeCtr := by
  unfold Dev.mftTrigger; obtain ⟨r, m, h⟩ := d.mftTriggerAt_only n v (d.time + nsU 1000); rw [h]
end

/-! ### The island -/

section
variable (x : Island) (f : Fld) (a v : Nat) (w : Word) (b : Bool)

@[simp] theorem Island.wr_levels : (x.wr a w).levels = x.levels := (rfl)
@[simp] theorem Island.setF_levels : (x.setF f v).levels = x.levels := (rfl)
@[simp] theorem Island.setB_levels : (x.setB f b).levels = x.levels := (rfl)
@[simp] theorem Island.wr_ins : (x.wr a w).ins = x.ins := (rfl)
@[simp] theorem Island.setF_ins : (x.setF f v).ins = x.ins := (rfl)
@[simp] theorem Island.setB_ins : (x.setB f b).ins = x.ins := (rfl)
@[simp] theorem Island.wr_form : (x.wr a w).form = x.form := (rfl)
@[simp] theorem Island.setF_form : (x.setF f v).form = x.form := (rfl)
@[simp] theorem Island.setB_form : (x.setB f b).form = x.form := (rfl)
@[simp] theorem Island.wr_swN : (x.wr a w).swN = x.swN := (rfl)
@[simp] theorem Island.setF_swN : (x.setF f v).swN = x.swN := (rfl)
@[simp] theorem Island.setB_swN : (x.setB f b).swN = x.swN := (rfl)
@[simp] theorem Island.wr_lorHeld : (x.wr a w).lorHeld = x.lorHeld := (rfl)
@[simp] theorem Island.setF_lorHeld : (x.setF f v).lorHeld = x.lorHeld := (rfl)
@[simp] theorem Island.setB_lorHeld : (x.setB f b).lorHeld = x.lorHeld := (rfl)
@[simp] theorem Island.wr_lost : (x.wr a w).lost = x.lost := (rfl)
@[simp] theorem Island.setF_lost : (x.setF f v).lost = x.lost := (rfl)
@[simp] theorem Island.setB_lost : (x.setB f b).lost = x.lost := (rfl)
@[simp] theorem Island.wr_outA : (x.wr a w).outA = x.outA := (rfl)
@[simp] theorem Island.setF_outA : (x.setF f v).outA = x.outA := (rfl)
@[simp] theorem Island.setB_outA : (x.setB f b).outA = x.outA := (rfl)
@[simp] theorem Island.wr_outB : (x.wr a w).outB = x.outB := (rfl)
@[simp] theorem Island.setF_outB : (x.setF f v).outB = x.outB := (rfl)
@[simp] theorem Island.setB_outB : (x.setB f b).outB = x.outB := (rfl)
@[simp] theorem Island.wr_sealN : (x.wr a w).sealN = x.sealN := (rfl)
@[simp] theorem Island.setF_sealN : (x.setF f v).sealN = x.sealN := (rfl)
@[simp] theorem Island.setB_sealN : (x.setB f b).sealN = x.sealN := (rfl)
end

/-! ### The state -/

section
variable (s : State) (g : Dev → Dev)

@[simp] theorem State.onDev_isl : (s.onDev g).isl = s.isl := by unfold State.onDev; split <;> rfl
@[simp] theorem State.onDev_bak : (s.onDev g).bak = s.bak := by unfold State.onDev; split <;> rfl
@[simp] theorem State.onDev_otp : (s.onDev g).otp = s.otp := by unfold State.onDev; split <;> rfl
@[simp] theorem State.onDev_key : (s.onDev g).key = s.key := by unfold State.onDev; split <;> rfl
@[simp] theorem State.onDev_pending : (s.onDev g).pending = s.pending := by unfold State.onDev; split <;> rfl

theorem State.onDev_main (h : s.bak.main = true) : s.onDev g = { s with dev := g s.dev } := by simp [State.onDev, h]

theorem State.onDev_backup (h : s.bak.main = false) : s.onDev g = s := by simp [State.onDev, h]

end

end Sys2Proof.Machine
end

