-- ==== Sys2Proof/Laws/Registers.lean ====
section
/-! SUPPORT. The register file: reading after writing, fields of one word, flags and counters, and which registers a record
request may touch. -/

namespace Sys2Proof.Machine

/-! ### Fields of a word -/

/-- The bits of a word with one field replaced. -/
theorem testBit_fldPut (lo w v : Nat) (x : Word) (j : Nat) :
    (fldPut lo w v x).toNat.testBit j =
      (decide (j < 32) && (if j < lo then x.toNat.testBit j
        else if j < lo + w then v.testBit (j - lo) else x.toNat.testBit j)) := by
  unfold fldPut
  have e : x.toNat % 2 ^ lo + v % 2 ^ w * 2 ^ lo + x.toNat / 2 ^ (lo + w) * 2 ^ (lo + w) =
      2 ^ lo * (2 ^ w * (x.toNat / 2 ^ (lo + w)) + v % 2 ^ w) + x.toNat % 2 ^ lo := by
    rw [Nat.mul_add, ← Nat.mul_assoc, ← Nat.pow_add, Nat.mul_comm (2 ^ lo) (v % 2 ^ w),
      Nat.mul_comm (2 ^ (lo + w)) (x.toNat / 2 ^ (lo + w))]
    omega
  rw [BitVec.toNat_ofNat, e, Nat.testBit_mod_two_pow, Nat.testBit_two_pow_mul_add _ (Nat.mod_lt _ (Nat.two_pow_pos lo))]
  congr 1
  by_cases h : j < lo
  · simp [h, Nat.testBit_mod_two_pow]
  · rw [if_neg h, if_neg h, Nat.testBit_two_pow_mul_add _ (Nat.mod_lt _ (Nat.two_pow_pos w))]
    by_cases h2 : j < lo + w
    · have : j - lo < w := by omega
      simp [h2, this, Nat.testBit_mod_two_pow]
    · have : ¬ j - lo < w := by omega
      rw [if_neg this, if_neg h2, Nat.testBit_div_two_pow]
      congr 1; omega

theorem testBit_fldGet (lo w : Nat) (x : Word) (j : Nat) :
    (fldGet lo w x).testBit j = (decide (j < w) && x.toNat.testBit (lo + j)) := by
  unfold fldGet
  rw [Nat.testBit_mod_two_pow, Nat.testBit_div_two_pow, Nat.add_comm]

/-- A field reads back what was put into it. -/
theorem fldGet_fldPut_same {lo w : Nat} (v : Nat) (x : Word) (h : lo + w ≤ 32) :
    fldGet lo w (fldPut lo w v x) = v % 2 ^ w := by
  apply Nat.eq_of_testBit_eq
  intro j
  rw [testBit_fldGet, testBit_fldPut, Nat.testBit_mod_two_pow]
  by_cases hj : j < w
  · have h1 : lo + j < 32 := by omega
    have h2 : ¬ lo + j < lo := by omega
    have h3 : lo + j < lo + w := by omega
    have h4 : lo + j - lo = j := by omega
    simp [hj, h1, h2, h4]
  · simp [hj]

/-- Two fields of one word do not overlap. -/
def apart (lo w lo' w' : Nat) : Bool := decide (lo + w ≤ lo') || decide (lo' + w' ≤ lo)

/-- A field keeps its value when another one is put. -/
theorem fldGet_fldPut_apart {lo w lo' w' : Nat} (v : Nat) (x : Word) (h : apart lo w lo' w' = true) (hw : lo + w ≤ 32) :
    fldGet lo w (fldPut lo' w' v x) = fldGet lo w x := by
  simp only [apart, Bool.or_eq_true, decide_eq_true_eq] at h
  apply Nat.eq_of_testBit_eq
  intro j
  rw [testBit_fldGet, testBit_fldGet, testBit_fldPut]
  by_cases hj : j < w
  · have h1 : lo + j < 32 := by omega
    by_cases h2 : lo + j < lo'
    · simp [h1, h2]
    · have h3 : ¬ lo + j < lo' + w' := by omega
      simp [h1, h2, h3]
  · simp [hj]

theorem fldGet_lt (lo w : Nat) (x : Word) : fldGet lo w x < 2 ^ w := Nat.mod_lt _ (Nat.two_pow_pos w)

/-! ### Registers -/

@[simp] theorem Dev.rd_wr_same (d : Dev) (a : Nat) (v : Word) : (d.wr a v).rd a = v := spGet_spSet_same ..

theorem Dev.rd_wr_ne (d : Dev) {a b : Nat} (v : Word) (h : b ≠ a) : (d.wr a v).rd b = d.rd b := spGet_spSet_ne _ _ _ _ h

theorem Dev.rd_wrN_ne (d : Dev) {a b : Nat} (v : Nat) (h : b ≠ a) : (d.wrN a v).rd b = d.rd b := d.rd_wr_ne _ h

@[simp] theorem Dev.rd_wrN_same (d : Dev) (a v : Nat) : (d.wrN a v).rd a = BitVec.ofNat 32 v := d.rd_wr_same ..

theorem Dev.rd_setF_ne (d : Dev) {f : Fld} {a : Nat} (v : Nat) (h : a ≠ f.addr) : (d.setF f v).rd a = d.rd a := d.rd_wr_ne _ h

theorem Dev.rd_setB_ne (d : Dev) {f : Fld} {a : Nat} (b : Bool) (h : a ≠ f.addr) : (d.setB f b).rd a = d.rd a := d.rd_wr_ne _ h

theorem Dev.rd_setMaskBit_ne (d : Dev) {a c : Nat} (i : Nat) (b : Bool) (h : c ≠ a) : (d.setMaskBit a i b).rd c = d.rd c :=
  d.rd_wr_ne _ h

theorem Dev.rd_evt_ne (d : Dev) {f : Fld} {a : Nat} (h : a ≠ f.addr) : (d.evt f).rd a = d.rd a := d.rd_wr_ne _ h

theorem Dev.rd_noteSat_ne (d : Dev) {a : Nat} (b : Nat) (h : a ∉ satAddrs) : (d.noteSat b).rd a = d.rd a := by
  simp only [satAddrs, List.mem_cons, List.not_mem_nil, or_false, not_or] at h
  unfold Dev.noteSat
  split
  · rfl
  · rw [Dev.rd_evt_ne _ h.2, Dev.rd_setMaskBit_ne _ _ _ h.1]

theorem Dev.rd_bumpBy_ne (d : Dev) {f : Fld} {a : Nat} (n : Nat) (h : a ≠ f.addr) (hs : a ∉ satAddrs) :
    (d.bumpBy f n).rd a = d.rd a := by
  unfold Dev.bumpBy
  simp only []
  split
  · rfl
  · split
    · rw [Dev.rd_noteSat_ne _ _ hs, Dev.rd_setF_ne _ _ h]
    · rw [Dev.rd_setF_ne _ _ h]

theorem Dev.rd_bump_ne (d : Dev) {f : Fld} {a : Nat} (h : a ≠ f.addr) (hs : a ∉ satAddrs) : (d.bump f).rd a = d.rd a :=
  d.rd_bumpBy_ne 1 h hs

@[simp] theorem Dev.rd_emit (d : Dev) (k : OutKind) (p : Nat) (ws : List Nat) (a : Nat) : (d.emit k p ws).rd a = d.rd a := (rfl)
@[simp] theorem Dev.getF_emit (d : Dev) (k : OutKind) (p : Nat) (ws : List Nat) (f : Fld) :
    (d.emit k p ws).getF f = d.getF f := (rfl)
@[simp] theorem Dev.bit_emit (d : Dev) (k : OutKind) (p : Nat) (ws : List Nat) (f : Fld) : (d.emit k p ws).bit f = d.bit f := (rfl)
@[simp] theorem Dev.rd_free (d : Dev) (n a : Nat) : (d.free n).2.rd a = d.rd a := (rfl)
@[simp] theorem Dev.getF_free (d : Dev) (n : Nat) (f : Fld) : (d.free n).2.getF f = d.getF f := (rfl)

theorem Dev.rd_logAccept_ne (d : Dev) {a : Nat} (blk code stat : Nat) (items : List Nat) (b : Bool) (h : a ∉ logAddrs) :
    (d.logAccept blk code stat items b).rd a = d.rd a := by
  simp only [logAddrs, satAddrs, List.cons_append, List.nil_append, List.mem_cons, List.not_mem_nil, or_false, not_or] at h
  unfold Dev.logAccept
  split
  · rw [Dev.rd_evt_ne _ h.1, Dev.rd_bump_ne _ h.2.1 (by simp [satAddrs, h.2.2.1, h.2.2.2])]
  · rfl

theorem Dev.rd_logEvt_ne (d : Dev) {a : Nat} (blk i : Nat) (items : List Nat) (h : a ∉ logAddrs) :
    (d.logEvt blk i items).rd a = d.rd a := d.rd_logAccept_ne _ _ _ _ _ h
theorem Dev.rd_logEvt7_ne (d : Dev) {a : Nat} (blk i : Nat) (items : List Nat) (h : a ∉ logAddrs) :
    (d.logEvt7 blk i items).rd a = d.rd a := d.rd_logAccept_ne _ _ _ _ _ h
theorem Dev.rd_logLane_ne (d : Dev) {a : Nat} (n i : Nat) (items : List Nat) (h : a ∉ logAddrs) :
    (d.logLane n i items).rd a = d.rd a := d.rd_logAccept_ne _ _ _ _ _ h
theorem Dev.rd_logReg_ne (d : Dev) {a : Nat} (blk i : Nat) (items : List Nat) (h : a ∉ logAddrs) :
    (d.logReg blk i items).rd a = d.rd a := d.rd_logAccept_ne _ _ _ _ _ h
theorem Dev.rd_logReg7_ne (d : Dev) {a : Nat} (blk i : Nat) (items : List Nat) (h : a ∉ logAddrs) :
    (d.logReg7 blk i items).rd a = d.rd a := d.rd_logAccept_ne _ _ _ _ _ h

theorem Dev.rd_mftTrigger_ne (d : Dev) {a : Nat} (src det : Nat) (h : a ∉ mftAddrs) :
    (d.mftTrigger src det).rd a = d.rd a := by
  simp only [mftAddrs, satAddrs, List.cons_append, List.nil_append, List.mem_cons, List.not_mem_nil, or_false, not_or] at h
  have missed : ((d.bump MFT_MISSED).evt MFT_EVT_MISSED).rd a = d.rd a := by
    rw [Dev.rd_evt_ne _ h.1, Dev.rd_bump_ne _ h.2.1 (by simp [satAddrs, h.2.2.1, h.2.2.2])]
  unfold Dev.mftTrigger Dev.mftTriggerAt
  split
  · rfl
  · split
    · split
      · rfl
      · exact missed
    · split
      · rfl
      · exact missed

/-! ### Named fields -/

/-- The field lies within its word. -/
def Fld.ok (f : Fld) : Bool := decide (f.lo + f.width ≤ 32)

/-- Two fields lie in different registers, or apart in one. -/
def Fld.off (f g : Fld) : Bool := decide (f.addr ≠ g.addr) || apart f.lo f.width g.lo g.width

theorem Dev.getF_of_rd {d e : Dev} {f : Fld} (h : d.rd f.addr = e.rd f.addr) : d.getF f = e.getF f := by
  unfold Dev.getF; rw [h]

theorem Dev.bit_of_rd {d e : Dev} {f : Fld} (h : d.rd f.addr = e.rd f.addr) : d.bit f = e.bit f := by
  unfold Dev.bit; rw [Dev.getF_of_rd h]

theorem Dev.getF_setF_same (d : Dev) {f : Fld} (v : Nat) (h : f.ok = true) : (d.setF f v).getF f = v % 2 ^ f.width := by
  unfold Dev.getF Dev.setF
  rw [Dev.rd_wr_same, fldGet_fldPut_same _ _ (by simpa [Fld.ok] using h)]

theorem Dev.getF_setF_off (d : Dev) {f g : Fld} (v : Nat) (h : f.off g = true) (ho : f.ok = true) :
    (d.setF g v).getF f = d.getF f := by
  simp only [Fld.off, Bool.or_eq_true, decide_eq_true_eq] at h
  simp only [Fld.ok, decide_eq_true_eq] at ho
  by_cases e : f.addr = g.addr
  · have hp : apart f.lo f.width g.lo g.width = true := h.resolve_left (fun n => n e)
    unfold Dev.getF Dev.setF
    rw [e, Dev.rd_wr_same, fldGet_fldPut_apart _ _ hp ho]
  · exact Dev.getF_of_rd (Dev.rd_setF_ne d v e)

theorem Dev.getF_setF_addr (d : Dev) {f g : Fld} (v : Nat) (h : f.addr ≠ g.addr) : (d.setF g v).getF f = d.getF f :=
  Dev.getF_of_rd (d.rd_setF_ne v h)

theorem Dev.getF_setB_same (d : Dev) {f : Fld} (b : Bool) (h : f.ok = true) (hw : f.width = 1) : (d.setB f b).getF f = b2n b := by
  unfold Dev.setB
  rw [Dev.getF_setF_same _ _ h, hw]
  cases b <;> rfl

theorem Dev.bit_setB_same (d : Dev) {f : Fld} (b : Bool) (h : f.ok = true) (hw : f.width = 1) : (d.setB f b).bit f = b := by
  unfold Dev.bit
  rw [Dev.getF_setB_same _ _ h hw]
  cases b <;> rfl

theorem Dev.getF_setB_off (d : Dev) {f g : Fld} (b : Bool) (h : f.off g = true) (ho : f.ok = true) :
    (d.setB g b).getF f = d.getF f := d.getF_setF_off _ h ho

theorem Dev.getF_evt_same (d : Dev) {f : Fld} (h : f.ok = true) (hw : f.width = 1) : (d.evt f).getF f = 1 := by
  have e : 1 % 2 ^ f.width = 1 := by simp [hw]
  unfold Dev.evt
  rw [Dev.getF_setF_same _ _ h]
  exact e

theorem Dev.getF_evt_off (d : Dev) {f g : Fld} (h : f.off g = true) (ho : f.ok = true) : (d.evt g).getF f = d.getF f :=
  d.getF_setF_off 1 h ho

theorem Dev.getF_lt (d : Dev) (f : Fld) : d.getF f < 2 ^ f.width := fldGet_lt ..

theorem Dev.getF_noteSat (d : Dev) (b : Nat) {f : Fld} (hs : f.addr ∉ satAddrs) : (d.noteSat b).getF f = d.getF f :=
  Dev.getF_of_rd (d.rd_noteSat_ne b hs)

/-- A counter saturates at all ones (R395). -/
theorem Dev.getF_bumpBy_same (d : Dev) {f : Fld} (n : Nat) (h : f.ok = true) (hs : f.addr ∉ satAddrs) :
    (d.bumpBy f n).getF f = d.counted f n := by
  have hlt := d.getF_lt f
  have hp := Nat.two_pow_pos f.width
  unfold Dev.bumpBy Dev.counted
  simp only []
  split
  · next c => rcases c with c | c <;> omega
  · split
    · rw [Dev.getF_noteSat _ _ hs, Dev.getF_setF_same _ _ h, Nat.mod_eq_of_lt (by omega)]; omega
    · rw [Dev.getF_setF_same _ _ h, Nat.mod_eq_of_lt (by omega)]; omega

theorem Dev.getF_bump_same (d : Dev) {f : Fld} (h : f.ok = true) (hs : f.addr ∉ satAddrs) :
    (d.bump f).getF f = d.counted f 1 := d.getF_bumpBy_same 1 h hs

theorem Dev.getF_bumpBy_off (d : Dev) {f g : Fld} (n : Nat) (h : f.off g = true) (ho : f.ok = true) (hs : f.addr ∉ satAddrs) :
    (d.bumpBy g n).getF f = d.getF f := by
  unfold Dev.bumpBy
  simp only []
  split
  · rfl
  · split
    · rw [Dev.getF_noteSat _ _ hs, Dev.getF_setF_off _ _ h ho]
    · rw [Dev.getF_setF_off _ _ h ho]

theorem Dev.getF_bump_off (d : Dev) {f g : Fld} (h : f.off g = true) (ho : f.ok = true) (hs : f.addr ∉ satAddrs) :
    (d.bump g).getF f = d.getF f := d.getF_bumpBy_off 1 h ho hs

theorem Dev.getF_wr_ne (d : Dev) {f : Fld} {a : Nat} (v : Word) (h : f.addr ≠ a) : (d.wr a v).getF f = d.getF f :=
  Dev.getF_of_rd (d.rd_wr_ne v h)

theorem Dev.getF_wrN_ne (d : Dev) {f : Fld} {a : Nat} (v : Nat) (h : f.addr ≠ a) : (d.wrN a v).getF f = d.getF f :=
  Dev.getF_of_rd (d.rd_wrN_ne v h)

theorem Dev.getF_setMaskBit_ne (d : Dev) {f : Fld} {a : Nat} (i : Nat) (b : Bool) (h : f.addr ≠ a) :
    (d.setMaskBit a i b).getF f = d.getF f := Dev.getF_of_rd (d.rd_setMaskBit_ne i b h)

theorem Dev.getF_logEvt (d : Dev) {f : Fld} (blk i : Nat) (items : List Nat) (h : f.addr ∉ logAddrs) :
    (d.logEvt blk i items).getF f = d.getF f := Dev.getF_of_rd (d.rd_logEvt_ne _ _ _ h)
theorem Dev.getF_logEvt7 (d : Dev) {f : Fld} (blk i : Nat) (items : List Nat) (h : f.addr ∉ logAddrs) :
    (d.logEvt7 blk i items).getF f = d.getF f := Dev.getF_of_rd (d.rd_logEvt7_ne _ _ _ h)
theorem Dev.getF_logLane (d : Dev) {f : Fld} (n i : Nat) (items : List Nat) (h : f.addr ∉ logAddrs) :
    (d.logLane n i items).getF f = d.getF f := Dev.getF_of_rd (d.rd_logLane_ne _ _ _ h)
theorem Dev.getF_logReg (d : Dev) {f : Fld} (blk i : Nat) (items : List Nat) (h : f.addr ∉ logAddrs) :
    (d.logReg blk i items).getF f = d.getF f := Dev.getF_of_rd (d.rd_logReg_ne _ _ _ h)
theorem Dev.getF_logReg7 (d : Dev) {f : Fld} (blk i : Nat) (items : List Nat) (h : f.addr ∉ logAddrs) :
    (d.logReg7 blk i items).getF f = d.getF f := Dev.getF_of_rd (d.rd_logReg7_ne _ _ _ h)
theorem Dev.getF_mftTrigger (d : Dev) {f : Fld} (src det : Nat) (h : f.addr ∉ mftAddrs) :
    (d.mftTrigger src det).getF f = d.getF f := Dev.getF_of_rd (d.rd_mftTrigger_ne _ _ h)

/-! ### A flag with its counter -/

/-- An event flag and a counter apart from it and from what saturation notes. -/
def Fld.pair (e c : Fld) : Bool :=
  e.ok && decide (e.width = 1) && c.ok && e.off c && c.off e && decide (e.addr ∉ satAddrs) && decide (c.addr ∉ satAddrs)

theorem Dev.evt_bump (d : Dev) {e c : Fld} (h : e.pair c = true) :
    ((d.evt e).bump c).bit e = true ∧ ((d.evt e).bump c).getF c = d.counted c 1 := by
  simp only [Fld.pair, Bool.and_eq_true, decide_eq_true_eq] at h
  obtain ⟨⟨⟨⟨⟨⟨h1, h2⟩, h3⟩, h4⟩, h5⟩, h6⟩, h7⟩ := h
  constructor
  · unfold Dev.bit
    rw [Dev.getF_bump_off _ h4 h1 h6, Dev.getF_evt_same _ h1 h2]
    rfl
  · rw [Dev.getF_bump_same _ h3 h7]
    unfold Dev.counted
    rw [Dev.getF_evt_off _ h5 h3]

theorem Dev.bump_evt (d : Dev) {e c : Fld} (h : e.pair c = true) :
    ((d.bump c).evt e).bit e = true ∧ ((d.bump c).evt e).getF c = d.counted c 1 := by
  simp only [Fld.pair, Bool.and_eq_true, decide_eq_true_eq] at h
  obtain ⟨⟨⟨⟨⟨⟨h1, h2⟩, h3⟩, h4⟩, h5⟩, h6⟩, h7⟩ := h
  constructor
  · unfold Dev.bit
    rw [Dev.getF_evt_same _ h1 h2]
    rfl
  · rw [Dev.getF_evt_off _ h5 h3, Dev.getF_bump_same _ h3 h7]

/-! ### Repetition -/

/-- A property that every round keeps holds after all of them. -/
theorem forN_keeps {α : Type} {P : α → Prop} {f : Nat → α → α} (n : Nat) (hf : ∀ i x, i < n → P x → P (f i x)) {x : α} (hx : P x) :
    P (forN n f x) := by
  unfold forN
  have : ∀ (l : List Nat), (∀ i ∈ l, i < n) → ∀ y, P y → P (l.foldl (fun y i => f i y) y) := by
    intro l
    induction l with
    | nil => intro _ y hy; exact hy
    | cons i t ih => intro hl y hy; exact ih (fun j hj => hl j (by simp [hj])) _ (hf i y (hl i (by simp)) hy)
  exact this _ (by simp) x hx

theorem foldl_keeps {α β : Type} {P : α → Prop} {f : α → β → α} (l : List β) (hf : ∀ x b, b ∈ l → P x → P (f x b)) {x : α}
    (hx : P x) : P (l.foldl f x) := by
  induction l generalizing x with
  | nil => exact hx
  | cons b t ih => exact ih (fun y c hc => hf y c (by simp [hc])) (hf x b (by simp) hx)

theorem forN_succ {α : Type} (n : Nat) (f : Nat → α → α) (x : α) : forN (n + 1) f x = f n (forN n f x) := by
  unfold forN; rw [List.range_succ, List.foldl_append]; rfl

/-- What round `j` establishes stays, if later rounds keep it. -/
theorem forN_reaches {α : Type} {Q : α → Prop} {f : Nat → α → α} {n j : Nat} (hj : j < n) (h1 : ∀ x, Q (f j x))
    (h2 : ∀ i x, j < i → i < n → Q x → Q (f i x)) (x : α) : Q (forN n f x) := by
  induction n with
  | zero => omega
  | succ n ih =>
    rw [forN_succ]
    by_cases h : j = n
    · subst h; exact h1 _
    · exact h2 n _ (by omega) (by omega) (ih (by omega) (fun i x hi hn => h2 i x hi (by omega)))

/-- A field that no round touches is as it was. -/
theorem getF_forN {f : Nat → Dev → Dev} {g : Fld} (n : Nat) (hf : ∀ i (x : Dev), i < n → (f i x).getF g = x.getF g) (x : Dev) :
    (forN n f x).getF g = x.getF g :=
  forN_keeps (P := fun y => y.getF g = x.getF g) n (fun i y hi hy => (hf i y hi).trans hy) rfl

end Sys2Proof.Machine
end

