-- ==== Sys2Proof/Laws/Frame.lean ====
section
/-! SUPPORT. Frames compose: what each shared update adds to the registers and parts that may have changed. -/

namespace Sys2Proof.Machine

variable {R : Nat → Prop} {P : List Part} {d e e' : Dev}

theorem Part.same_refl (x : Part) (d : Dev) : x.same d d := by cases x <;> rfl

theorem Part.same_trans {x : Part} {a b c : Dev} (h1 : x.same a b) (h2 : x.same b c) : x.same a c := by
  cases x <;> exact Eq.trans h2 h1

theorem Within.refl (d : Dev) : Within R P d d := ⟨fun _ _ => rfl, fun x _ => x.same_refl d⟩

theorem Within.trans (h1 : Within R P d e) (h2 : Within R P e e') : Within R P d e' :=
  ⟨fun a ha => (h2.1 a ha).trans (h1.1 a ha), fun x hx => Part.same_trans (h1.2 x hx) (h2.2 x hx)⟩

theorem Within.mono {R' : Nat → Prop} {P' : List Part} (h : Within R P d e) (hR : ∀ a, R a → R' a) (hP : ∀ x ∈ P, x ∈ P') :
    Within R' P' d e :=
  ⟨fun a ha => h.1 a (fun c => ha (hR a c)), fun x hx => h.2 x (fun c => hx (hP x c))⟩

theorem Within.getF {f : Fld} (h : Within R P d e) (hf : ¬ R f.addr) : e.getF f = d.getF f := Dev.getF_of_rd (h.1 _ hf)
theorem Within.bit {f : Fld} (h : Within R P d e) (hf : ¬ R f.addr) : e.bit f = d.bit f := Dev.bit_of_rd (h.1 _ hf)

/-- Only the register file has changed. -/
theorem Within.regs {r : Sp Word} (hr : ∀ a, ¬ R a → ({ e with regs := r } : Dev).rd a = e.rd a) (h : Within R P d e) :
    Within R P d { e with regs := r } :=
  h.trans ⟨hr, fun x _ => by cases x <;> rfl⟩

/-- The register file has not changed. -/
theorem Within.parts (h : Within R P d e) (hr : e'.regs = e.regs) (hp : ∀ x, x ∉ P → x.same e e') : Within R P d e' :=
  h.trans ⟨fun a _ => by unfold Dev.rd; rw [hr], hp⟩

theorem Within.wr {a : Nat} (v : Word) (ha : R a) (h : Within R P d e) : Within R P d (e.wr a v) :=
  h.regs fun _ hb => e.rd_wr_ne v (fun c => hb (c ▸ ha))

theorem Within.wrN {a : Nat} (v : Nat) (ha : R a) (h : Within R P d e) : Within R P d (e.wrN a v) := h.wr _ ha
theorem Within.setF {f : Fld} (v : Nat) (ha : R f.addr) (h : Within R P d e) : Within R P d (e.setF f v) := h.wr _ ha
theorem Within.setB {f : Fld} (b : Bool) (ha : R f.addr) (h : Within R P d e) : Within R P d (e.setB f b) := h.wr _ ha
theorem Within.evt {f : Fld} (ha : R f.addr) (h : Within R P d e) : Within R P d (e.evt f) := h.wr _ ha
theorem Within.setMaskBit {a : Nat} (i : Nat) (b : Bool) (ha : R a) (h : Within R P d e) : Within R P d (e.setMaskBit a i b) :=
  h.wr _ ha

theorem Within.noteSat (b : Nat) (hs : ∀ a ∈ satAddrs, R a) (h : Within R P d e) : Within R P d (e.noteSat b) := by
  unfold Dev.noteSat
  split
  · exact h
  · exact (h.setMaskBit _ _ (hs _ (by simp [satAddrs]))).evt (hs _ (by simp [satAddrs, CRG_EVT_CNT_SAT]))

theorem Within.bumpBy {f : Fld} (n : Nat) (ha : R f.addr) (hs : ∀ a ∈ satAddrs, R a) (h : Within R P d e) :
    Within R P d (e.bumpBy f n) := by
  unfold Dev.bumpBy
  simp only []
  split
  · exact h
  · split
    · exact (h.setF _ ha).noteSat _ hs
    · exact h.setF _ ha

theorem Within.bump {f : Fld} (ha : R f.addr) (hs : ∀ a ∈ satAddrs, R a) (h : Within R P d e) : Within R P d (e.bump f) :=
  h.bumpBy 1 ha hs

theorem Within.emit (k : OutKind) (p : Nat) (ws : List Nat) (hx : Part.sent ∈ P) (h : Within R P d e) :
    Within R P d (e.emit k p ws) :=
  h.parts rfl fun x hn => by cases x <;> first | rfl | exact absurd hx hn

theorem Within.free (n : Nat) (hx : Part.freeCtr ∈ P) (h : Within R P d e) : Within R P d (e.free n).2 :=
  h.parts rfl fun x hn => by cases x <;> first | rfl | exact absurd hx hn

/-- A Logbook request (R434). -/
theorem Within.logAccept (blk code stat : Nat) (items : List Nat) (b : Bool) (hs : ∀ a ∈ logAddrs, R a) (hl : Part.log ∈ P)
    (hm : Part.mram ∈ P) (h : Within R P d e) : Within R P d (e.logAccept blk code stat items b) := by
  refine h.trans ⟨fun a ha => e.rd_logAccept_ne _ _ _ _ _ (fun c => ha (hs a c)), fun x hx => ?_⟩
  obtain ⟨r, m, l, h⟩ := e.logAccept_only blk code stat items b
  rw [h]
  cases x <;> first | rfl | exact absurd hl hx | exact absurd hm hx

theorem Within.logEvt (blk i : Nat) (items : List Nat) (hs : ∀ a ∈ logAddrs, R a) (hl : Part.log ∈ P) (hm : Part.mram ∈ P)
    (h : Within R P d e) : Within R P d (e.logEvt blk i items) := h.logAccept _ _ _ _ _ hs hl hm
theorem Within.logEvt7 (blk i : Nat) (items : List Nat) (hs : ∀ a ∈ logAddrs, R a) (hl : Part.log ∈ P) (hm : Part.mram ∈ P)
    (h : Within R P d e) : Within R P d (e.logEvt7 blk i items) := h.logAccept _ _ _ _ _ hs hl hm
theorem Within.logLane (n i : Nat) (items : List Nat) (hs : ∀ a ∈ logAddrs, R a) (hl : Part.log ∈ P) (hm : Part.mram ∈ P)
    (h : Within R P d e) : Within R P d (e.logLane n i items) := h.logAccept _ _ _ _ _ hs hl hm
theorem Within.logReg (blk i : Nat) (items : List Nat) (hs : ∀ a ∈ logAddrs, R a) (hl : Part.log ∈ P) (hm : Part.mram ∈ P)
    (h : Within R P d e) : Within R P d (e.logReg blk i items) := h.logAccept _ _ _ _ _ hs hl hm
theorem Within.logReg7 (blk i : Nat) (items : List Nat) (hs : ∀ a ∈ logAddrs, R a) (hl : Part.log ∈ P) (hm : Part.mram ∈ P)
    (h : Within R P d e) : Within R P d (e.logReg7 blk i items) := h.logAccept _ _ _ _ _ hs hl hm

/-- A Manifest trigger (R442 to R444). -/
theorem Within.mftTriggerAt (src det tm : Nat) (hs : ∀ a ∈ mftAddrs, R a) (hx : Part.mft ∈ P) (h : Within R P d e) :
    Within R P d (e.mftTriggerAt src det tm) := by
  have h1 : R (MFT_MISSED).addr := hs _ (by simp [mftAddrs])
  have h2 : R (MFT_EVT_MISSED).addr := hs _ (by simp [mftAddrs, MFT_EVT_MISSED])
  have h3 : ∀ a ∈ satAddrs, R a := fun a ha => hs a (by simp only [mftAddrs, List.mem_append]; exact Or.inr ha)
  have hp : ∀ (m : MftSt), Within R P d { e with mft := m } := fun m =>
    h.parts rfl fun x hn => by cases x <;> first | rfl | exact absurd hx hn
  unfold Dev.mftTriggerAt
  split
  · exact h
  · split
    · split
      · exact hp _
      · exact (h.bump h1 h3).evt h2
    · split
      · exact hp _
      · exact (h.bump h1 h3).evt h2

theorem Within.mftTrigger (src det : Nat) (hs : ∀ a ∈ mftAddrs, R a) (hx : Part.mft ∈ P) (h : Within R P d e) :
    Within R P d (e.mftTrigger src det) := h.mftTriggerAt _ _ _ hs hx

/-! ### Repetition -/

theorem Within.forN {f : Nat → Dev → Dev} (n : Nat) (hf : ∀ i e, i < n → Within R P e (f i e)) (h : Within R P d e) :
    Within R P d (forN n f e) :=
  forN_keeps n (fun i _ hi hx => hx.trans (hf i _ hi)) h

theorem Within.foldl {β : Type} {f : Dev → β → Dev} (l : List β) (hf : ∀ e b, b ∈ l → Within R P e (f e b))
    (h : Within R P d e) : Within R P d (l.foldl f e) :=
  foldl_keeps l (fun _ b hb hx => hx.trans (hf _ b hb)) h

/-! ### Parts replaced -/

theorem Within.time {v} (hx : Part.time ∈ P) (h : Within R P d e) : Within R P d { e with time := v } :=
  h.parts rfl fun x hn => by cases x <;> first | rfl | exact absurd hx hn
theorem Within.brtc {v} (hx : Part.brtc ∈ P) (h : Within R P d e) : Within R P d { e with brtc := v } :=
  h.parts rfl fun x hn => by cases x <;> first | rfl | exact absurd hx hn
theorem Within.per {v} (hx : Part.per ∈ P) (h : Within R P d e) : Within R P d { e with per := v } :=
  h.parts rfl fun x hn => by cases x <;> first | rfl | exact absurd hx hn
theorem Within.tbs {v} (hx : Part.tbs ∈ P) (h : Within R P d e) : Within R P d { e with tbs := v } :=
  h.parts rfl fun x hn => by cases x <;> first | rfl | exact absurd hx hn
theorem Within.ptp1 {v} (hx : Part.ptp1 ∈ P) (h : Within R P d e) : Within R P d { e with ptp1 := v } :=
  h.parts rfl fun x hn => by cases x <;> first | rfl | exact absurd hx hn
theorem Within.ptp2 {v} (hx : Part.ptp2 ∈ P) (h : Within R P d e) : Within R P d { e with ptp2 := v } :=
  h.parts rfl fun x hn => by cases x <;> first | rfl | exact absurd hx hn
theorem Within.lanes {v} (hx : Part.lanes ∈ P) (h : Within R P d e) : Within R P d { e with lanes := v } :=
  h.parts rfl fun x hn => by cases x <;> first | rfl | exact absurd hx hn
theorem Within.twl {v} (hx : Part.twl ∈ P) (h : Within R P d e) : Within R P d { e with twl := v } :=
  h.parts rfl fun x hn => by cases x <;> first | rfl | exact absurd hx hn
theorem Within.smem {v} (hx : Part.smem ∈ P) (h : Within R P d e) : Within R P d { e with smem := v } :=
  h.parts rfl fun x hn => by cases x <;> first | rfl | exact absurd hx hn
theorem Within.cbk {v} (hx : Part.cbk ∈ P) (h : Within R P d e) : Within R P d { e with cbk := v } :=
  h.parts rfl fun x hn => by cases x <;> first | rfl | exact absurd hx hn
theorem Within.hlm {v} (hx : Part.hlm ∈ P) (h : Within R P d e) : Within R P d { e with hlm := v } :=
  h.parts rfl fun x hn => by cases x <;> first | rfl | exact absurd hx hn
theorem Within.gwy {v} (hx : Part.gwy ∈ P) (h : Within R P d e) : Within R P d { e with gwy := v } :=
  h.parts rfl fun x hn => by cases x <;> first | rfl | exact absurd hx hn
theorem Within.bls {v} (hx : Part.bls ∈ P) (h : Within R P d e) : Within R P d { e with bls := v } :=
  h.parts rfl fun x hn => by cases x <;> first | rfl | exact absurd hx hn
theorem Within.mod {v} (hx : Part.mod ∈ P) (h : Within R P d e) : Within R P d { e with mod := v } :=
  h.parts rfl fun x hn => by cases x <;> first | rfl | exact absurd hx hn
theorem Within.sar {v} (hx : Part.sar ∈ P) (h : Within R P d e) : Within R P d { e with sar := v } :=
  h.parts rfl fun x hn => by cases x <;> first | rfl | exact absurd hx hn
theorem Within.wcm {v} (hx : Part.wcm ∈ P) (h : Within R P d e) : Within R P d { e with wcm := v } :=
  h.parts rfl fun x hn => by cases x <;> first | rfl | exact absurd hx hn
theorem Within.mtr {v} (hx : Part.mtr ∈ P) (h : Within R P d e) : Within R P d { e with mtr := v } :=
  h.parts rfl fun x hn => by cases x <;> first | rfl | exact absurd hx hn
theorem Within.net {v} (hx : Part.net ∈ P) (h : Within R P d e) : Within R P d { e with net := v } :=
  h.parts rfl fun x hn => by cases x <;> first | rfl | exact absurd hx hn
theorem Within.svx {v} (hx : Part.svx ∈ P) (h : Within R P d e) : Within R P d { e with svx := v } :=
  h.parts rfl fun x hn => by cases x <;> first | rfl | exact absurd hx hn
theorem Within.gse {v} (hx : Part.gse ∈ P) (h : Within R P d e) : Within R P d { e with gse := v } :=
  h.parts rfl fun x hn => by cases x <;> first | rfl | exact absurd hx hn
theorem Within.lb {v} (hx : Part.lb ∈ P) (h : Within R P d e) : Within R P d { e with lb := v } :=
  h.parts rfl fun x hn => by cases x <;> first | rfl | exact absurd hx hn
theorem Within.mor {v} (hx : Part.mor ∈ P) (h : Within R P d e) : Within R P d { e with mor := v } :=
  h.parts rfl fun x hn => by cases x <;> first | rfl | exact absurd hx hn
theorem Within.saf {v} (hx : Part.saf ∈ P) (h : Within R P d e) : Within R P d { e with saf := v } :=
  h.parts rfl fun x hn => by cases x <;> first | rfl | exact absurd hx hn
theorem Within.rxReady {v} (hx : Part.rxReady ∈ P) (h : Within R P d e) : Within R P d { e with rxReady := v } :=
  h.parts rfl fun x hn => by cases x <;> first | rfl | exact absurd hx hn
theorem Within.log {v} (hx : Part.log ∈ P) (h : Within R P d e) : Within R P d { e with log := v } :=
  h.parts rfl fun x hn => by cases x <;> first | rfl | exact absurd hx hn
theorem Within.mft {v} (hx : Part.mft ∈ P) (h : Within R P d e) : Within R P d { e with mft := v } :=
  h.parts rfl fun x hn => by cases x <;> first | rfl | exact absurd hx hn
theorem Within.thm {v} (hx : Part.thm ∈ P) (h : Within R P d e) : Within R P d { e with thm := v } :=
  h.parts rfl fun x hn => by cases x <;> first | rfl | exact absurd hx hn
theorem Within.mgt {v} (hx : Part.mgt ∈ P) (h : Within R P d e) : Within R P d { e with mgt := v } :=
  h.parts rfl fun x hn => by cases x <;> first | rfl | exact absurd hx hn
theorem Within.crg {v} (hx : Part.crg ∈ P) (h : Within R P d e) : Within R P d { e with crg := v } :=
  h.parts rfl fun x hn => by cases x <;> first | rfl | exact absurd hx hn
theorem Within.kcmd {v} (hx : Part.kcmd ∈ P) (h : Within R P d e) : Within R P d { e with kcmd := v } :=
  h.parts rfl fun x hn => by cases x <;> first | rfl | exact absurd hx hn
theorem Within.mram {v} (hx : Part.mram ∈ P) (h : Within R P d e) : Within R P d { e with mram := v } :=
  h.parts rfl fun x hn => by cases x <;> first | rfl | exact absurd hx hn
theorem Within.sent {v} (hx : Part.sent ∈ P) (h : Within R P d e) : Within R P d { e with sent := v } :=
  h.parts rfl fun x hn => by cases x <;> first | rfl | exact absurd hx hn

theorem Within.setLb (j : Nat) (l : LbSt) (hx : Part.lb ∈ P) (h : Within R P d e) : Within R P d (e.setLb j l) := h.lb hx
theorem Within.setMw (w : Nat) (v : Word) (hx : Part.smem ∈ P) (h : Within R P d e) : Within R P d (e.setMw w v) := h.smem hx
theorem Within.setMwN (w v : Nat) (hx : Part.smem ∈ P) (h : Within R P d e) : Within R P d (e.setMwN w v) := h.smem hx
theorem Within.setLatch (pn a v : Nat) (hx : Part.mgt ∈ P) (h : Within R P d e) : Within R P d (e.setLatch pn a v) := h.mgt hx

end Sys2Proof.Machine
end

