-- ==== Sys2Proof/Laws/Access.lean ====
section
/-! SUPPORT. What an access does: taken, turned away by its block, refused; and what a refusal leaves. -/

namespace Sys2Proof.Machine

variable {s : State} {p : Path} {a : Nat} {v : Word} {ref : Dev → Dev} {eff : WEff}

/-! ### What a pair carries (R354) -/

theorem Dev.carry_plain (d d1 : Dev) (v : Word) (h : carriedAddr a = false) : d.carry d1 a v = d1 := by
  unfold Dev.carry
  simp [h]

/-- A write that counts now changes nothing beside its effect but the list of what goes to the standby. -/
theorem Dev.carry_now (d d1 : Dev) (v : Word) (h : d.defers a = false) :
    ∃ o, d.carry d1 a v = { d1 with mor := { d1.mor with out := o } } := by
  unfold Dev.carry
  split
  · exact ⟨d1.mor.out, rfl⟩
  · next c =>
    split
    · next l =>
      exfalso
      simp only [Bool.or_eq_true, Bool.not_eq_true', decide_eq_true_eq, Bool.and_eq_true, not_or, Bool.not_eq_false] at c
      unfold Dev.defers at h
      simp [c.1.1.1, c.1.1.2, c.1.2, l.1, l.2] at h
    · exact ⟨_, rfl⟩

/-! ### Writes -/

theorem State.granted_main (h : s.granted p a v = true) : s.bak.main = true := by
  simp only [State.granted, Bool.and_eq_true] at h; exact h.1.1.1

theorem State.granted_judge (h : s.granted p a v = true) : s.dev.judge (s.classOf p) a v = stDone := by
  simp only [State.granted, Bool.and_eq_true, decide_eq_true_eq] at h; exact h.1.1.2

theorem State.granted_runs (h : s.granted p a v = true) : s.dev.stopped (domOf a) = false := by
  simp only [State.granted, Bool.and_eq_true, Bool.not_eq_true'] at h; exact h.1.2

theorem State.granted_now (h : s.granted p a v = true) (hc : carriedAddr a = true) :
    s.dev.drives = true ∧ s.dev.defers a = false := by
  simp only [State.granted, Bool.and_eq_true, Bool.or_eq_true, Bool.not_eq_true', hc, Bool.true_eq_false, false_or] at h
  exact h.2

theorem State.granted_defers (h : s.granted p a v = true) : s.dev.defers a = false := by
  cases hc : carriedAddr a
  · unfold Dev.defers; simp [hc]
  · exact (State.granted_now h hc).2

/-- The guard hands a granted write to the block. -/
theorem State.guardW_granted (pn : Nat) (h : s.granted p a v = true) :
    s.dev.guardW (s.classOf p) pn a v ref eff =
      if (eff s.dev).1 then (stDone, s.dev.carry (eff s.dev).2 a v) else (stR10, (eff s.dev).2.noteRef pn stR10 a) := by
  unfold Dev.guardW
  simp only [State.granted_judge h, ne_eq, not_true_eq_false, if_false, State.granted_runs h, Bool.false_eq_true]
  cases hc : carriedAddr a
  · simp
  · simp [(State.granted_now h hc).1]

/-- A granted write that its block takes. -/
theorem State.writeRow_taken (h : s.granted p a v = true) (he : (eff s.dev).1 = true) :
    s.writeRow p a v ref eff =
      { s with dev := (s.dev.carry (eff s.dev).2 a v).emit .reply (pathNo p) [stDone, a] } := by
  unfold State.writeRow
  rw [State.onDev_main _ _ (State.granted_main h)]
  simp only [State.guardW_granted _ h, he, if_true]

/-- A granted write that its block turns away (R507). -/
theorem State.writeRow_turned (h : s.granted p a v = true) (he : (eff s.dev).1 = false) :
    s.writeRow p a v ref eff =
      { s with dev := ((eff s.dev).2.noteRef (pathNo p) stR10 a).emit .reply (pathNo p) [stR10, a] } := by
  unfold State.writeRow
  rw [State.onDev_main _ _ (State.granted_main h)]
  simp only [State.guardW_granted _ h, he, Bool.false_eq_true, if_false]

/-- A write that its judgement refuses. -/
theorem State.writeRow_refused (hm : s.bak.main = true) (hj : s.dev.judge (s.classOf p) a v ≠ stDone) :
    s.writeRow p a v ref eff =
      { s with dev := (((if s.dev.judge (s.classOf p) a v = stR10 then ref s.dev else s.dev).noteRef (pathNo p)
          (s.dev.judge (s.classOf p) a v) a).emit .reply (pathNo p) [s.dev.judge (s.classOf p) a v, a]) } := by
  unfold State.writeRow
  rw [State.onDev_main _ _ hm]
  simp only [Dev.guardW, ne_eq, hj, not_false_eq_true, if_true]

/-! ### Reads -/

theorem State.readable_main (h : s.readable p a = true) : s.bak.main = true := by
  simp only [State.readable, Bool.and_eq_true] at h; exact h.1.1.1.1

/-- A read that is performed. -/
theorem State.readRow_done {eff : Dev → Word × Dev} (h : s.readable p a = true) :
    s.readRow p a eff =
      { s with dev := (eff s.dev).2.emit .reply (pathNo p) [stDone, a, (eff s.dev).1.toNat] } := by
  have hm := State.readable_main h
  simp only [State.readable, Bool.and_eq_true, decide_eq_true_eq, Bool.not_eq_true', Option.isSome_iff_ne_none] at h
  unfold State.readRow
  rw [State.onDev_main _ _ hm]
  simp only [Dev.guardR, h.1.1.1.2, h.1.1.2, h.1.2, h.2, ne_eq, not_true_eq_false, or_self, if_false, Bool.false_eq_true]

/-! ### What a refusal leaves (R473) -/

theorem Within.noteRef {R : Nat → Prop} {P : List Part} {d e : Dev} (pn st a : Nat) (hs : ∀ b ∈ refAddrs, R b)
    (h : Within R P d e) : Within R P d (e.noteRef pn st a) := by
  have h3 : ∀ b ∈ satAddrs, R b := fun b hb => hs b (by simp only [refAddrs, List.mem_append]; exact Or.inr hb)
  unfold Dev.noteRef
  exact ((((h.evt (hs _ (by simp [refAddrs, MGT_EVT_REFUSED]))).bump (hs _ (by simp [refAddrs])) h3).setF _
    (hs _ (by simp [refAddrs]))).setF _ (hs _ (by simp [refAddrs, MGT_LASTREF_STATUS, MGT_LASTREF_PATH]))).setF _
    (hs _ (by simp [refAddrs]))

theorem Dev.getF_noteRef (d : Dev) (pn st a : Nat) {f : Fld} (h : f.addr ∉ refAddrs) : (d.noteRef pn st a).getF f = d.getF f :=
  Dev.getF_of_rd ((Within.noteRef (R := (· ∈ refAddrs)) (P := []) pn st a (fun _ hb => hb) (Within.refl d)).1 _ h)

theorem Dev.bit_noteRef (d : Dev) (pn st a : Nat) {f : Fld} (h : f.addr ∉ refAddrs) : (d.noteRef pn st a).bit f = d.bit f := by
  unfold Dev.bit; rw [Dev.getF_noteRef _ _ _ _ h]

theorem Dev.noteRef_evt (d : Dev) (pn st a : Nat) : (d.noteRef pn st a).bit MGT_EVT_REFUSED = true := by
  unfold Dev.noteRef Dev.bit
  rw [Dev.getF_setF_off _ _ (by decide) (by decide), Dev.getF_setF_off _ _ (by decide) (by decide),
    Dev.getF_setF_off _ _ (by decide) (by decide), Dev.getF_bump_off _ (by decide) (by decide) (by decide),
    Dev.getF_evt_same _ (by decide) (by decide)]
  rfl

theorem Dev.noteRef_count (d : Dev) (pn st a : Nat) : (d.noteRef pn st a).getF MGT_REFUSED = d.counted MGT_REFUSED 1 := by
  unfold Dev.noteRef
  rw [Dev.getF_setF_off _ _ (by decide) (by decide), Dev.getF_setF_off _ _ (by decide) (by decide),
    Dev.getF_setF_off _ _ (by decide) (by decide), Dev.getF_bump_same _ (by decide) (by decide)]
  unfold Dev.counted
  rw [Dev.getF_evt_off _ (by decide) (by decide)]

theorem Dev.noteRef_path (d : Dev) (pn st a : Nat) : (d.noteRef pn st a).getF MGT_LASTREF_PATH = pn % 16 := by
  unfold Dev.noteRef
  rw [Dev.getF_setF_off _ _ (by decide) (by decide), Dev.getF_setF_off _ _ (by decide) (by decide),
    Dev.getF_setF_same _ _ (by decide)]
  rfl

theorem Dev.noteRef_status (d : Dev) (pn st a : Nat) : (d.noteRef pn st a).getF MGT_LASTREF_STATUS = st % 16 := by
  unfold Dev.noteRef
  rw [Dev.getF_setF_off _ _ (by decide) (by decide), Dev.getF_setF_same _ _ (by decide)]
  simp [MGT_LASTREF_STATUS]

theorem Dev.noteRef_addr (d : Dev) (pn st a : Nat) : (d.noteRef pn st a).getF MGT_LASTREF_ADDR = a % 2 ^ 24 := by
  unfold Dev.noteRef
  rw [Dev.getF_setF_same _ _ (by decide)]
  rfl

/-! ### Answers -/

theorem Outside.dev (s : State) (d : Dev) : Outside s { s with dev := d } := ⟨rfl, rfl, rfl, rfl, rfl⟩

theorem Frame.of {s : State} {d : Dev} {l b : List Nat} {P : List Part} (h : Within (Regs l b) P s.dev d) :
    Frame s { s with dev := d } l b P := ⟨h, Outside.dev s d⟩

theorem Turned.of {s t : State} {d : Dev} {p : Path} {a st : Nat}
    (ht : t.dev = (d.noteRef (pathNo p) st a).emit .reply (pathNo p) [st, a]) (h : d.getF MGT_REFUSED = s.dev.getF MGT_REFUSED) :
    Turned s t p a st := by
  unfold Turned Replied Noted
  rw [ht]
  refine ⟨rfl, ?_, ?_, ?_, ?_, ?_⟩
  · rw [Dev.bit_emit, Dev.noteRef_evt]
  · rw [Dev.getF_emit, Dev.noteRef_count]; unfold Dev.counted; rw [h]
  · rw [Dev.getF_emit, Dev.noteRef_path]
  · rw [Dev.getF_emit, Dev.noteRef_status]
  · rw [Dev.getF_emit, Dev.noteRef_addr]

/-- A granted write of a register that is not carried, taken by its block. -/
theorem State.writeRow_plain {d : Dev} (h : s.granted p a v = true) (he : eff s.dev = (true, d)) (hc : carriedAddr a = false) :
    s.writeRow p a v ref eff = { s with dev := d.emit .reply (pathNo p) [stDone, a] } := by
  rw [State.writeRow_taken h (by rw [he]), Dev.carry_plain _ _ _ hc, he]

/-- A granted write of a carried register, taken by its block now. -/
theorem State.writeRow_carried {d : Dev} (h : s.granted p a v = true) (he : eff s.dev = (true, d)) :
    ∃ o, s.writeRow p a v ref eff =
      { s with dev := ({ d with mor := { d.mor with out := o } }).emit .reply (pathNo p) [stDone, a] } := by
  rw [State.writeRow_taken h (by rw [he]), he]
  obtain ⟨o, ho⟩ := s.dev.carry_now d v (State.granted_defers h)
  exact ⟨o, by rw [ho]⟩

/-- A granted write that its block turns away. -/
theorem State.writeRow_denied {d : Dev} (h : s.granted p a v = true) (he : eff s.dev = (false, d)) :
    s.writeRow p a v ref eff = { s with dev := (d.noteRef (pathNo p) stR10 a).emit .reply (pathNo p) [stR10, a] } := by
  rw [State.writeRow_turned h (by rw [he]), he]

/-- The answer and the frame of a write turned away. -/
theorem State.denied {d : Dev} {l : List Nat} {P : List Part} (h : s.granted p a v = true) (he : eff s.dev = (false, d))
    (hw : Within (Regs (l ++ refAddrs) []) (.sent :: P) s.dev d) (hr : d.getF MGT_REFUSED = s.dev.getF MGT_REFUSED) :
    Turned s (s.writeRow p a v ref eff) p a stR10 ∧ Frame s (s.writeRow p a v ref eff) (l ++ refAddrs) [] (.sent :: P) := by
  rw [State.writeRow_denied h he]
  exact ⟨Turned.of rfl hr, Frame.of ((hw.noteRef _ _ _ (fun b hb => Or.inl (List.mem_append_right l hb))).emit _ _ _ (by simp))⟩

end Sys2Proof.Machine
end

