-- ==== Sys2Proof/Laws/Memory.lean ====
section
/-! SUPPORT. The addressed memories: every operation on the key flash, the state memory and the register files keeps the canonical
form, a read of a byte after a write of it gives what was written, and a write leaves every other byte alone. -/

namespace Sys2Proof.Machine

/-! ### The key flash -/

theorem Memory.wf_keyPut {k : List Host.Cell} (a : Nat) (bs : List Nat) (h : Memory.wf k = true) : Memory.wf (keyPut k a bs) = true := by
  induction bs generalizing k a with
  | nil => exact h
  | cons b t ih => exact ih (a + 1) (spWf_spSet _ a _ h)

theorem keyPut_outside (k : List Host.Cell) (a : Nat) (bs : List Nat) (j : Nat) (h : j < a ∨ a + bs.length ≤ j) :
    spGet erased (keyPut k a bs) j = spGet erased k j := by
  induction bs generalizing k a with
  | nil => rfl
  | cons b t ih =>
    have hl : (b :: t).length = t.length + 1 := rfl
    unfold keyPut
    rw [ih _ _ (by omega), spGet_spSet_ne _ _ _ _ (by omega)]

theorem keyPut_inside (k : List Host.Cell) (a : Nat) (bs : List Nat) (i b : Nat) (h : bs[i]? = some b) :
    spGet erased (keyPut k a bs) (a + i) = BitVec.ofNat 8 b := by
  induction bs generalizing k a i with
  | nil => simp at h
  | cons x t ih =>
    unfold keyPut
    cases i with
    | zero =>
      have e : x = b := by simpa using h
      rw [e, keyPut_outside _ _ _ _ (by omega)]
      exact spGet_spSet_same ..
    | succ i =>
      have e := ih (spSet erased k a (BitVec.ofNat 8 x)) (a + 1) i (by simpa using h)
      rw [← e, Nat.add_assoc, Nat.add_comm 1 i]

theorem State.reset_memory_wf : Memory.wf State.reset.key = true ∧ State.reset.dev.smem = [] := ⟨rfl, rfl⟩

/-! ### State memory -/

theorem Dev.wf_setMw (d : Dev) (w : Nat) (v : Word) (h : spWf (fun _ => 0) d.smem = true) :
    spWf (fun _ => 0) (d.setMw w v).smem = true := spWf_spSet (fun _ => 0) w v h

theorem Dev.mw_setMw_same (d : Dev) (w : Nat) (v : Word) : (d.setMw w v).mw w = v := spGet_spSet_same ..

theorem Dev.mw_setMw_ne (d : Dev) {w x : Nat} (v : Word) (h : x ≠ w) : (d.setMw w v).mw x = d.mw x := spGet_spSet_ne _ _ _ _ h

/-! ### Register files -/

theorem Dev.wf_wr (d : Dev) (a : Nat) (v : Word) (h : spWf regReset d.regs = true) : spWf regReset (d.wr a v).regs = true :=
  spWf_spSet regReset a v h

theorem Island.wf_wr (i : Island) (a : Nat) (v : Word) (h : spWf regReset i.regs = true) : spWf regReset (i.wr a v).regs = true :=
  spWf_spSet regReset a v h

/-- A filter, by which the resets drop entries, keeps the form. -/
theorem spWfFrom_filter {α : Type} [DecidableEq α] (d : Nat → α) (f : Nat × α → Bool) {lo : Nat} {m : Sp α}
    (h : spWfFrom d lo m = true) : spWfFrom d lo (m.filter f) = true := by
  induction m generalizing lo with
  | nil => rfl
  | cons x t ih =>
    obtain ⟨a, v⟩ := x
    simp only [spWfFrom, Bool.and_eq_true, decide_eq_true_eq] at h
    simp only [List.filter]
    split
    · simp only [spWfFrom, Bool.and_eq_true, decide_eq_true_eq]
      exact ⟨h.1, ih h.2⟩
    · exact spWfFrom_mono d (by omega) (ih h.2)

end Sys2Proof.Machine
end

