-- ==== Sys2Proof/Laws/Timebase.lean ====
section
/-! SUPPORT. The timebase's shared operations: what each may change, and the fields it sets. -/

namespace Sys2Proof.Machine

variable {R : Nat → Prop} {P : List Part} {d e : Dev}

theorem Within.mtrNoGlobal (hm : Part.mtr ∈ P) (h : Within R P d e) : Within R P d e.mtrNoGlobal :=
  h.forN 2 fun _ e _ => (Within.refl e).mtr hm

theorem Within.tbsEnter (st : Nat) (hr : R addr_TBS_STAT) (hm : Part.mtr ∈ P) (h : Within R P d e) :
    Within R P d (e.tbsEnter st) := by
  unfold Dev.tbsEnter
  simp only []
  split
  · exact (h.setF _ hr).setF _ hr
  · exact ((h.setF _ hr).setF _ hr).mtrNoGlobal hm

/-- Entering a state changes two fields of TBS_STAT and the open demand intervals. -/
theorem Dev.getF_mtrNoGlobal (d : Dev) (f : Fld) : d.mtrNoGlobal.getF f = d.getF f :=
  (Within.mtrNoGlobal (R := fun _ => False) (P := [.mtr]) (by decide) (Within.refl d)).getF id

theorem Dev.getF_tbsEnter (d : Dev) (st : Nat) (f : Fld) :
    (d.tbsEnter st).getF f = ((d.setF TBS_STAT_STATE st).setF TBS_STAT_SYNC_Q (syncQuality st d.tbs.hoOver)).getF f := by
  unfold Dev.tbsEnter
  simp only []
  split
  · rfl
  · exact Dev.getF_mtrNoGlobal _ f

theorem Dev.tbsEnter_state (d : Dev) {st : Nat} (h : st < 8) : (d.tbsEnter st).tbsState = st := by
  unfold Dev.tbsState
  rw [Dev.getF_tbsEnter, Dev.getF_setF_off _ _ (by decide) (by decide), Dev.getF_setF_same _ _ (by decide)]
  exact Nat.mod_eq_of_lt h

theorem Dev.tbsEnter_quality (d : Dev) (st : Nat) : (d.tbsEnter st).getF TBS_STAT_SYNC_Q = syncQuality st d.tbs.hoOver := by
  rw [Dev.getF_tbsEnter, Dev.getF_setF_same _ _ (by decide)]
  refine Nat.mod_eq_of_lt ?_
  show _ < 4
  unfold syncQuality
  repeat' split
  all_goals omega

/-- Another field is as it was. -/
theorem Dev.tbsEnter_off (d : Dev) (st : Nat) {f : Fld} (h1 : f.off TBS_STAT_STATE = true) (h2 : f.off TBS_STAT_SYNC_Q = true)
    (h3 : f.ok = true) : (d.tbsEnter st).getF f = d.getF f := by
  rw [Dev.getF_tbsEnter, Dev.getF_setF_off _ _ h2 h3, Dev.getF_setF_off _ _ h1 h3]

/-! ### The increment (R34, R35) -/

theorem Dev.transferIncr_tbs (d : Dev) (v : Nat) :
    (d.transferIncr v).tbs = { d.tbs with incrNew := some (incrLimit (d.getF TBS_INCR_LIM_PPM) v, 2) } := by
  unfold Dev.transferIncr
  simp only []
  split
  · rfl
  · simp only [Dev.setF_tbs, Dev.wrN_tbs, Dev.bump_tbs, Dev.evt_tbs]

theorem Dev.transferIncr_fr (d : Dev) (v : Nat) :
    (d.transferIncr v).rd addr_TBS_INCR_FR = BitVec.ofNat 32 (incrLimit (d.getF TBS_INCR_LIM_PPM) v) := by
  unfold Dev.transferIncr
  simp only []
  show Dev.rd (Dev.setF _ _ _) _ = _
  rw [Dev.rd_setF_ne _ _ (by decide), Dev.rd_wrN_same]
  apply BitVec.eq_of_toNat_eq
  rw [BitVec.toNat_ofNat, BitVec.toNat_ofNat, Nat.mod_mod]

theorem Dev.transferIncr_ns (d : Dev) (v : Nat) :
    (d.transferIncr v).getF TBS_INCR_NS_NS = incrLimit (d.getF TBS_INCR_LIM_PPM) v / 2 ^ 32 % 16 := by
  unfold Dev.transferIncr
  simp only []
  show Dev.getF (Dev.setF _ _ _) _ = _
  rw [Dev.getF_setF_same _ _ (by decide)]
  rfl

theorem Dev.transferIncr_clamp (d : Dev) {v : Nat} (h : incrLimit (d.getF TBS_INCR_LIM_PPM) v ≠ v) :
    (d.transferIncr v).bit TBS_EVT_INCR_CLAMP = true ∧ (d.transferIncr v).getF TBS_CLAMPS = d.counted TBS_CLAMPS 1 := by
  unfold Dev.transferIncr
  simp only [h, if_false]
  constructor
  · show Dev.bit (Dev.setF _ _ _) _ = _
    unfold Dev.bit
    rw [Dev.getF_setF_off _ _ (by decide) (by decide), Dev.getF_wrN_ne _ _ (by decide),
      Dev.getF_bump_off _ (by decide) (by decide) (by decide), Dev.getF_evt_same _ (by decide) (by decide)]
    rfl
  · show Dev.getF (Dev.setF _ _ _) _ = _
    rw [Dev.getF_setF_off _ _ (by decide) (by decide), Dev.getF_wrN_ne _ _ (by decide),
      Dev.getF_bump_same _ (by decide) (by decide)]
    unfold Dev.counted
    rw [Dev.getF_evt_off _ (by decide) (by decide)]

theorem Within.transferIncr (v : Nat) (h1 : R addr_TBS_INCR_FR) (h2 : R addr_TBS_INCR_NS) (ht : Part.tbs ∈ P)
    (h3 : incrLimit (e.getF TBS_INCR_LIM_PPM) v ≠ v → R addr_TBS_EVT ∧ R addr_TBS_CLAMPS ∧ ∀ a ∈ satAddrs, R a)
    (h : Within R P d e) : Within R P d (e.transferIncr v) := by
  unfold Dev.transferIncr
  simp only []
  refine Within.tbs ht (Within.setF _ h2 (Within.wrN _ h1 ?_))
  split
  · exact h
  · next c => exact (h.evt (h3 c).1).bump (h3 c).2.1 (h3 c).2.2

/-! ### The control period stops (R38) -/

theorem Within.lbLow (j : Nat) {f : Fld} (pin : Nat) (hr : R f.addr) (hs : Part.sent ∈ P) (h : Within R P d e) :
    Within R P d (e.lbLow j f pin) := by
  unfold Dev.lbLow
  split
  · exact (h.setF _ hr).emit _ _ _ hs
  · exact h

theorem Within.lbStop (j : Nat) (hr : R (CBK_LB_STAT_PIN_A j).addr) (hl : Part.lb ∈ P) (hs : Part.sent ∈ P)
    (h : Within R P d e) : Within R P d (e.lbStop j) := by
  unfold Dev.lbStop
  refine Within.setF _ ?_ (Within.lbLow _ _ ?_ hs (Within.lbLow _ _ ?_ hs (Within.setLb _ _ hl h))) <;> exact hr

theorem Within.stopShown (hr : ∀ a ∈ stopAddrs, R a) (h3 : Part.lb ∈ P) (h4 : Part.sent ∈ P) (h : Within R P d e) :
    Within R P d e.stopShown := by
  have ha : ∀ j, j < 16 → R (CBK_LB_STAT_PIN_A j).addr := fun j hj => hr _ (by
    simp only [stopAddrs, List.mem_append, List.mem_map, List.mem_range]; exact Or.inl (Or.inr ⟨j, hj, rfl⟩))
  have hg : ∀ n, n < 32 → R (GWY_CH_STAT_EN n).addr := fun n hn => hr _ (by
    simp only [stopAddrs, List.mem_append, List.mem_map, List.mem_range]; exact Or.inr ⟨n, hn, rfl⟩)
  have p1 := hr (TBS_PERNOW_PER).addr (by decide)
  have p2 := hr (TBS_PERNEXT_PER).addr (by decide)
  have p3 := hr (HLM_STAT_RUNNING).addr (by decide)
  unfold Dev.stopShown
  refine Within.forN 32 (fun n e hn => Within.setF 0 (hg n hn) (Within.refl e)) (Within.setF 0 p3 (Within.forN 16 ?_ ?_))
  · exact fun j e hj => (Within.refl e).lbStop j (ha j hj) h3 h4
  · exact ((h.setF 0 p1).setF 0 p2).setF 0 p2

theorem Dev.stopPeriod_only (d : Dev) : ∃ c, d.stopPeriod = { d.stopShown with per := {}, cbk := c } := ⟨_, rfl⟩

theorem Within.stopPeriod (hr : ∀ a ∈ stopAddrs, R a) (h1 : Part.per ∈ P) (h2 : Part.cbk ∈ P) (h3 : Part.lb ∈ P)
    (h4 : Part.sent ∈ P) (h : Within R P d e) : Within R P d e.stopPeriod := by
  have key : ∀ (x : Dev) (c : CbkSt), Within R P d x → Within R P d { x with per := {}, cbk := c } :=
    fun x c hx => hx.parts rfl fun y hy => by cases y <;> first | exact absurd h1 hy | exact absurd h2 hy | rfl
  obtain ⟨c, hc⟩ := e.stopPeriod_only
  rw [hc]
  exact key _ _ (h.stopShown hr h3 h4)

/-- The pins of the local outputs are low. -/
theorem Dev.lbLow_bit (d : Dev) (j : Nat) (f : Fld) (pin : Nat) (h : f.ok = true) (hw : f.width = 1) : (d.lbLow j f pin).getF f = 0 := by
  unfold Dev.lbLow
  split
  · rw [Dev.getF_emit, Dev.getF_setF_same _ _ h]; exact Nat.zero_mod _
  · next c =>
    simp only [Dev.bit, decide_eq_true_eq] at c
    have := d.getF_lt f
    rw [hw] at this
    omega

theorem Dev.getF_lbLow_off (d : Dev) (j : Nat) {f g : Fld} (pin : Nat) (h : g.off f = true) (ho : g.ok = true) :
    (d.lbLow j f pin).getF g = d.getF g := by
  unfold Dev.lbLow
  split
  · rw [Dev.getF_emit, Dev.getF_setF_off _ _ h ho]
  · rfl

/-- Registers that the local outputs do not share. -/
theorem Dev.getF_lbStop_off (d : Dev) (j : Nat) {g : Fld} (ha : g.addr ≠ (CBK_LB_STAT_PIN_A j).addr) :
    (d.lbStop j).getF g = d.getF g :=
  (Within.lbStop (R := (· = (CBK_LB_STAT_PIN_A j).addr)) (P := [.lb, .sent]) j rfl (by decide) (by decide) (Within.refl d)).getF ha

theorem Dev.lbStop_low (d : Dev) (j : Nat) :
    (d.lbStop j).getF (CBK_LB_STAT_PIN_A j) = 0 ∧ (d.lbStop j).getF (CBK_LB_STAT_PIN_B j) = 0 := by
  have oa : (CBK_LB_STAT_PIN_A j).ok = true := rfl
  have ob : (CBK_LB_STAT_PIN_B j).ok = true := rfl
  have o1 : (CBK_LB_STAT_PIN_A j).off (CBK_LB_STAT_INTLK_ACT j) = true := by unfold Fld.off; rw [Bool.or_eq_true]; exact Or.inr rfl
  have o2 : (CBK_LB_STAT_PIN_B j).off (CBK_LB_STAT_INTLK_ACT j) = true := by unfold Fld.off; rw [Bool.or_eq_true]; exact Or.inr rfl
  have o3 : (CBK_LB_STAT_PIN_A j).off (CBK_LB_STAT_PIN_B j) = true := by unfold Fld.off; rw [Bool.or_eq_true]; exact Or.inr rfl
  unfold Dev.lbStop
  constructor
  · rw [Dev.getF_setF_off _ _ o1 oa, Dev.getF_lbLow_off _ _ _ o3 oa, Dev.lbLow_bit _ _ _ _ oa rfl]
  · rw [Dev.getF_setF_off _ _ o2 ob, Dev.lbLow_bit _ _ _ _ ob rfl]

theorem Dev.gwyStop_off (d : Dev) {f : Fld} (hf : ∀ n, n < 32 → f.addr ≠ (GWY_CH_STAT_EN n).addr) :
    (Machine.forN 32 (fun n d => d.setF (GWY_CH_STAT_EN n) 0) d).getF f = d.getF f :=
  getF_forN 32 (fun i x hi => x.getF_setF_addr 0 (hf i hi)) d

theorem Dev.lbStops_off (d : Dev) {f : Fld} (hf : ∀ n, n < 16 → f.addr ≠ (CBK_LB_STAT_PIN_A n).addr) :
    (Machine.forN 16 (fun j d => d.lbStop j) d).getF f = d.getF f :=
  getF_forN 16 (fun i x hi => x.getF_lbStop_off i (hf i hi)) d

theorem Dev.lbStops_low (d : Dev) {j : Nat} (hj : j < 16) :
    (Machine.forN 16 (fun j d => d.lbStop j) d).getF (CBK_LB_STAT_PIN_A j) = 0 ∧
      (Machine.forN 16 (fun j d => d.lbStop j) d).getF (CBK_LB_STAT_PIN_B j) = 0 := by
  refine forN_reaches (f := fun j (d : Dev) => d.lbStop j) (Q := fun y : Dev => y.getF (CBK_LB_STAT_PIN_A j) = 0 ∧ y.getF (CBK_LB_STAT_PIN_B j) = 0) hj
    (fun y => y.lbStop_low j) (fun i y h1 _ hy => ?_) d
  have hn : (CBK_LB_STAT_PIN_A j).addr ≠ (CBK_LB_STAT_PIN_A i).addr := by
    show 0x146008 + 0x10 * j ≠ 0x146008 + 0x10 * i
    omega
  exact ⟨(y.getF_lbStop_off i hn).trans hy.1, (y.getF_lbStop_off (g := CBK_LB_STAT_PIN_B j) i hn).trans hy.2⟩

theorem Dev.gwyStop_rest (d : Dev) {n : Nat} (hn : n < 32) :
    (Machine.forN 32 (fun n d => d.setF (GWY_CH_STAT_EN n) 0) d).getF (GWY_CH_STAT_EN n) = 0 := by
  refine forN_reaches (f := fun n (d : Dev) => d.setF (GWY_CH_STAT_EN n) 0) (Q := fun y : Dev => y.getF (GWY_CH_STAT_EN n) = 0) hn (fun y => ?_) (fun i y h1 _ hy => ?_) d
  · rw [Dev.getF_setF_same _ _ rfl]
    exact Nat.zero_mod _
  · rw [Dev.getF_setF_addr]
    · exact hy
    · show addr_GWY_CH_STAT n ≠ addr_GWY_CH_STAT i
      unfold addr_GWY_CH_STAT
      omega

/-- After the period has stopped: nothing shown or pending. -/
theorem Dev.stopShown_per (d : Dev) : d.stopShown.getF TBS_PERNOW_PER = 0 ∧ d.stopShown.getF TBS_PERNEXT_PEND = 0 := by
  unfold Dev.stopShown
  constructor
  · rw [Dev.gwyStop_off _ (by decide), Dev.getF_setF_addr _ _ (by decide), Dev.lbStops_off _ (by decide),
      Dev.getF_setF_addr _ _ (by decide), Dev.getF_setF_addr _ _ (by decide), Dev.getF_setF_same _ _ (by decide)]
    exact Nat.zero_mod _
  · rw [Dev.gwyStop_off _ (by decide), Dev.getF_setF_addr _ _ (by decide), Dev.lbStops_off _ (by decide),
      Dev.getF_setF_same _ _ (by decide)]
    exact Nat.zero_mod _

/-- The pins are low. -/
theorem Dev.stopShown_pins (d : Dev) {j : Nat} (hj : j < 16) :
    d.stopShown.getF (CBK_LB_STAT_PIN_A j) = 0 ∧ d.stopShown.getF (CBK_LB_STAT_PIN_B j) = 0 := by
  have h1 : ∀ n, n < 32 → 0x146008 + 0x10 * j ≠ (GWY_CH_STAT_EN n).addr := by
    intro n _
    show _ ≠ addr_GWY_CH_STAT n
    unfold addr_GWY_CH_STAT
    omega
  have h2 : 0x146008 + 0x10 * j ≠ 0x180008 := by omega
  unfold Dev.stopShown
  constructor
  · rw [Dev.gwyStop_off _ h1, Dev.getF_setF_addr _ _ h2]
    exact (Dev.lbStops_low _ hj).1
  · rw [Dev.gwyStop_off _ h1, Dev.getF_setF_addr _ _ h2]
    exact (Dev.lbStops_low _ hj).2

theorem Dev.stopShown_gwy (d : Dev) {n : Nat} (hn : n < 32) : d.stopShown.getF (GWY_CH_STAT_EN n) = 0 := by
  unfold Dev.stopShown
  exact Dev.gwyStop_rest _ hn

/-! ### RESTEP -/

theorem Dev.tbsFresh_tbs (d : Dev) : d.tbsFresh.tbs =
    { d.tbs with meas := [], overs := 0, goods := 0, hoOver := false, incr := incrNominal, incrNew := none } := rfl

theorem Within.tbsFresh (h1 : R addr_TBS_INCR_FR) (h2 : R addr_TBS_INCR_NS) (ht : Part.tbs ∈ P) (h : Within R P d e) :
    Within R P d e.tbsFresh := Within.setF _ h2 (Within.wrN _ h1 (Within.tbs ht h))

theorem Dev.getF_tbsFresh (d : Dev) {f : Fld} (h1 : f.addr ≠ addr_TBS_INCR_FR) (h2 : f.addr ≠ addr_TBS_INCR_NS) :
    d.tbsFresh.getF f = d.getF f :=
  (Within.tbsFresh (R := fun a => a = addr_TBS_INCR_FR ∨ a = addr_TBS_INCR_NS) (P := [.tbs]) (Or.inl rfl) (Or.inr rfl) (by decide)
    (Within.refl d)).getF (fun c => c.elim h1 h2)

theorem Within.restart (h1 : R addr_TBS_INCR_FR) (h2 : R addr_TBS_INCR_NS) (h3 : R addr_TBS_STAT) (hr : ∀ a ∈ stopAddrs, R a)
    (k1 : Part.per ∈ P) (k2 : Part.cbk ∈ P) (k3 : Part.lb ∈ P) (k4 : Part.sent ∈ P) (k5 : Part.tbs ∈ P) (k6 : Part.mtr ∈ P)
    (h : Within R P d e) : Within R P d e.restart :=
  Within.tbsEnter _ h3 k6 (Within.setF _ h3 (Within.setF _ h3 (Within.tbsFresh h1 h2 k5 (Within.stopPeriod hr k1 k2 k3 k4 h))))

theorem Dev.tbsEnter_tbs (d : Dev) (st : Nat) : (d.tbsEnter st).tbs = d.tbs :=
  (Within.tbsEnter (R := (· = addr_TBS_STAT)) (P := [.mtr]) st rfl (by decide) (Within.refl d)).2 .tbs (by decide)

theorem Dev.tbsEnter_per (d : Dev) (st : Nat) : (d.tbsEnter st).per = d.per :=
  (Within.tbsEnter (R := (· = addr_TBS_STAT)) (P := [.mtr]) st rfl (by decide) (Within.refl d)).2 .per (by decide)

theorem Dev.restart_tbs (d : Dev) : d.restart.tbs =
    { d.tbs with meas := [], overs := 0, goods := 0, hoOver := false, incr := incrNominal, incrNew := none } := by
  have h := (Within.stopPeriod (R := (· ∈ stopAddrs)) (P := [.per, .cbk, .lb, .sent]) (fun _ h => h) (by decide) (by decide) (by decide)
    (by decide) (Within.refl d)).2 .tbs (by decide)
  unfold Dev.restart
  rw [Dev.tbsEnter_tbs, Dev.setF_tbs, Dev.setF_tbs, Dev.tbsFresh_tbs, show d.stopPeriod.tbs = d.tbs from h]

theorem Dev.restart_per (d : Dev) : d.restart.per = {} := by
  have h : ∀ x : Dev, x.tbsFresh.per = x.per := fun _ => rfl
  obtain ⟨c, hc⟩ := d.stopPeriod_only
  unfold Dev.restart
  rw [Dev.tbsEnter_per, Dev.setF_per, Dev.setF_per, h, hc]

theorem Dev.restart_state (d : Dev) :
    d.restart.tbsState = tbsAcquire ∧ d.restart.getF TBS_STAT_SYNC_Q = 0 ∧ d.restart.getF TBS_STAT_STEPPED = 0 := by
  unfold Dev.restart
  refine ⟨Dev.tbsEnter_state _ (by decide), Dev.tbsEnter_quality _ _, ?_⟩
  rw [Dev.tbsEnter_off _ _ (by decide) (by decide) (by decide), Dev.getF_setF_off _ _ (by decide) (by decide),
    Dev.getF_setF_same _ _ (by decide)]
  exact Nat.zero_mod _

/-- Fields outside the timebase are as the stopped period leaves them. -/
theorem Dev.restart_off (d : Dev) {f : Fld} (h1 : f.addr ≠ addr_TBS_INCR_FR) (h2 : f.addr ≠ addr_TBS_INCR_NS)
    (h3 : f.addr ≠ addr_TBS_STAT) : d.restart.getF f = d.stopShown.getF f := by
  have e1 : ∀ (x : Dev) (c : CbkSt), ({ x with per := {}, cbk := c } : Dev).getF f = x.getF f := fun _ _ => rfl
  obtain ⟨c, hc⟩ := d.stopPeriod_only
  unfold Dev.restart
  rw [(Within.tbsEnter (R := (· = addr_TBS_STAT)) (P := [.mtr]) tbsAcquire rfl (by decide) (Within.refl _)).getF h3,
    Dev.getF_setF_addr _ _ h3, Dev.getF_setF_addr _ _ h3, Dev.getF_tbsFresh _ h1 h2, hc, e1]

/-! ### Refusals (R37, R50) -/

theorem Dev.stepRefused_fields (d : Dev) :
    d.stepRefused.bit TBS_EVT_STEP_REFUSED = true ∧ d.stepRefused.getF TBS_STEP_REFUSED = d.counted TBS_STEP_REFUSED 1 :=
  d.evt_bump (by decide)

theorem Within.stepRefused (h1 : R addr_TBS_EVT) (h2 : R addr_TBS_STEP_REFUSED) (h3 : ∀ a ∈ satAddrs, R a) (h : Within R P d e) :
    Within R P d e.stepRefused := (h.evt h1).bump h2 h3

/-! ### TBS_PER (R50) -/

theorem Dev.setPer_doubles (d : Dev) (n : Nat) : (d.setF TBS_PER_PER n).thmDoubles = d.thmDoubles := by
  unfold Dev.thmDoubles Dev.drives Dev.paired Dev.morState Dev.bit
  rw [Dev.getF_setF_addr _ _ (by decide), Dev.getF_setF_addr _ _ (by decide), Dev.getF_setF_addr _ _ (by decide)]

theorem Within.showNext (h1 : R (TBS_PERNEXT_PER).addr) (h : Within R P d e) : Within R P d e.showNext := by
  unfold Dev.showNext
  split
  · exact Within.setF _ h1 (Within.setF _ h1 h)
  · exact Within.setF _ h1 (Within.setF _ h1 h)
  · exact Within.setF _ h1 (Within.setF _ h1 h)

theorem Within.reqPeriod (len : Nat) (h1 : R (TBS_PERNEXT_PER).addr) (hp : Part.per ∈ P) (h : Within R P d e) :
    Within R P d (e.reqPeriod len) := by
  unfold Dev.reqPeriod
  simp only []
  split
  · exact Within.showNext h1 (Within.per hp h)
  · split
    · exact Within.setF _ h1 (Within.setF _ h1 (Within.per hp h))
    · exact Within.setF _ h1 (Within.setF _ h1 h)

theorem Dev.reqPeriod_pend (d : Dev) (len : Nat) : (d.reqPeriod len).bit TBS_PERNEXT_PEND = true := by
  have k : ∀ (x : Dev) (n : Nat), ((x.setF TBS_PERNEXT_PER n).setF TBS_PERNEXT_PEND 1).bit TBS_PERNEXT_PEND = true := by
    intro x n
    unfold Dev.bit
    rw [Dev.getF_setF_same _ _ (by decide)]
    rfl
  unfold Dev.reqPeriod
  simp only []
  split
  · unfold Dev.showNext
    cases d.per.nextA <;> exact k _ _
  · exact k _ _

theorem Dev.reqPeriod_per (d : Dev) (len : Nat) :
    (d.per.running = true → (d.reqPeriod len).per = { d.per with nextB := some len }) ∧
      (d.per.running = false → d.per.started = true → (d.reqPeriod len).per = { d.per with len := len }) := by
  have k : ∀ x : Dev, x.showNext.per = x.per := fun x =>
    (Within.showNext (R := fun _ => True) (P := []) trivial (Within.refl x)).2 .per (by decide)
  unfold Dev.reqPeriod
  constructor
  · intro h
    rw [if_pos h, k]
  · intro h hs
    rw [if_neg (by rw [h]; decide), if_pos hs]
    rfl

/-! ### The clocks (R33, R377) -/

theorem Dev.aocCycle_only (d : Dev) : ∃ b c, d.aocCycle = { d with brtc := b, tbs := { d.tbs with trimCnt := c } } := ⟨_, _, rfl⟩

theorem Dev.aocEdge_only (d : Dev) : ∃ b c, d.aocEdge = { d with brtc := b, tbs := { d.tbs with trimCnt := c } } := by
  unfold Dev.aocEdge
  split
  · exact ⟨d.brtc, d.tbs.trimCnt, rfl⟩
  · exact d.aocCycle_only

theorem Dev.aocPart_only (d : Dev) :
    ∃ b c h, d.aocPart = { d with brtc := b, tbs := { d.tbs with trimCnt := c, aocPhase := h } } := by
  have key : ∀ q, ∃ b c h, ({ d with tbs := { d.tbs with aocPhase := q } } : Dev).aocEdge =
      { d with brtc := b, tbs := { d.tbs with trimCnt := c, aocPhase := h } } := by
    intro q
    obtain ⟨b, c, h⟩ := Dev.aocEdge_only { d with tbs := { d.tbs with aocPhase := q } }
    exact ⟨b, c, _, h⟩
  unfold Dev.aocPart
  extract_lets p
  split
  · exact ⟨d.brtc, d.tbs.trimCnt, _, rfl⟩
  · exact key _

/-- A TBC cycle is the accumulator's, and an AOC cycle may end in it. -/
theorem Dev.clock_only (d : Dev) :
    ∃ b c h, d.clock = { d.tbcCycle with brtc := b, tbs := { d.tbcCycle.tbs with trimCnt := c, aocPhase := h } } :=
  d.tbcCycle.aocPart_only

/-- The increment of a cycle: the one in force, until a transferred one has waited out its cycles (R34). -/
theorem Dev.tbcCycle_held (d : Dev) (h : d.tbs.incrNew = none) :
    d.tbcCycle = { d with time := (d.time + d.tbs.incr) % 2 ^ 96 } := by
  unfold Dev.tbcCycle
  simp only [h]

theorem Dev.tbcCycle_wait (d : Dev) {w n : Nat} (h : d.tbs.incrNew = some (w, n)) (hn : 1 < n) :
    d.tbcCycle = { d with time := (d.time + d.tbs.incr) % 2 ^ 96, tbs := { d.tbs with incrNew := some (w, n - 1) } } := by
  unfold Dev.tbcCycle
  simp only [h]
  rw [if_neg (by omega)]

theorem Dev.tbcCycle_new (d : Dev) {w n : Nat} (h : d.tbs.incrNew = some (w, n)) (hn : n ≤ 1) :
    d.tbcCycle = { d with time := (d.time + w) % 2 ^ 96, tbs := { d.tbs with incr := w, incrNew := none } } := by
  unfold Dev.tbcCycle
  simp only [h]
  rw [if_pos hn]

/-- On an empty queue, with main power and PLL-T locked, a step is a TBC cycle. -/
theorem step_clock {s : State} (hp : s.pending = []) (hm : s.bak.main = true) (hl : s.dev.bit (CRG_PLL_LOCK 0) = true) :
    step s = .next { s with dev := s.dev.clock } := by
  unfold step State.tick
  rw [hp]
  simp only [hm, hl, Bool.and_self, if_true]

end Sys2Proof.Machine
end

