-- ==== Sys2Proof/Laws/Ptp.lean ====
section
/-! SUPPORT. The single step and the PTP state: what a step may change, and the fields it sets (R37, R40 to R42). -/

namespace Sys2Proof.Machine

variable {R : Nat → Prop} {P : List Part} {d e : Dev}

/-- A demand interval closes: registers of the metering block only (R316, R317). -/
theorem Within.demClose (m s : Nat) (step part : Bool) (hr : ∀ a, 0x410000 ≤ a → R a) (hm : Part.mtr ∈ P) (h : Within R P d e) :
    Within R P d (e.demClose m s step part) := by
  have k : ∀ a b : Nat, 0x410000 ≤ a → R (a + b) := fun a b h => hr _ (by omega)
  unfold Dev.demClose
  refine Within.mtr hm (Within.evt (hr _ (by decide)) (Within.setF _ (k _ _ (by decide)) (Within.wrN _ (k _ _ (by decide))
    (Within.wrN _ (k _ _ (by decide)) (Within.wrN _ (k _ _ (by decide)) (Within.wrN _ (k _ _ (by decide)) (Within.wrN _
    (k _ _ (by decide)) (Within.setF _ (k _ _ (by decide)) (Within.setB _ (k _ _ (by decide)) (Within.setB _ (k _ _ (by decide))
    (Within.setB _ (k _ _ (by decide)) (Within.setB _ (k _ _ (by decide)) (Within.setB _ (k _ _ (by decide)) (Within.setF _
    (k _ _ (by decide)) h))))))))))))))

theorem Within.mtrStep (delta : Int) (hr : ∀ a, 0x410000 ≤ a → R a) (hm : Part.mtr ∈ P) (h : Within R P d e) :
    Within R P d (e.mtrStep delta) := by
  unfold Dev.mtrStep
  refine h.forN 2 fun m x _ => ?_
  split
  · exact Within.refl x
  · exact Within.mtr hm (Within.demClose _ _ _ _ hr hm (Within.refl x))

theorem Within.svAlign (hs : Part.svx ∈ P) (h : Within R P d e) : Within R P d e.svAlign := by
  unfold Dev.svAlign
  exact h.forN 8 fun n x _ => Within.svx hs (Within.refl x)

/-! ### What a step notes (R42) -/

theorem Within.stepNoted (delta : Int) (vg n : Nat) (h1 : R addr_TBS_PHASE) (h2 : R addr_TBS_STAT) (h3 : R addr_TBS_EVT)
    (h4 : R (TBS_STEPS).addr) (h5 : ∀ a ∈ logAddrs, R a) (k1 : Part.log ∈ P) (k2 : Part.mram ∈ P) (h : Within R P d e) :
    Within R P d (e.stepNoted delta vg n) := by
  have h6 : ∀ a ∈ satAddrs, R a := fun a ha => h5 a (List.mem_append_right _ ha)
  exact Within.logEvt _ _ _ h5 k1 k2 (Within.bump h4 h6 (Within.evt h3 (Within.setF _ h2 (Within.setF _ h1 h))))

theorem Dev.stepNoted_fields (d : Dev) (delta : Int) (vg n : Nat) :
    (d.stepNoted delta vg n).getF TBS_PHASE_N = n % 64 ∧ (d.stepNoted delta vg n).bit TBS_STAT_STEPPED = true ∧
      (d.stepNoted delta vg n).bit TBS_EVT_STEP_DONE = true ∧
      (d.stepNoted delta vg n).getF TBS_STEPS = d.counted TBS_STEPS 1 := by
  have e1 := Dev.evt_bump ((d.setF TBS_PHASE_N n).setF TBS_STAT_STEPPED 1) (e := TBS_EVT_STEP_DONE) (c := TBS_STEPS) (by decide)
  unfold Dev.stepNoted Dev.bit
  refine ⟨?_, ?_, ?_, ?_⟩
  · rw [Dev.getF_logEvt _ _ _ _ (by decide), Dev.getF_bump_off _ (by decide) (by decide) (by decide),
      Dev.getF_evt_off _ (by decide) (by decide), Dev.getF_setF_off _ _ (by decide) (by decide), Dev.getF_setF_same _ _ (by decide)]
    rfl
  · rw [Dev.getF_logEvt _ _ _ _ (by decide), Dev.getF_bump_off _ (by decide) (by decide) (by decide),
      Dev.getF_evt_off _ (by decide) (by decide), Dev.getF_setF_same _ _ (by decide)]
    rfl
  · rw [Dev.getF_logEvt _ _ _ _ (by decide)]
    exact e1.1
  · rw [Dev.getF_logEvt _ _ _ _ (by decide), e1.2]
    unfold Dev.counted
    rw [Dev.getF_setF_off _ _ (by decide) (by decide), Dev.getF_setF_off _ _ (by decide) (by decide)]

/-- An accepted request of a record joins the write queue (R434). -/
theorem Dev.logAccept_queue (d : Dev) (blk code stat : Nat) (items : List Nat) (b : Bool) (h : d.log.queue.length < 64) :
    ∃ r, (d.logAccept blk code stat items b).log.queue = d.log.queue ++ [r] ∧ r.src = blk ∧ r.code = code ∧
      r.pay = (stat :: items).take 6 ++ List.replicate (6 - ((stat :: items).take 6).length) 0 := by
  unfold Dev.logAccept
  rw [if_neg (by omega)]
  exact ⟨_, rfl, rfl, rfl, rfl⟩

theorem Recorded.of {d e : Dev} {blk code stat : Nat} {items : List Nat} {b : Bool} (hl : e.log = d.log)
    (h : d.log.queue.length < 64) (hn : items.length ≤ 5) : Recorded d (e.logAccept blk code stat items b) blk code items := by
  obtain ⟨r, h1, h2, h3, h4⟩ := e.logAccept_queue blk code stat items b (by rw [hl]; exact h)
  refine ⟨r, by rw [h1, hl], h2, h3, ?_⟩
  have : (stat :: items).take 6 = stat :: items := List.take_of_length_le (by simp; omega)
  rw [h4, this]
  simp

/-! ### The step itself (R41) -/

/-- V rounded up to the next whole multiple of 1.25 ns. -/
theorem stepTarget_grid (v : Nat) : v ≤ (stepTarget v).1 ∧ (stepTarget v).1 < v + incrNominal ∧ (stepTarget v).2 ≤ 63 := by
  unfold stepTarget incrNominal
  refine ⟨?_, ?_, Nat.min_le_left _ _⟩ <;> simp only [] <;> omega

theorem Dev.stepBy_time (d : Dev) (delta : Int) :
    (d.stepBy delta).time = (stepTarget (ofSigned 96 ((d.time : Int) + delta))).1 % 2 ^ 96 := by
  have w : ∀ (x : Dev) (i : Int) (vg n : Nat),
      (((((x.tbsEnter tbsLocked).evt TBS_EVT_LOCKED).stepNoted delta vg n).bump (CRG_PLL_PHSTEPS 0)).brtcWrite.mtrStep i).svAlign.time
        = x.time := by
    intro x i vg n
    have hw : Within (fun _ => True) [.mtr, .log, .mram, .brtc, .svx] x
        (((((x.tbsEnter tbsLocked).evt TBS_EVT_LOCKED).stepNoted delta vg n).bump (CRG_PLL_PHSTEPS 0)).brtcWrite.mtrStep i).svAlign :=
      Within.svAlign (by decide) (Within.mtrStep _ (fun _ _ => trivial) (by decide) (Within.brtc (by decide) (Within.bump trivial
        (fun _ _ => trivial) (Within.stepNoted _ _ _ trivial trivial trivial trivial (fun _ _ => trivial) (by decide) (by decide)
          (Within.evt trivial (Within.tbsEnter _ trivial (by decide) (Within.refl x)))))))
    exact hw.2 .time (by decide)
  unfold Dev.stepBy
  exact w _ _ _ _

/-- What a step sets: device time, the state and quality, the flags, the backup counter. -/
theorem Dev.stepBy_fields (d : Dev) (delta : Int) :
    (d.stepBy delta).getF TBS_PHASE_N = (stepTarget (ofSigned 96 ((d.time : Int) + delta))).2 % 64 ∧
      (d.stepBy delta).getF TBS_STAT_STATE = tbsLocked ∧ (d.stepBy delta).getF TBS_STAT_SYNC_Q = 2 ∧
      (d.stepBy delta).bit TBS_STAT_STEPPED = true ∧ (d.stepBy delta).bit TBS_EVT_LOCKED = true ∧
      (d.stepBy delta).brtc = brtcOfTime ((stepTarget (ofSigned 96 ((d.time : Int) + delta))).1 % 2 ^ 96) := by
  have w : ∀ (x : Dev) (i : Int) (vg n : Nat), x.time = vg →
      let y := ((x.tbsEnter tbsLocked).evt TBS_EVT_LOCKED).stepNoted delta vg n
      let z := ((y.bump (CRG_PLL_PHSTEPS 0)).brtcWrite.mtrStep i).svAlign
      (∀ f : Fld, f.addr < 0x410000 → f.addr ≠ (CRG_PLL_PHSTEPS 0).addr → f.addr ∉ satAddrs → z.getF f = y.getF f) ∧
        z.brtc = brtcOfTime vg := by
    intro x i vg n hx y z
    have hz : ∀ u : Dev, Within (fun a => 0x410000 ≤ a) [.mtr, .svx] u (u.mtrStep i).svAlign := fun u =>
      Within.svAlign (by decide) (Within.mtrStep _ (fun _ h => h) (by decide) (Within.refl u))
    constructor
    · intro f h1 h2 h3
      show Dev.getF (Dev.svAlign (Dev.mtrStep (Dev.brtcWrite (y.bump (CRG_PLL_PHSTEPS 0))) i)) f = _
      rw [(hz _).getF (by omega)]
      exact Dev.getF_of_rd (Dev.rd_bump_ne y h2 h3)
    · have hb : ((y.bump (CRG_PLL_PHSTEPS 0)).brtcWrite).brtc = brtcOfTime (y.bump (CRG_PLL_PHSTEPS 0)).time := rfl
      have ht : Within (fun _ => True) [.mtr, .log, .mram] x (y.bump (CRG_PLL_PHSTEPS 0)) :=
        Within.bump trivial (fun _ _ => trivial) (Within.stepNoted _ _ _ trivial trivial trivial trivial (fun _ _ => trivial) (by decide)
          (by decide) (Within.evt trivial (Within.tbsEnter _ trivial (by decide) (Within.refl x))))
      have e1 : (y.bump (CRG_PLL_PHSTEPS 0)).time = vg := (show _ = x.time from ht.2 .time (by decide)).trans hx
      exact (show _ = ((y.bump (CRG_PLL_PHSTEPS 0)).brtcWrite).brtc from (hz _).2 .brtc (by decide)).trans (by rw [hb, e1])
  unfold Dev.stepBy
  extract_lets v g vg moved t0 d1 d2
  obtain ⟨k1, k2⟩ := w d1 moved vg g.2 rfl
  obtain ⟨n1, n2, n3, n4⟩ := ((d1.tbsEnter tbsLocked).evt TBS_EVT_LOCKED).stepNoted_fields delta vg g.2
  have off : ∀ f : Fld, f.addr ∉ [addr_TBS_PHASE, addr_TBS_EVT, (TBS_STEPS).addr] → f.off TBS_STAT_STEPPED = true → f.ok = true →
      f.addr ∉ logAddrs → f.addr ∉ satAddrs →
      (((d1.tbsEnter tbsLocked).evt TBS_EVT_LOCKED).stepNoted delta vg g.2).getF f = (d1.tbsEnter tbsLocked).getF f := by
    intro f h1 h2 h3 h4 h5
    simp only [List.mem_cons, List.not_mem_nil, or_false, not_or] at h1
    unfold Dev.stepNoted
    rw [Dev.getF_logEvt _ _ _ _ h4, Dev.getF_of_rd (Dev.rd_bump_ne _ h1.2.2 h5), Dev.getF_of_rd (Dev.rd_evt_ne _ h1.2.1),
      Dev.getF_setF_off _ _ h2 h3, Dev.getF_setF_addr _ _ h1.1, Dev.getF_of_rd (Dev.rd_evt_ne _ h1.2.1)]
  refine ⟨?_, ?_, ?_, ?_, ?_, k2⟩
  · rw [k1 _ (by decide) (by decide) (by decide), n1]
  · rw [k1 _ (by decide) (by decide) (by decide), off _ (by decide) (by decide) (by decide) (by decide) (by decide)]
    exact Dev.tbsEnter_state _ (by decide)
  · rw [k1 _ (by decide) (by decide) (by decide), off _ (by decide) (by decide) (by decide) (by decide) (by decide)]
    exact Dev.tbsEnter_quality _ _
  · unfold Dev.bit at n2 ⊢
    rw [k1 _ (by decide) (by decide) (by decide)]
    exact n2
  · unfold Dev.bit
    rw [k1 _ (by decide) (by decide) (by decide)]
    unfold Dev.stepNoted
    rw [Dev.getF_logEvt _ _ _ _ (by decide), Dev.getF_bump_off _ (by decide) (by decide) (by decide),
      Dev.getF_evt_off _ (by decide) (by decide), Dev.getF_setF_off _ _ (by decide) (by decide),
      Dev.getF_setF_off _ _ (by decide) (by decide), Dev.getF_evt_same _ (by decide) (by decide)]
    rfl

/-! ### Ports -/

theorem Dev.ptpOn_cases {d : Dev} {n : Nat} (h : d.ptpOn n = true) : d.portOn n = true ∧ (n = 1 ∨ n = 2) := by
  simp only [Dev.ptpOn, Bool.and_eq_true, Bool.or_eq_true, decide_eq_true_eq] at h
  exact ⟨h.1, h.2.elim (fun x => Or.inl x.1) (fun x => Or.inr x.1)⟩

/-- Whether a port can send depends on its configuration, its link and the IP settings. -/
theorem Within.portOn {n : Nat} (h : Within R P d e) (h1 : ¬ R (addr_NET_PCFG (n - 1))) (h2 : ¬ R addr_BOT_STAT)
    (h3 : ¬ R addr_NET_STAT2) (hm : Part.mgt ∉ P) : e.portOn n = d.portOn n := by
  unfold Dev.portOn Dev.portUsed Dev.linkUp
  rw [h.bit (f := NET_PCFG_EN (n - 1)) h1, h.bit (f := BOT_STAT_SLIPWAY) h2, h.getF (f := NET_STAT2_LINK) h3,
    show e.mgt = d.mgt from h.2 .mgt hm]

theorem Dev.netSend_on {d : Dev} {n : Nat} (k : OutKind) (ws : List Nat) (h : d.portOn n = true) :
    d.netSend k n ws = (d.bump (NET_TX (n - 1))).emit k n ws := by
  unfold Dev.netSend; rw [if_pos h]

/-- The part that holds a PTP port. -/
def portPart (n : Nat) : Part := if n = 1 then .ptp1 else .ptp2

theorem Within.setPtpPort (n : Nat) (x : PtpPort) (hx : portPart n ∈ P) (h : Within R P d e) : Within R P d (e.setPtpPort n x) := by
  unfold portPart at hx
  unfold Dev.setPtpPort
  split
  · next c => rw [if_pos c] at hx; exact h.ptp1 hx
  · next c => rw [if_neg c] at hx; exact h.ptp2 hx

@[simp] theorem Dev.ptpPort_setPtpPort (d : Dev) (n : Nat) (x : PtpPort) : (d.setPtpPort n x).ptpPort n = x := by
  unfold Dev.setPtpPort Dev.ptpPort
  split <;> rfl

theorem Within.ptpPort {n : Nat} (h : Within R P d e) (h1 : Part.ptp1 ∉ P) (h2 : Part.ptp2 ∉ P) : e.ptpPort n = d.ptpPort n := by
  unfold Dev.ptpPort
  rw [show e.ptp1 = d.ptp1 from h.2 .ptp1 h1, show e.ptp2 = d.ptp2 from h.2 .ptp2 h2]

theorem Within.netSend {n : Nat} (k : OutKind) (ws : List Nat) (h1 : R (addr_NET_TX (n - 1))) (h2 : ∀ a ∈ satAddrs, R a)
    (h3 : Part.sent ∈ P) (h : Within R P d e) : Within R P d (e.netSend k n ws) := by
  unfold Dev.netSend
  split
  · exact (h.bump h1 h2).emit _ _ _ h3
  · exact h

/-! ### Timestamp queues -/

/-- Three words of a time. -/
theorem Within.put3 (a t : Nat) (h0 : R a) (h1 : R (a + 4)) (h2 : R (a + 8)) (h : Within R P d e) :
    Within R P d (((e.wrN a (timeLo t)).wrN (a + 4) (timeHi t)).wrN (a + 8) (timeFr t)) :=
  ((h.wrN _ h0).wrN _ h1).wrN _ h2

theorem Within.showQueues (n : Nat) (hr : ∀ a ∈ queueAddrs (n - 1), R a) (h : Within R P d e) : Within R P d (e.showQueues n) := by
  have q : ∀ a, a ∈ queueAddrs (n - 1) → R a := hr
  unfold Dev.showQueues
  refine Within.put3 _ _ ?_ ?_ ?_ (Within.put3 _ _ ?_ ?_ ?_ (Within.put3 _ _ ?_ ?_ ?_ (Within.wrN _ ?_ (Within.wrN _ ?_ h)))) <;>
    refine q _ ?_ <;> simp [queueAddrs, addr_PTP_TSQ_ID, addr_PTP_RXQ_ID, addr_PTP_TSQ_NS, addr_PTP_RXQ_IN, addr_PTP_RXQ_CAR,
      List.range, List.range.loop]

/-! ### Selection (R37, R59) -/

/-- The registers that report the selection and the master. -/
def selAddrs : List Nat :=
  [addr_PTP_STAT, addr_PTP_EVT, (PTP_PORT_SWITCHES).addr, addr_PTP_GM_ID_LO, addr_PTP_GM_ID_HI, addr_PTP_GM_INFO, addr_PTP_UTC,
    addr_PTP_GM_TTI] ++ satAddrs

theorem Within.gmReport (a : PtpAnnounce) (hr : ∀ a ∈ selAddrs, R a) (h : Within R P d e) : Within R P d (e.gmReport a) := by
  have k : ∀ x : Dev, Within R P d x → Within R P d (if e.getF PTP_GM_ID_HI_ID * 2 ^ 32 + e.getF PTP_GM_ID_LO_ID ≠ 0 ∧
      e.getF PTP_GM_ID_HI_ID * 2 ^ 32 + e.getF PTP_GM_ID_LO_ID ≠ a.gmId then x.evt PTP_EVT_GM_CHANGE else x) := by
    intro x hx
    split
    · exact Within.evt (hr _ (by decide)) hx
    · exact hx
  unfold Dev.gmReport
  exact Within.setF _ (hr _ (by decide)) (Within.wrN _ (hr _ (by decide)) (Within.setB _ (hr _ (by decide)) (Within.wrN _ (hr _ (by decide))
    (Within.wrN _ (hr _ (by decide)) (Within.wrN _ (hr _ (by decide)) (Within.wrN _ (hr _ (by decide)) (k _ h)))))))

theorem Within.selSwitch (sel : Nat) (hr : ∀ a ∈ selAddrs, R a) (h : Within R P d e) : Within R P d (e.selSwitch sel) := by
  unfold Dev.selSwitch
  split
  · exact Within.bump (hr _ (by decide)) (fun a ha => hr a (List.mem_append_right _ ha)) (Within.evt (hr _ (by decide)) h)
  · exact h

theorem Within.selShow (sel : Nat) (hr : ∀ a ∈ selAddrs, R a) (h : Within R P d e) : Within R P d (e.selShow sel) := by
  have k := Within.setF (f := PTP_STAT_P2_STATE) (e.ptpCode 2 sel) (hr _ (by decide)) (Within.setF (f := PTP_STAT_P1_STATE) (e.ptpCode 1 sel)
    (hr _ (by decide)) (Within.setF (f := PTP_STAT_SEL_PORT) sel (hr _ (by decide)) (Within.selSwitch sel hr h)))
  unfold Dev.selShow
  simp only []
  split
  · exact Within.gmReport _ hr k
  · exact Within.setF _ (hr _ (by decide)) k

/-- Fields of the report that a master's data does not touch. -/
theorem Dev.getF_gmReport (d : Dev) (a : PtpAnnounce) {f : Fld} (h0 : f.ok = true) (h1 : f.off PTP_STAT_C37_TLV = true)
    (h2 : f.off PTP_STAT_GM_VALID = true)
    (h3 : f.addr ∉ [addr_PTP_EVT, addr_PTP_GM_ID_LO, addr_PTP_GM_ID_HI, addr_PTP_GM_INFO, addr_PTP_UTC, addr_PTP_GM_TTI]) :
    (d.gmReport a).getF f = d.getF f := by
  simp only [List.mem_cons, List.not_mem_nil, or_false, not_or] at h3
  obtain ⟨k1, k2, k3, k4, k5, k6⟩ := h3
  have k : ∀ (p : Prop) [Decidable p] (x : Dev), (if p then x.evt PTP_EVT_GM_CHANGE else x).getF f = x.getF f := by
    intro p _ x
    split
    · exact Dev.getF_of_rd (Dev.rd_evt_ne x k1)
    · rfl
  unfold Dev.gmReport
  refine (Dev.getF_setF_off _ _ h2 h0).trans ((Dev.getF_wrN_ne _ _ k6).trans ((Dev.getF_setB_off _ _ h1 h0).trans
    ((Dev.getF_wrN_ne _ _ k5).trans ((Dev.getF_wrN_ne _ _ k4).trans ((Dev.getF_wrN_ne _ _ k3).trans ((Dev.getF_wrN_ne _ _ k2).trans
      (k _ _)))))))

theorem Dev.selShow_port (d : Dev) {sel : Nat} (h : sel < 4) : (d.selShow sel).getF PTP_STAT_SEL_PORT = sel := by
  have k : ((((d.selSwitch sel).setF PTP_STAT_SEL_PORT sel).setF PTP_STAT_P1_STATE (d.ptpCode 1 sel)).setF PTP_STAT_P2_STATE
      (d.ptpCode 2 sel)).getF PTP_STAT_SEL_PORT = sel := by
    rw [Dev.getF_setF_off _ _ (by decide) (by decide), Dev.getF_setF_off _ _ (by decide) (by decide), Dev.getF_setF_same _ _ (by decide)]
    exact Nat.mod_eq_of_lt h
  unfold Dev.selShow
  simp only []
  split
  · rw [Dev.getF_gmReport _ _ (by decide) (by decide) (by decide) (by decide), k]
  · rw [Dev.getF_setF_off _ _ (by decide) (by decide), k]

theorem Within.selFollow (sel : Nat) (h1 : R addr_TBS_STAT) (h2 : R addr_TBS_EVT) (k1 : Part.tbs ∈ P) (k2 : Part.mtr ∈ P)
    (h : Within R P d e) : Within R P d (e.selFollow sel) := by
  unfold Dev.selFollow
  split
  · exact Within.tbsEnter _ h1 k2 (Within.tbs k1 h)
  · split
    · exact Within.tbsEnter _ h1 k2 (Within.tbs k1 h)
    · split
      · exact Within.evt h2 (Within.tbsEnter _ h1 k2 (Within.tbs k1 h))
      · exact h

/-- What selection may change. -/
theorem Within.ptpSelect (hr : ∀ a ∈ selAddrs, R a) (h1 : R addr_TBS_STAT) (h2 : R addr_TBS_EVT) (k1 : Part.tbs ∈ P)
    (k2 : Part.mtr ∈ P) (h : Within R P d e) : Within R P d e.ptpSelect :=
  Within.selFollow _ h1 h2 k1 k2 (Within.selShow _ hr h)

theorem Dev.selNext_lt (d : Dev) : d.selNext < 4 := by
  unfold Dev.selNext selectPort
  split <;> (try split) <;> (try split) <;> omega

theorem Dev.ptpSelect_port (d : Dev) : d.ptpSelect.getF PTP_STAT_SEL_PORT = d.selNext := by
  unfold Dev.ptpSelect
  rw [(Within.selFollow (R := fun a => a = addr_TBS_STAT ∨ a = addr_TBS_EVT) (P := [.tbs, .mtr]) d.selNext (Or.inl rfl) (Or.inr rfl)
    (by decide) (by decide) (Within.refl (d.selShow d.selNext))).getF (by decide), Dev.selShow_port _ d.selNext_lt]

/-- The timebase state is as before until the selection is followed. -/
theorem Dev.selShow_state (d : Dev) (sel : Nat) {f : Fld} (hf : f.addr ∉ selAddrs) : (d.selShow sel).getF f = d.getF f :=
  (Within.selShow (R := (· ∈ selAddrs)) (P := []) sel (fun _ h => h) (Within.refl d)).getF hf

theorem Dev.ptpSelect_acquire (d : Dev) (h1 : d.selNext ≠ 0) (h2 : d.tbsState = tbsUnset) (h3 : d.bit TBS_CTRL_MODE = false) :
    d.ptpSelect.tbsState = tbsAcquire := by
  unfold Dev.ptpSelect Dev.selFollow
  rw [if_pos]
  · exact Dev.tbsEnter_state _ (by decide)
  · unfold Dev.tbsState Dev.bit at *
    rw [Dev.selShow_state _ _ (by decide), Dev.selShow_state _ _ (by decide)]
    exact ⟨h1, h2, h3⟩

theorem Dev.ptpSelect_none (d : Dev) (h1 : d.selNext = 0) :
    (d.tbsState = tbsLocked → d.ptpSelect.tbsState = tbsHoldover ∧ d.ptpSelect.bit TBS_EVT_HOLDOVER = true) ∧
      (d.tbsState = tbsAcquire → d.ptpSelect.tbsState = tbsUnset) := by
  have hs : (d.selShow 0).tbsState = d.tbsState := by
    unfold Dev.tbsState
    exact Dev.selShow_state _ _ (by decide)
  unfold Dev.ptpSelect Dev.selFollow
  rw [h1]
  constructor
  · intro h
    rw [if_neg (by simp), if_neg (by rw [hs, h]; decide), if_pos ⟨rfl, by rw [hs, h]⟩]
    constructor
    · unfold Dev.tbsState
      rw [Dev.getF_evt_off _ (by decide) (by decide)]
      exact Dev.tbsEnter_state _ (by decide)
    · unfold Dev.bit
      rw [Dev.getF_evt_same _ (by decide) (by decide)]
      rfl
  · intro h
    rw [if_neg (by simp), if_pos ⟨rfl, by rw [hs, h]⟩]
    exact Dev.tbsEnter_state _ (by decide)

/-- With no port selected no master is reported. -/
theorem Dev.ptpSelect_idle (d : Dev) (h : d.selNext = 0) :
    Within (fun a => a = addr_PTP_STAT ∨ a = addr_TBS_STAT ∨ a = addr_TBS_EVT) [.tbs, .mtr] d d.ptpSelect := by
  have k : Within (fun a => a = addr_PTP_STAT ∨ a = addr_TBS_STAT ∨ a = addr_TBS_EVT) [.tbs, .mtr] d (d.selShow 0) := by
    unfold Dev.selShow Dev.selSwitch
    rw [if_neg (by simp)]
    exact Within.setF _ (Or.inl rfl) (Within.setF _ (Or.inl rfl) (Within.setF _ (Or.inl rfl) (Within.setF _ (Or.inl rfl) (Within.refl d))))
  unfold Dev.ptpSelect
  rw [h]
  exact Within.selFollow _ (Or.inr (Or.inl rfl)) (Or.inr (Or.inr rfl)) (by decide) (by decide) k

/-! ### Over-limit measurements (R45, R46) -/

/-- The register file does not see the timebase's own part. -/
theorem Dev.getF_tbs (d : Dev) (y : TbsSt) (f : Fld) : ({ d with tbs := y } : Dev).getF f = d.getF f := (rfl)

theorem Within.overNoted (h1 : R addr_PTP_EVT) (h2 : R (PTP_OUTLIERS).addr) (h3 : ∀ a ∈ satAddrs, R a) (ht : Part.tbs ∈ P)
    (h : Within R P d e) : Within R P d e.overNoted := Within.bump h2 h3 (Within.evt h1 (Within.tbs ht h))

theorem Dev.overNoted_fields (d : Dev) :
    d.overNoted.bit PTP_EVT_OUTLIER = true ∧ d.overNoted.getF PTP_OUTLIERS = d.counted PTP_OUTLIERS 1 ∧
      d.overNoted.tbs = { d.tbs with overs := d.tbs.overs + 1, held := if d.tbs.overs = 0 then d.tbs.incr else d.tbs.held } := by
  unfold Dev.overNoted
  generalize ({ d.tbs with overs := d.tbs.overs + 1, held := if d.tbs.overs = 0 then d.tbs.incr else d.tbs.held } : TbsSt) = y
  obtain ⟨h1, h2⟩ := ({ d with tbs := y } : Dev).evt_bump (e := PTP_EVT_OUTLIER) (c := PTP_OUTLIERS) (by decide)
  refine ⟨h1, h2, ?_⟩
  simp only [Dev.bump_tbs, Dev.evt_tbs]

theorem Within.jumpRefused (h1 : R addr_TBS_STAT) (h2 : R addr_TBS_EVT) (h3 : R (TBS_JUMPS_REFUSED).addr) (hs : ∀ a ∈ logAddrs, R a)
    (k1 : Part.tbs ∈ P) (k2 : Part.mtr ∈ P) (k3 : Part.log ∈ P) (k4 : Part.mram ∈ P) (h : Within R P d e) :
    Within R P d e.jumpRefused := by
  have hb : Within R P d e.heldBack := h.parts rfl fun x hx => by cases x <;> first | exact absurd k1 hx | rfl
  unfold Dev.jumpRefused
  exact Within.logEvt _ _ _ hs k3 k4 (Within.bump h3 (fun a ha => hs a (List.mem_append_right _ ha)) (Within.setF _ h1 (Within.evt h2
    (Within.evt h2 (Within.tbsEnter _ h1 k2 hb)))))

theorem Dev.jumpRefused_fields (d : Dev) :
    d.jumpRefused.tbs.incr = d.tbs.held ∧ d.jumpRefused.tbs.incrNew = none ∧ d.jumpRefused.tbsState = tbsHoldover ∧
      d.jumpRefused.bit TBS_EVT_JUMP_REFUSED = true ∧ d.jumpRefused.bit TBS_STAT_REFUSED = true ∧
      d.jumpRefused.getF TBS_JUMPS_REFUSED = d.counted TBS_JUMPS_REFUSED 1 ∧
      (d.log.queue.length < 64 → Recorded d d.jumpRefused 4 0x1001 []) := by
  have hh : d.heldBack.tbs.incr = d.tbs.held ∧ d.heldBack.tbs.incrNew = none ∧ ∀ f, d.heldBack.getF f = d.getF f :=
    ⟨rfl, rfl, fun f => rfl⟩
  have hl : d.heldBack.log = d.log := rfl
  unfold Dev.jumpRefused
  generalize d.heldBack = x at hh hl ⊢
  obtain ⟨a1, a2, a3⟩ := hh
  generalize hy : (x.tbsEnter tbsHoldover).evt TBS_EVT_HOLDOVER = y
  have wy : Within (fun a => a = addr_TBS_STAT ∨ a = addr_TBS_EVT) [.mtr] x y := by
    rw [← hy]
    exact Within.evt (Or.inr rfl) (Within.tbsEnter _ (Or.inl rfl) (by decide) (Within.refl x))
  have ys : y.getF TBS_STAT_STATE = tbsHoldover := by
    rw [← hy, Dev.getF_evt_off _ (by decide) (by decide)]
    exact Dev.tbsEnter_state _ (by decide)
  have yt : y.tbs = x.tbs := wy.2 .tbs (by decide)
  have yl : y.log = d.log := (wy.2 .log (by decide)).trans hl
  refine ⟨?_, ?_, ?_, ?_, ?_, ?_, ?_⟩
  · simp only [Dev.logEvt_tbs, Dev.bump_tbs, Dev.setF_tbs, Dev.evt_tbs, yt, a1]
  · simp only [Dev.logEvt_tbs, Dev.bump_tbs, Dev.setF_tbs, Dev.evt_tbs, yt, a2]
  · unfold Dev.tbsState
    rw [Dev.getF_logEvt _ _ _ _ (by decide), Dev.getF_bump_off _ (by decide) (by decide) (by decide),
      Dev.getF_setF_off _ _ (by decide) (by decide), Dev.getF_evt_off _ (by decide) (by decide), ys]
  · unfold Dev.bit
    rw [Dev.getF_logEvt _ _ _ _ (by decide), Dev.getF_bump_off _ (by decide) (by decide) (by decide),
      Dev.getF_setF_off _ _ (by decide) (by decide), Dev.getF_evt_same _ (by decide) (by decide)]
    rfl
  · unfold Dev.bit
    rw [Dev.getF_logEvt _ _ _ _ (by decide), Dev.getF_bump_off _ (by decide) (by decide) (by decide),
      Dev.getF_setF_same _ _ (by decide)]
    rfl
  · rw [Dev.getF_logEvt _ _ _ _ (by decide), Dev.getF_bump_same _ (by decide) (by decide)]
    unfold Dev.counted
    rw [Dev.getF_setF_off _ _ (by decide) (by decide), Dev.getF_evt_off _ (by decide) (by decide), wy.getF (by decide), a3]
  · intro hq
    unfold Dev.logEvt
    exact Recorded.of (by simp only [Dev.bump_log, Dev.evt_log, Dev.setF_log, yl]) hq (by simp)

end Sys2Proof.Machine
end

