-- ==== Sys2Proof/Tests/Slice0.lean ====
section
/-! SUPPORT. The author's tests: well-formedness refuses an ill-formed term of each kind, one step of a few commands of every family
against values worked out by hand from the spec, and for every statement a state and operands that meet the hypotheses of each of its
clauses (`witness_…`; the clauses in the order of the statement). -/

namespace Sys2Proof.Tests
open Sys2Proof Sys2Proof.Machine

set_option maxRecDepth 10000

/-- A state with fields of the main-supply part, or of the island, set. -/
def st (s : State) (l : List (Fld × Nat)) : State := { s with dev := l.foldl (fun d x => d.setF x.1 x.2) s.dev }
def stI (s : State) (l : List (Fld × Nat)) : State := { s with isl := l.foldl (fun d x => d.setF x.1 x.2) s.isl }
/-- A state with its main-supply part changed. -/
def dv (s : State) (f : Dev → Dev) : State := { s with dev := f s.dev }

/-- Right after reset, with the PLLs and MCLK in lock; SPI holds the Maintainer grant, the key is active. -/
def base : State := stI (st State.reset [(CRG_PLL_LOCK 0, 1), (CRG_PLL_LOCK 1, 1), (CRG_PLL_LOCK 2, 1), (CRG_PLL_LOCK 3, 1), (MOD_STAT_CLK_OK, 1)])
  [(SAF_STAT_KEY, 1)]
/-- Lane `n` ACTIVE both ways, in lock. -/
def laneUp (s : State) (n : Nat) : State := st s [(LNK_LSTAT_TX_PS n, 2), (LNK_LSTAT_RX_PS n, 2), (LNK_LSTAT_BLK_ST n, 2)]
/-- A control period in progress. -/
def running (s : State) : State := dv s fun d => { d with per := { started := true, running := true, k := 3, sk := 400000, len := 100000 } }

/-- Cell 255 stands in lane 63 at position 3, cell 0 in lane 0 at position 0. -/
def wCells : State := dv (laneUp (laneUp base 63) 0) fun d => { d with twl := { d.twl with map := [(0, 1), (255, 256)] } }
def wLive : State :=
  st wCells [(BLS_CELL_CFG_IN_ARM 255, 1), (BLS_CELL_CFG_ARM 255, 7), (BLS_CELL_ST_STATE 255, blsActive), (BOT_ARM_EN, 128)]

/-! ### Well-formedness: an ill-formed term for each check -/

/-- A message with each field at the top of its range, and its variants one above. -/
def okLand : LandMsg := ⟨3, 2 ^ 32 - 1, 65535, 2 ^ 32 - 1, 2 ^ 32 - 1, List.replicate 32 255⟩
def okEth : EthRx := ⟨3, 2 ^ 48 - 1, some (65535, true), some 4095⟩
def okHello : HelloFrame := ⟨71, 3, 15, 65535, 2 ^ 32 - 1, 2 ^ 64 - 1, 2 ^ 32 - 1, 2 ^ 32 - 1⟩

theorem test_wf_accepts : [Instr.registerWrite (.landing 7) 0xFFFFFF 0, .coefWrite .spi 0x7FFFF 0, .hello okHello, .landingKeepalive okLand,
    .supervisionFrame okEth, .slip .spi 71, .invite 63, .txnResponse 71 3 7 65535 255 0, .armSet .spi 0, .scrub ⟨6, 0, 2, .other⟩].all (·.wf) := by
  decide
theorem test_wf_refuses_numbers : [Instr.landingRead 8, .seqLoRead (.landing 8), .registerWrite .spi 0x1000000 0, .announceReceiptTimeout 0,
    .announceReceiptTimeout 3, .linkUp 4 0, .msgBad 0, .slip .spi 72, .invite 64, .leave 0 4 0 0, .crossProbe 256, .remapWrite .spi 4 0,
    .mooringBuoy 4 0, .lanePowerRequest .spi 0 4 0, .blockHeader 0 4 0, .coefWrite .spi 0x80000 0, .shadowWrite .spi 24 0 0, .shadowWrite .spi 0 7 0,
    .lbOvrWrite .spi 16 0, .preset .spi 32 0, .conversionEnd 5 0, .settleEnd 24, .tripPin 16 true, .tripSourceActive [64], .rearm 16,
    .discrepancyTimeout 8, .fallbackBoundary 2, .lossOfVoltage 0 3, .pulseEnd 4, .svTimeout 32, .gooseRepeat 16, .gooseTalExpiry 128, .pllFail 4,
    .cursorCopyDone 2, .manifestLatch [64], .txnTimeout 0 8, .mspiRead 0 256, .mspiReservedOp 3, .nodeForget (2 ^ 48)].any (·.wf) = false := by decide
theorem test_wf_refuses_layouts : [Instr.landingKeepalive { okLand with port := 2 }, .landingKeepalive { okLand with tag := [] },
    .landingKeepalive { okLand with ip := 2 ^ 32 }, .landingHello okLand 0 0 0 [1], .landingRequest okLand [(256, 0, 0)],
    .supervisionFrame { okEth with src := 2 ^ 48 }, .supervisionFrame { okEth with vid := some 4096 }, .hello { okHello with ver := 16 },
    .hello { okHello with serial := 2 ^ 64 }, .thermalMeasurement [200], .scrub ⟨7, 0, 1, .other⟩, .scrub ⟨6, 0, 3, .other⟩,
    .syncFrame 0 0 [.mem 0x80000 [0]], .syncFrame 0 0 [.epoch 65536], .pairFrame ⟨false, 0, 0, 0, 8, 0⟩, .samplingInstant [⟨32, [], 0⟩] 0,
    .icmpEcho 1 0 0 [256], .arpRequest 1 (2 ^ 32)].any (·.wf) = false := by decide

/-! ### One step against values worked out by hand from the spec -/

/-- What a step of one command leaves; the state itself where it answers none. -/
def after (i : Instr) (s : State) : State :=
  match step (s.push i) with
  | .next t => t
  | _ => s

/-- The table gives no row bits. -/
theorem test_decode_none : decodeTableWord 32 0 = none := rfl

/-- Check codes of the standard strings "123456789" (CRC-32C as in R113; CRC-8 as in R461, polynomial 0x07). -/
theorem test_crc32c : crc32c [0x31, 0x32, 0x33, 0x34, 0x35, 0x36, 0x37, 0x38, 0x39] = 0xE3069283 := by decide
theorem test_crc8 : crc8 [0x31, 0x32, 0x33, 0x34, 0x35, 0x36, 0x37, 0x38, 0x39] = 0xF4 := by decide

/-- "Worked example: a schedule across the edge-time wrap", step 1. -/
theorem test_edge_wrap : edgeOfTicks ((68719473536 + 3200) * 32) = 0 := by decide
/-- "Worked example: encoding a schedule": the start block, block 1's low half, block 2, and the data blocks. -/
def wBuilt : Built :=
  { kind := 2, init := [2, 3, 2, 2, 2, 2, 0],
    ents := [(80000, 0, 3), (80000, 1, 2), (320000, 2, 3), (560000, 0, 2), (560000, 1, 3)], hist := [], cnt := [], forced := 0, vals := [], psi := 0 }
def wIv : CbkIv := { k := 0, t0 := 32000000, t1 := 32640000, per := 16000, perNext := 16000, act := [], gv := [], nl := [] }
def wSched : State := dv (st base [(TWL_HORN_HSEQ, 0x17)]) fun d => { d with twl := { d.twl with cells := [(41, { seqSched := 0x5C })] } }
theorem test_schedule : wSched.dev.schedBlocks wIv wBuilt 41 1 2 =
    [0x0AAE055C05051278, 0x01703E80, 0x007D000001E84800, 0x004E200C004E2006, 0x0222E00401388016, 0xFFFFFFFF0222E00E] := by decide

/-- "Worked example: phase-shifted carriers in a 30-cell arm", step 2; "a failed cell and a hot spare", ranks 20 and 29. -/
theorem test_shift : [6, 7, 8, 14, 29].map (fun i => baseShift i 30) = [3355443, 3914684, 4473924, 7829367, 16217975] := by decide
/-- "Worked example: a failed cell and a hot spare", run k: e = 10 V, KA = 0.0004 and KD = 0.0002 as binary32. -/
theorem test_trim :
    (base.dev.trim (fdec f32 0x39D1B717) (fdec f32 0x41200000) (-1) 167772).1 = -33554 ∧
      (base.dev.trim (fdec f32 0x3951B717) (fdec f32 0x41200000) 1 167772).1 = 16777 := by decide
/-- "Worked example: one rounding per row": 16,777,216 + 1 − 16,777,216. -/
theorem test_one_rounding :
    mvmRow none none false [fdec f32 0x4B800000, fdec f32 0x3F800000, fdec f32 0xCB800000] (List.replicate 3 (fdec f32 0x3F800000)) = 0x3F800000 := by
  decide

/-! #### Timebase, PTP, lanes -/

/-- R50: a period of 3.75 ns lies below TBS_PERMIN. -/
theorem test_per_refused : (after (.perWrite .spi 3) base).dev.sent.head? = some ⟨.reply, 0, [0xC3, addr_TBS_PER]⟩ := by decide
/-- R460: TIME_LO latches TIME_HI for the path that read it. -/
theorem test_time_latch : let s := dv base fun d => { d with time := 0x123456789ABCDEF0 * 2 ^ 32 + 7 }
    (after (.timeLoRead .spi) s).dev.sent.head? = some ⟨.reply, 0, [0x5A, addr_TBS_TIME_LO, 0x9ABCDEF0]⟩ ∧
      (after (.timeLoRead .spi) s).dev.latched 0 addr_TBS_TIME_HI = 0x12345678 := by decide
/-- R78: LQF is the lower of the eye's two scores. -/
theorem test_lqf : lqfOf 63 200 = 252 ∧ lqfOf 64 100 = 127 ∧ lqfOf 10 1023 = 40 := by decide
/-- R84: SLIP shifts the boundary by one bit of 66, returns the receiver to HUNT; with BLK_AUTO 1 it is refused. -/
theorem test_slip : let s := st (laneUp base 5) [(LNK_LCTRL_BLK_AUTO 5, 0)]
    (after (.slip .spi 5) s).dev.getF (LNK_SLIP_POS 5) = 1 ∧ (after (.slip .spi 5) s).dev.getF (LNK_LSTAT_BLK_ST 5) = 0 ∧
      (after (.slip .spi 5) (laneUp base 5)).dev.sent.head? = some ⟨.reply, 0, [0xC3, addr_LNK_SLIP 5]⟩ := by decide

/-! #### Towline, drive -/

/-- R8, R197: HLM_RUNMAX reads and clears. -/
theorem test_runmax : let s := st base [(HLM_RUNMAX_NS, 1650)]
    (after (.runmaxRead .spi) s).dev.sent.head? = some ⟨.reply, 0, [0x5A, addr_HLM_RUNMAX, 1650]⟩ ∧
      (after (.runmaxRead .spi) s).dev.rd addr_HLM_RUNMAX = 0 := by decide

/-! #### Protection -/

/-- "Worked example: an arm overcurrent and a refused clear": source 5 drives G1. -/
def wOvercurrent : State := dv (st base [(TRP_MAP_GROUPS 5, 2), (TRP_STAT_LATCH, 0)]) fun d => ({ d with saf := false }).wr addr_TRP_EN0 0x20
theorem test_trip : (after (.tripSourceActive [5]) wOvercurrent).dev.latched16 = 2 ∧ (after (.tripSourceActive [5]) wOvercurrent).dev.getF (TRP_GRP_FIRST_SRC 1) = 5 := by
  decide
theorem test_clear_refused : let t := after (.trpClr .spi 2) (after (.tripSourceActive [5]) wOvercurrent)
    t.dev.rd addr_TRP_CLR_STAT = 0x00020000 ∧ t.dev.bit TRP_EVT_CLR_REFUSED ∧ t.dev.latched16 = 2 := by decide

/-! #### Power, logbook, access -/

/-- R387, R394: RESETN is counted and shown as the cause. -/
theorem test_resetn : (after .resetn base).dev.getF CRG_PIN_RST = 1 ∧ (after .resetn base).dev.maskBit addr_CRG_RSTCAUSE 3 := by decide
/-- R462: a reserved OP is answered with 0xC5 and its check byte. -/
theorem test_mspi_reserved : (after (.mspiReservedOp 7) base).dev.sent.head? = some ⟨.spiStatus, 0, [0xC5, crc8 [0xC5]]⟩ := by decide
/-- R4: a misaligned address is refused with 0xC1. -/
theorem test_misaligned : (after (.registerWrite .spi 0x40022 0) base).dev.sent.head? = some ⟨.reply, 0, [0xC1, 0x40022]⟩ := by decide
/-! ### Witnesses: timebase -/

def wExt : State := st base [(PTP_CTRL_SERVO, 1)]
theorem witness_IncrementWrites :
    (wExt.granted .spi addr_TBS_INCR_NS 15 ∧ wExt.dev.extServo) ∧ (wExt.granted .spi addr_TBS_INCR_FR 0xFFFFFFFF ∧ wExt.dev.extServo) ∧
      (base.granted .spi addr_TBS_INCR_NS 0 ∧ base.dev.extServo = false) ∧ (base.granted .spi addr_TBS_INCR_FR 0 ∧ base.dev.extServo = false) := by
  decide

theorem witness_NearestIncrement : wExt.granted .spi addr_TBS_INCR_FR 0 ∧ wExt.dev.extServo := by decide

theorem witness_TbcCycle :
    (base.pending = [] ∧ base.bak.main ∧ base.dev.bit (CRG_PLL_LOCK 0)) ∧ base.dev.tbs.incrNew = none ∧
      (dv base fun d => { d with tbs := { incrNew := some (7, 2) } }).dev.tbs.incrNew = some (7, 2) := by decide

theorem witness_StepCommands :
    (base.granted .spi addr_TBS_STEP 2 ∧ base.granted .spi addr_TBS_STEP 1) ∧
      (base.dev.noArm ∧ (st base [(TBS_STAT_STATE, tbsFree)]).dev.tbsState = tbsFree) ∧
      (st base [(TBS_STAT_STATE, tbsAcquire)]).dev.tbsState = tbsAcquire ∧ base.dev.tbsState = tbsUnset ∧
      ((st base [(BOT_ARM_EN, 128)]).granted .spi addr_TBS_STEP 2 ∧ (st base [(BOT_ARM_EN, 128)]).dev.noArm = false) ∧
      ((st wExt [(TBS_STAT_STATE, tbsAcquire)]).granted .spi addr_TBS_STEP 1 ∧ wExt.dev.extServo) ∧
      (base.dev.extServo && decide (base.dev.tbsState = tbsAcquire)) = false := by decide

theorem witness_StepRecorded :
    base.dev.log.queue.length < 64 ∧ base.dev.tbsState = tbsUnset ∧ (st base [(TBS_CTRL_MODE, 1)]).dev.bit TBS_CTRL_MODE := by decide

theorem witness_TimebaseEvents :
    base.bak.main ∧ (st base [(TBS_STAT_STATE, tbsHoldover)]).dev.tbsState = tbsHoldover ∧ (st base [(TBS_STAT_SYNC_Q, 2)]).dev.tbsGlobal ∧
      base.dev.tbsGlobal = false ∧
      (let s := st base [(TBS_CTRL_PPSO_EN, 1), (TBS_STAT_STEPPED, 1), (TBS_STAT_SYNC_Q, 2)]
       s.dev.bit TBS_CTRL_PPSO_EN ∧ s.dev.bit TBS_STAT_STEPPED ∧ (s.dev.bit TBS_CTRL_PPSO_QUAL → s.dev.tbsGlobal)) ∧
      (dv base fun d => { d with tbs := { ppso := true } }).dev.tbs.ppso ∧
      (let s := st base [(TBS_CTRL_PPSI_EN, 1)]
       s.dev.bit TBS_CTRL_PPSI_EN ∧ s.dev.bit TBS_CTRL_PPSI_EDGE = false) := by decide

/-! ### Witnesses: PTP -/

/-- P1 and P2 up with PTP enabled, a peer-delay exchange completed on each. -/
def wPtp : State :=
  dv (st base [(NET_PCFG_EN 0, 1), (NET_PCFG_EN 1, 1), (NET_STAT2_LINK, 3), (PTP_CTRL_P1_EN, 1), (PTP_CTRL_P2_EN, 1)]) fun d =>
    { d with ptp1 := { delay := some 100 }, ptp2 := { delay := some 100 } }
def wMsg : PtpMsg := { port := 2, domain := wPtp.dev.getF PTP_CTRL_DOMAIN, seq := 65535, src := 9, twoStep := false, origin := 5, corr := 0, tIn := 1000 }
def wAnn : PtpAnnounce :=
  { port := 2, domain := wPtp.dev.getF PTP_CTRL_DOMAIN, src := 9, ptpTimescale := true, priority1 := 1, clockClass := 6, accuracy := 0, variance := 0,
    priority2 := 0, gmId := 1, stepsRemoved := 0, timeSource := 0, utcValid := false, utcOffset := 0, tlv := none }
/-- The selected port 2 has heard its master. -/
def wSel : State := dv (st wPtp [(PTP_STAT_SEL_PORT, 2)]) fun d => { d with ptp2 := { d.ptp2 with best := some wAnn } }
def wSel2 (f : PtpPort → PtpPort) : State := dv wSel fun d => { d with ptp2 := f d.ptp2 }

theorem witness_PeerDelay :
    (wPtp.bak.main ∧ wPtp.dev.ptpOn 1 ∧ wPtp.dev.ptpOn 2) ∧
      ((dv wPtp fun d => { d with ptp2 := { tsq := List.replicate 31 ⟨2, 0, 0, 0⟩ } }).dev.ptpPort 2).tsq.length < 32 ∧
      32 ≤ ((dv wPtp fun d => { d with ptp2 := { tsq := List.replicate 32 ⟨2, 0, 0, 0⟩ } }).dev.ptpPort 2).tsq.length ∧
      (wMsg.port = 2 ∧ ((wSel2 fun x => { x with req := some (65535, 3) }).dev.ptpPort 2).req = some (wMsg.seq, 3) ∧ wMsg.twoStep = false) ∧
      { wMsg with twoStep := true }.twoStep ∧
      ((wSel2 fun x => { x with resp := some (wMsg, 7) }).dev.ptpPort 2).resp = some (wMsg, 7) ∧
      (∀ n, n < 2 → wPtp.granted .spi (addr_PTP_TSQ_POP n) 1 ∧ wPtp.granted .spi (addr_PTP_RXQ_POP n) 1) ∧
      ((wPtp.dev.ptpPort 1).tsq.tail = [] ∧ (wPtp.dev.ptpPort 1).rxq.tail = []) ∧
      (let q : List TsEntry := [⟨2, 0, 0, 0⟩, ⟨3, 1, 2, 3⟩]
       q.tail = ⟨3, 1, 2, 3⟩ :: []) := by decide

theorem witness_ForeignTimescale :
    let m := { wAnn with ptpTimescale := false }
    wPtp.bak.main ∧ wPtp.dev.ptpOn m.port ∧ m.domain = wPtp.dev.getF PTP_CTRL_DOMAIN ∧ m.ptpTimescale = false := by decide

theorem witness_MasterSelection :
    (wPtp.bak.main ∧ wPtp.dev.ptpOn wAnn.port ∧ wAnn.domain = wPtp.dev.getF PTP_CTRL_DOMAIN ∧ wAnn.ptpTimescale) ∧
      ((wPtp.dev.ptpPort 2).best = none ∧ wPtp.dev.getF PTP_STAT_SEL_PORT = 0 ∧ (wPtp.dev.ptpPort 1).best = none) ∧
      ((wSel.dev.ptpPort 2).best = some wAnn ∧ annBetter { wAnn with priority1 := 0 } wAnn) ∧
      (wPtp.dev.tbsState = tbsUnset ∧ wPtp.dev.bit TBS_CTRL_MODE = false) ∧
      (wSel.dev.ptpOn 2 ∧ (wSel.dev.ptpPort 1).best = none) ∧ (st wSel [(TBS_STAT_STATE, tbsLocked)]).dev.tbsState = tbsLocked ∧
      (st wSel [(TBS_STAT_STATE, tbsAcquire)]).dev.tbsState = tbsAcquire := by decide

theorem witness_NoPeerDelay :
    (let s := wSel2 fun x => { x with delay := none }
     s.bak.main ∧ s.dev.ptpOn wMsg.port ∧ s.dev.getF PTP_STAT_SEL_PORT = wMsg.port ∧ (s.dev.ptpPort wMsg.port).delay = none ∧
       s.dev.fromMaster wMsg ∧ wMsg.twoStep = false) ∧
      (let s := wSel2 fun x => { x with reqSince := 5, sync := some (wMsg, 8) }
       4 < (s.dev.ptpPort wMsg.port).reqSince ∧ (s.dev.ptpPort wMsg.port).sync = some (wMsg, 8)) := by decide

theorem witness_JumpRefusal :
    let s := st wSel [(TBS_STAT_STATE, tbsLocked)]
    (s.bak.main ∧ s.dev.ptpOn wMsg.port ∧ s.dev.extServo = false ∧ s.dev.tbsState = tbsLocked ∧ s.dev.getF PTP_STAT_SEL_PORT = wMsg.port ∧
      (s.dev.ptpPort wMsg.port).delay = some 100 ∧ (s.dev.ptpPort wMsg.port).reqSince ≤ 4) ∧
      (s.dev.fromMaster wMsg ∧ wMsg.twoStep = false ∧ s.dev.fromMaster { wMsg with twoStep := true }) ∧
      ((s.dev.jumpLim : Int) < (((s.dev.ptpIn 2 (2 ^ 62) : Int) - (wMsg.origin + wMsg.corr) - 100).natAbs : Int) ∧ s.dev.tbs.overs < 3) ∧
      (dv s fun d => { d with tbs := { overs := 3 } }).dev.tbs.overs = 3 ∧
      ((dv s fun d => { d with ptp2 := { d.ptp2 with sync := some (wMsg, 8) } }).dev.ptpPort wMsg.port).sync = some (wMsg, 8) ∧
      s.dev.log.queue.length < 64 := by decide

/-! ### Witnesses: lanes -/

theorem witness_Lanes_power :
    (let s := laneUp base 71
     s.granted .spi (addr_LNK_LCTRL 71) (s.dev.powReq 71 2 1) ∧ s.granted .spi (addr_LNK_LCTRL 71) (s.dev.powReq 71 3 0) ∧
       s.granted .spi (addr_LNK_LCTRL 71) (s.dev.powReq 71 0 3) ∧ s.dev.getF (LNK_LCTRL_TEST 71) < 2 ∧ s.dev.getF (LNK_LCTRL_ADAPT 71) < 3) ∧
      (base.bak.main ∧ base.dev.effState 0 true = base.dev.powState 0 true) ∧
      (let s := st base [(LNK_LCTRL_TX_REQ 71, 2), (LNK_LCTRL_RX_REQ 71, 2), (CRG_STAT_PSTATE, 1)]
       s.dev.quiet ∧ s.dev.effState 71 false ≠ s.dev.powState 71 false ∧ s.dev.effState 71 false ≠ 0 ∧
         s.dev.effState 71 true ≠ s.dev.powState 71 true ∧ s.dev.powState 71 true ≠ 2) ∧
      (let s := laneUp base 71
       s.dev.quiet ∧ s.dev.paired = false ∧ s.dev.logical 71 = none ∧ s.dev.powState 71 true = 2 ∧ s.dev.effState 71 true ≠ 2 ∧
         s.dev.effState 71 true = 0) ∧
      (st base [(LNK_LSTAT_TX_PS 63, 1)]).dev.powState 63 false = 1 ∧
      (let s := st base [(LNK_LSTAT_TX_PS 71, 2), (LNK_LCTRL_TX_REQ 71, 1), (CRG_STAT_PSTATE, 1)]
       s.dev.quiet ∧ s.dev.powState 71 false = 2 ∧ s.dev.effState 71 false = 1) := by decide

theorem witness_Lanes_quality :
    (let s := st (laneUp base 71) [(LNK_LQF_THR_WARN 71, 255), (LNK_LQF_THR_ALARM 71, 100)]
     s.bak.main ∧ s.dev.powState 71 true = 2 ∧ (min (min 255 (4 * 5)) (min 255 (1023 * 51 / 40)) : Nat) < s.dev.getF (LNK_LQF_THR_WARN 71) ∧
       (min (min 255 (4 * 5)) (min 255 (1023 * 51 / 40)) : Nat) < s.dev.getF (LNK_LQF_THR_ALARM 71) ∧
       s.dev.bit (LNK_LSTAT_LQF_WARN 71) = false ∧ s.dev.bit (LNK_LSTAT_LQF_ALARM 71) = false ∧ s.dev.log.queue.length < 64) ∧
      (let s := dv base fun d => { d with lanes := [(71, { warnLo := 3, alarmLo := 3 })] }
       3 ≤ (s.dev.lane 71).warnLo ∧ 3 ≤ (s.dev.lane 71).alarmLo) ∧
      base.dev.powState 0 true ≠ 2 := by decide

theorem witness_BlockAlignment :
    (let s := st (laneUp base 71) [(LNK_LSTAT_BLK_ST 71, 0)]
     s.bak.main ∧ s.dev.powState 71 true = 2 ∧ s.dev.getF (LNK_LCTRL_TEST 71) ≠ 1 ∧ s.dev.getF (LNK_LSTAT_BLK_ST 71) = 0 ∧
       s.dev.getF (LNK_LSTAT_BLK_ST 71) < 2) ∧
      (st (laneUp base 63) [(LNK_LSTAT_BLK_ST 63, 1), (LNK_LSTAT_HDR_RUN 63, 63)]).dev.getF (LNK_LSTAT_BLK_ST 63) = 1 ∧
      min 64 ((st (laneUp base 63) [(LNK_LSTAT_BLK_ST 63, 1), (LNK_LSTAT_HDR_RUN 63, 63)]).dev.getF (LNK_LSTAT_HDR_RUN 63) + 1) = 64 ∧
      (laneUp base 63).dev.getF (LNK_LSTAT_BLK_ST 63) = 2 ∧
      16 ≤ ((false :: ((dv base fun d => { d with lanes := [(63, { hdrs := List.replicate 15 false })] }).dev.lane 63).hdrs).take 64).countP (· = false) ∧
      ((false :: ((dv base fun d => { d with lanes := [(63, { hdrs := List.replicate 14 false })] }).dev.lane 63).hdrs).take 64).countP (· = false) < 16 ∧
      (let s := dv (st (laneUp base 68) [(LNK_LCTRL_TEST 68, 1)]) fun d => { d with lanes := [(68, { prbs := some 1 })] }
       s.dev.powState 68 true = 2 ∧ s.dev.getF (LNK_LCTRL_TEST 68) = 1 ∧ (s.dev.lane 68).prbs = some 1) ∧
      ((st (laneUp base 0) [(LNK_LCTRL_BLK_AUTO 0, 0)]).granted .spi (addr_LNK_SLIP 0) 0x80000000 ∧
        (st (laneUp base 0) [(LNK_LCTRL_BLK_AUTO 0, 0)]).dev.bit (LNK_LCTRL_BLK_AUTO 0) = false ∧
        (laneUp base 0).granted .spi (addr_LNK_SLIP 0) 0x80000000 ∧
        (st (laneUp base 0) [(LNK_LCTRL_BLK_AUTO 0, 1)]).dev.bit (LNK_LCTRL_BLK_AUTO 0)) := by decide

theorem witness_Buoys :
    (let s := st (laneUp base 71) [(LNK_LCTRL_TEST 70, 1)]
     s.bak.main ∧ s.dev.powState 71 false = 2 ∧ s.dev.getF (LNK_LCTRL_TEST 71) = 0 ∧ s.dev.getF (LNK_LCTRL_TEST 70) ≠ 0) ∧
      (base.dev.paired = false ∧ (st base [(LNK_STAT_BOND_ST, 1)]).dev.bondState = 1 ∧ (st base [(LNK_STAT_BOND_ST, 2)]).dev.bondState = 2) ∧
      (let s := dv base fun d => { d with lanes := [(64, { skews := [16, 16] }), (65, { skews := [0, 0] }), (66, { skews := [3, 3] }), (67, { skews := [16] })] }
       (s.dev.lane (64 + 3)).skews.head? = some 16 ∧ ∀ k, k < 4 → k ≠ 3 → ∃ x, x < 17 ∧ (s.dev.lane (64 + k)).skews = [x, x]) ∧
      (base.dev.rd addr_LNK_BOND_SKEW).toNat / 2 ^ (8 * 3) % 256 = 0 ∧ (base.dev.rd addr_LNK_BOND_SKEW).toNat / 2 ^ (8 * 3) % 256 ≠ 255 := by decide

theorem witness_SparesAndTest :
    (wLive.granted .spi (addr_LNK_REMAP 3) 0x8000003F ∧ wLive.dev.liveLane 63 ∧ (0x8000003F : Word).toNat / 2 ^ 31 = 1) ∧
      (base.dev.log.queue.length < 64 ∧ (laneUp base 0).granted .spi (addr_LNK_REMAP 0) 64 ∧ 63 < (64 : Word).toNat % 128) ∧
      (let s := st (laneUp base 0) [(LNK_REMAP_EN 3, 1), (LNK_REMAP_SRC 3, 63)]
       s.granted .spi (addr_LNK_REMAP 0) 0x8000003F ∧ s.dev.bit (LNK_REMAP_EN 3) ∧ s.dev.getF (LNK_REMAP_SRC 3) = 63) ∧
      (let s := laneUp base 0
       s.granted .spi (addr_LNK_REMAP 3) 0x8000003F ∧ s.dev.quiet ∧ s.dev.paired = false ∧
         (∀ j, j < 4 → s.dev.bit (LNK_REMAP_EN j) = false) ∧ s.dev.liveLane 63 = false) ∧
      (let s := laneUp base 71
       s.granted .spi (addr_LNK_LCTRL 71) 0x400 ∧ s.granted .spi (addr_LNK_LCTRL 71) 0 ∧ s.dev.getF (LNK_LCTRL_TEST 71) = 0 ∧ s.dev.testOk 71) ∧
      (let s := st wCells [(TWL_CST_STATE 255, cellBoarded)]
       s.granted .spi (addr_LNK_LCTRL 63) 0x400 ∧ s.dev.testOk 63 = false ∧ s.dev.paired = false) := by decide

theorem witness_FaultInjection :
    (let s := st (laneUp base 71) [(BOT_ARM_EN, 1), (LNK_FI_PARAM_N 71, 1)]
     s.granted .spi (addr_LNK_FI_CTRL 71) 0x80000001 ∧ s.dev.bit (LNK_FI_CTRL_EN 71) = false ∧ s.dev.noArm = false ∧ liveInject s.isl = false ∧
       s.dev.rxReady = [] ∧ s.dev.log.queue.length < 64) ∧
      (let s := laneUp base 71
       s.granted .spi (addr_LNK_FI_CTRL 71) 0x80000001 ∧ (st s [(LNK_FI_PARAM_N 71, 0)]).dev.getF (LNK_FI_PARAM_N 71) = 0) ∧
      (let s := st (laneUp base 71) [(LNK_FI_PARAM_N 71, 1), (LNK_FI_CTRL_EN 71, 0)]
       s.granted .spi (addr_LNK_FI_CTRL 71) 0x80000001 ∧ s.dev.noArm ∧ s.dev.getF (LNK_LCTRL_TEST 71) = 0 ∧
         (0x80000001 : Word).toNat / 1024 % 4 ≠ 3 ∧ (0x80000001 : Word).toNat / 256 % 4 ≠ 3 ∧ s.dev.getF (LNK_FI_PARAM_N 71) ≠ 0 ∧
         (0x80000001 : Word).toNat / 64 % 4 ≠ 2) ∧
      (let s := st (laneUp base 71) [(LNK_FI_CTRL_EN 71, 1)]
       s.granted .spi (addr_LNK_FI_CTRL 71) (fldPut 31 1 0 (s.dev.rd (addr_LNK_FI_CTRL 71))) ∧ s.dev.bit (LNK_FI_CTRL_EN 71) ∧
         s.dev.rxReady = [] ∧ (s.dev.lane 71).heldRx = none) ∧
      ((dv base fun d => { d with lanes := [(71, { heldTx := some ⟨.sched, 71, [1]⟩ })] }).dev.lane 71).heldTx = some ⟨.sched, 71, [1]⟩ := by decide

/-! ### Witnesses: Towline -/

def wHello : HelloFrame := { lane := 63, pos := 3, ver := 2, bepoch := 65535, epId := 7, serial := 2 ^ 40, cap := 0, mch := 0 }
def wState (x : Nat) : State := st wCells [(TWL_CST_STATE 255, x), (TWL_CELL_BEP_BEPOCH 255, 65535)]

theorem witness_Boarding :
    (wCells.bak.main ∧ wCells.dev.quiet) ∧
      (wCells.dev.txUp (wCells.dev.phys 63) ∧ ∃ c ∈ wCells.dev.laneCells 63, wCells.dev.cellState c ≠ cellBoarded) ∧
      (∀ c ∈ (wState cellBoarded).dev.laneCells 63, (wState cellBoarded).dev.cellState c = cellBoarded) ∧
      (wCells.dev.hears wHello.lane 63 ∧ wHello.ver = 2) ∧ wCells.dev.cellAt 63 2 = none ∧ wCells.dev.cellAt 63 wHello.pos = some 255 := by decide

theorem witness_Boarding_states :
    (wCells.dev.cellState 255 = cellEmpty ∧ wCells.dev.helloReason 255 wHello = 0 ∧ wCells.dev.helloReason 255 { wHello with ver := 1 } ≠ 0) ∧
      ((wState cellBoarding).dev.cellState 255 = cellBoarding ∧ (wState cellBoarding).dev.getF (TWL_CELL_BEP_BEPOCH 255) = wHello.bepoch ∧
        (wState cellBoarding).dev.getF (TWL_CELL_BEP_BEPOCH 255) ≠ 0) ∧
      (wState cellBoarded).dev.cellState 255 = cellBoarded ∧ (wState cellRefused).dev.cellState 255 = cellRefused := by decide

theorem witness_Departures :
    (wCells.bak.main ∧ wCells.dev.quiet) ∧
      (let s := wState cellBoarded
       s.dev.hears 63 63 ∧ s.dev.cellAt 63 3 = some 255 ∧ s.dev.cellState 255 = cellBoarded) ∧
      ((wState cellBoarding).dev.hears 63 63 ∧ (wState cellBoarding).dev.cellState 255 = cellBoarding) ∧
      (let s := running (dv (wState cellBoarded) fun d => { d with twl := { d.twl with cells := [(255, { noTlm := 100 })] } })
       s.dev.per.running ∧ s.dev.getF TWL_CTRL_DEPART ≤ (s.dev.cell 255).noTlm) ∧
      (wState cellBoarding).dev.cellState 255 ≠ cellBoarded ∧
      (let s := st (wState cellBoarded) [(CRG_PLL_LOCK 3, 0)]
       s.dev.logical 63 = some 63 ∧ 255 ∈ s.dev.laneCells 63 ∧ s.dev.powState 63 true = 2 ∧ s.dev.effState 63 true ≠ 2 ∧
         s.dev.powState 63 false ≠ 0 ∧ s.dev.effState 63 false = 0) ∧
      (let x : Txn := ⟨0, 255, 7, 0, 0x100, 0⟩
       x ∈ (dv wCells fun d => { d with twl := { d.twl with fly := [x] } }).dev.twl.fly ∧ x.cell = 255) := by decide

theorem witness_Departures_crossing :
    (let s := wState cellBoarded
     s.dev.placeOf 255 = some (63, 3) ∧ s.dev.txUp (s.dev.phys 63) ∧ s.dev.cellState 255 = cellBoarded ∧ s.dev.rxUp 63) ∧
      ((wState cellBoarding).dev.cellState 255 = cellBoarding ∧ ((wState cellBoarding).dev.cell 255).probes < 16 ∧
        ((wState cellBoarding).dev.cell 255).cfg = false) ∧
      (let c := (dv (wState cellBoarded) fun d => { d with twl := { d.twl with cells := [(255, { await := [255], samples := List.replicate 16 640 })] } }).dev.cell 255
       let xs := ((((20000000 : Nat) : Int) - (0 : Nat)) :: c.samples).take 16
       255 ∈ c.await ∧ 0 ≤ xs.sum ∧ xs.sum < 2 * xs.length * (2 ^ 24 - 1) ∧ c.xover = false ∧
         ((st base [(TWL_XALLOW_ALLOW 63, 0)]).dev.getF (TWL_XALLOW_ALLOW 63) * 2 * xs.length : Int) < xs.sum) ∧
      (let s := dv (wState cellBoarding) fun d => { d with twl := { d.twl with cells := [(255, { await := [255], lost := 3 })] } }
       s.bak.main ∧ s.dev.quiet ∧ 255 ∈ (s.dev.cell 255).await ∧ s.dev.cellState 255 = cellBoarding ∧ 3 ≤ (s.dev.cell 255).lost) ∧
      256 ∉ (wCells.dev.cell 255).await := by decide

def wTlm : TlmFrame :=
  { lane := 63, pos := 3, flags := 0, epoch := 0, sseq := 0, coastN := 0, exec := 3, gdLat := 127, gdAct := 0, sample := edgeOf (unitsOf125 400000),
    m := [0x7FC00000, 1, 2, 3, 4, 5, 6, 7], aux := 0, crcErr := 0, lateSch := 0, late := false }

theorem witness_TelemetryFrames :
    (let s := running (wState cellBoarded)
     s.bak.main ∧ s.dev.hears wTlm.lane 63 ∧ s.dev.cellAt 63 wTlm.pos = some 255 ∧ s.dev.cellState 255 = cellBoarded ∧ s.dev.per.running ∧
       wTlm.late = false ∧ s.dev.per.duePassed = false ∧ wTlm.sample = edgeOf (unitsOf125 s.dev.per.sk) ∧ (s.dev.cell 255).accepted = false ∧
       s.dev.bit HLM_STAT_RUNNING = false ∧ f32Nan (wTlm.m.getD 0 0 % 2 ^ 32)) ∧
      (wState cellBoarding).dev.cellState 255 ≠ cellBoarded ∧
      ((wState cellBoarded).dev.per.running = false ∧ { wTlm with late := true }.late) ∧ wTlm.sample + 1 ≠ edgeOf (unitsOf125 400000) ∧
      (wCells.dev.hears 0 0 ∧ (15 : Nat) < 16) := by decide

def wTxn : State := st (wState cellBoarded) [(BLS_CELL_CFG_IN_ARM 255, 0)]
def wCmd (op : Nat) : Word := BitVec.ofNat 32 (op * 2 ^ 29 + 255 * 2 ^ 16 + 0xFFFF)
theorem witness_Transactions :
    (∀ op, op < 3 → wTxn.granted .spi addr_TWL_TXQ_CMD (wCmd op)) ∧ wTxn.granted .spi addr_TWL_TXQ_DATA 0xFFFFFFFF ∧
      wTxn.granted .spi addr_TWL_TXQ_GO 1 ∧ wTxn.dev.quiet ∧ (∀ op, op < 3 → wTxn.dev.txnReason (wTxn.classOf .spi) op 255 0xFFFF = 0) ∧
      (st wTxn [(TWL_CST_STATE 255, cellEmpty)]).dev.txnReason 3 0 255 0xFFFF = 1 ∧ wTxn.dev.freeSlots ≠ [] := by decide

/-- Eight answered transactions in flight to cell 255. -/
def wFly : State := dv wTxn fun d => { d with twl := { d.twl with fly := (List.range 8).map fun k => ⟨k, 255, k, 0, 0x100 + 4 * k, 0⟩ } }
theorem witness_Transactions_full :
    (dv wTxn fun d => { d with twl := { d.twl with fly := (List.range 512).map fun k => ⟨k, k / 8 % 32, k % 8, 0, 0, 0⟩ } }).dev.txnReason 3 0 255 0xFFFF = 3 := by
  decide

theorem witness_Transactions_answers :
    (wFly.bak.main ∧ wFly.dev.hears 63 63 ∧ wFly.dev.cellAt 63 3 = some 255 ∧ (wFly.dev.cell 255).wtag ≠ some 7 ∧ wFly.dev.cellState 255 = cellBoarded) ∧
      wFly.dev.twl.fly.find? (fun t => decide (t.cell = 255 ∧ t.tag = 7 ∧ t.addr = 0x11C)) = some ⟨7, 255, 7, 0, 0x11C, 0⟩ ∧
      wFly.dev.twl.fly.find? (fun t => decide (t.cell = 255 ∧ t.tag = 7 ∧ t.addr = 0)) = none ∧
      (wFly.dev.quiet ∧ wFly.dev.twl.fly.find? (fun t => decide (t.cell = 255 ∧ t.tag = 0)) = some ⟨0, 255, 0, 0, 0x100, 0⟩) ∧
      ((dv wTxn fun d => { d with twl := { d.twl with cells := [(255, { wtag := some 7 })] } }).dev.cell 255).wtag = some 7 ∧
      (wFly.granted .spi addr_TWL_TXC_POP 1 ∧ wFly.dev.twl.doneQ.tail = []) ∧
      (dv wFly fun d => { d with twl := { d.twl with doneQ := d.twl.fly.map fun t => ⟨t, 0, 1⟩ } }).dev.twl.doneQ.tail ≠ [] := by decide

/-! ### Witnesses: carriers, Helm, membership -/

theorem witness_CarriersAndOutputs_writes :
    (base.granted .spi (addr_CBK_CG_SH_PER 23) 32000 ∧ base.granted .spi (addr_CBK_CG_SH_PER 0) 64000000 ∧
      base.granted .spi (addr_CBK_CG_SH_PER 23) 31999) ∧
      (let s := st base [(CBK_CG_CFG_MODE 16, modeCC)]
       s.granted .spi (addr_CBK_CG_SH_U 16 0) 8388608 ∧ s.dev.manualOk 16 0 8388608 ∧ s.granted .spi (addr_CBK_CG_SH_U 16 0) 8388609 ∧
         s.dev.manualOk 16 0 8388609 = false) ∧
      (base.granted .spi (addr_CBK_CG_CTRL 23) 7 ∧ base.dev.cgMode 23 ≠ modeBAND ∧ base.granted .spi (addr_CBK_CG_CTRL 23) 2 ∧
        (base.dev.grp 23).set = none ∧ (base.dev.grp 23).commit = false) ∧
      (st base [(CBK_CG_CFG_MODE 23, modeBAND)]).dev.cgMode 23 = modeBAND ∧
      ((dv base fun d => { d with cbk := { d.cbk with grps := [(23, { commit := true })] } }).dev.grp 23).commit ∧
      (base.granted .spi (addr_CBK_LB_OVR 15) 7 ∧ base.dev.cgMode (16 + base.dev.getF (CBK_LB_CFG_GROUP 15)) = 0) ∧
      (let s := st base [(CBK_CG_CFG_MODE 23, modeCC), (CBK_LB_CFG_GROUP 15, 7), (CBK_CG_STAT_DIS 23, 0)]
       s.dev.bit (CBK_CG_STAT_DIS (16 + s.dev.getF (CBK_LB_CFG_GROUP 15))) = false ∧ s.dev.cgMode (16 + s.dev.getF (CBK_LB_CFG_GROUP 15)) ≠ 0) := by
  decide

def wLb (x : LbSt) : State :=
  dv (running (st base [(CBK_LB_CFG_EN 15, 1), (CBK_LB_CFG_FORM 15, 1)])) fun d => { d with lb := [(15, x)], saf := false, regs := spSet (regReset addr_TRP_STAT) d.regs addr_TRP_STAT 0 }
theorem witness_CarriersAndOutputs_edges :
    (let s := wLb { sched := [(5, 3), (9, 0)], code := 2, b := true }
     s.bak.main ∧ s.dev.lbHeld 15 = false ∧ s.dev.bit (CBK_LB_CFG_FORM 15) ∧ (s.dev.lbOut 15).sched = (5, 3) :: [(9, 0)] ∧
       (s.dev.lbOut 15).code ≠ 3 ∧ (s.dev.lbOut 15).a = false) ∧
      (let s := wLb { sched := [(5, 2)], code := 3, a := true }
       (s.dev.lbOut 15).sched = [(5, 2)] ∧ (s.dev.lbOut 15).code ≠ 2 ∧ (s.dev.lbOut 15).b = false) ∧
      (let s := wLb { pend := some true, code := 2 }
       s.dev.bit (CBK_LB_CFG_FORM 15) ∧ (s.dev.lbOut 15).pend = some true) := by decide

theorem witness_PeriodMarks :
    (base.bak.main ∧ base.dev.quiet ∧ base.dev.per.started = false) ∧
      ((running base).dev.per.started ∧ (running base).dev.per.running ∧ (running base).dev.mor.defer = [] ∧
        (running base).dev.per.duePassed = false ∧ (running base).dev.quiet) ∧
      (let s := dv base fun d => { d with per := { started := true, sk := 800000, len := 100000 } }
       s.dev.per.started ∧ s.dev.per.running = false ∧ s.dev.mor.defer = []) ∧
      (dv base fun d => { d with per := { duePassed := true } }).dev.per.duePassed := by decide

theorem witness_PeriodMarks_write :
    let s := st base [(TBS_PERMIN_PER, 8000), (TBS_PERMAX_PER, 800000), (TBS_PHI_PHI, 7200)]
    s.granted .spi addr_TBS_PER 8000 ∧ s.granted .spi addr_TBS_PER 800000 ∧ ¬ (8000 < s.dev.getF TBS_PHI_PHI + 800) ∧
      s.dev.getF TBS_PERMIN_PER = 8000 ∧ s.dev.getF TBS_PERMAX_PER = 800000 ∧ s.dev.thmDoubles = false ∧
      s.granted .spi addr_TBS_PER 7999 ∧ 800001 > s.dev.getF TBS_PERMAX_PER ∧ (running s).granted .spi addr_TBS_PER 8000 := by decide

/-- The due time, and then the deadline, of the period have passed. -/
def wDue (r : Nat) : State := dv (running (st base [(HLM_STAT_RUNNING, r)])) fun d => { d with per := { d.per with duePassed := true } }
def wDead (r : Nat) : State := dv (wDue r) fun d => { d with per := { d.per with deadlinePassed := true } }
theorem witness_HelmRun :
    ((wDue 1).bak.main ∧ (wDue 1).dev.quiet ∧ (wDue 1).dev.per.duePassed ∧ (wDue 1).dev.bit HLM_STAT_RUNNING ∧ (wDue 1).dev.hlm.bad = [] ∧
      (wDue 1).dev.per.running ∧ (wDue 1).dev.per.deadlinePassed = false) ∧
      ((wDue 0).dev.bit HLM_STAT_RUNNING = false ∧ (wDead 1).dev.per.deadlinePassed ∧ (wDead 1).dev.bit HLM_STAT_RUNNING ∧
        (wDead 0).dev.quiet ∧ (wDead 0).dev.per.phiPassed = false) ∧
      (let s := dv (wDead 0) fun d => { d with per := { d.per with phiPassed := true } }
       s.dev.per.deadlinePassed ∧ s.dev.per.phiPassed) ∧
      (dv base fun d => { d with per := { duePassed := true } }).dev.per.running = false := by decide

theorem witness_HelmCommands :
    (base.granted .spi addr_HLM_LOOP 0xFFFF ∧ base.granted .spi addr_HLM_BANKSW 0xFFFF) ∧
      (base.granted .spi (0x200000 + 4 * 0x3FFFF) 5 ∧ (st base [(HLM_GRP_BASE_W 0, 1), (HLM_GRP_LIM_W 0, 1)]).dev.coefOk 0x3FFFF) ∧
      (let s := st base [(HLM_GRP_BASE_W 15, 0x1FFFF), (HLM_GRP_LIM_W 15, 0x1FFFF), (HLM_LOOPST_BANK, 0x8000)]
       s.granted .spi (0x200000 + 4 * 0x3FFFF) 5 ∧ s.dev.coefOk 0x3FFFF = false) ∧
      (base.granted .spi (0x200000 + 4 * 0x5FFFF) 5 ∧ base.granted .spi (0x200000 + 4 * 0x77FFF) 5 ∧ base.dev.noArm ∧
        base.granted .spi (0x200000 + 4 * 0x60000) 5 ∧ base.granted .spi (0x200000 + 4 * 0x7FFFF) 5) ∧
      (st base [(BOT_ARM_EN, 1)]).dev.noArm = false := by decide

def wMember (x : Nat) : State := st base [(BLS_CELL_CFG_IN_ARM 255, 1), (BLS_CELL_ST_STATE 255, x), (BLS_ARM_ADM_HOLD 0, 3)]
theorem witness_MembershipAndPresets :
    (∀ op, op < 4 → (wMember blsActive).granted .spi addr_BLS_CMD (BitVec.ofNat 32 (op * 2 ^ 28 + 255))) ∧
      ((wMember blsActive).dev.bit (BLS_CELL_CFG_IN_ARM 255) ∧ (blsTarget 1 ((wMember blsActive).dev.member 255)).isSome ∧
        (blsTarget 2 ((wMember blsBypassed).dev.member 255)).isSome ∧ (blsTarget 3 ((wMember blsCheck).dev.member 255)).isSome) ∧
      (base.dev.bit (BLS_CELL_CFG_IN_ARM 255) = false ∧ blsTarget 2 ((wMember blsActive).dev.member 255) = none) ∧
      blsTarget (spGet 0 (dv (wMember blsSpare) fun d => { d with bls := { cmds := [(255, 2)] } }).dev.bls.cmds 255) ((wMember blsSpare).dev.member 255) = some blsCheck ∧
      ((wMember blsCheck).dev.member 255 = blsCheck ∧ (running (wMember blsCheck)).dev.per.running ∧ (wMember blsCheck).bak.main) ∧
      (let d := (dv (wMember blsCheck) fun d => { d with bls := { expired := [255] } }).dev
       d.member 255 = blsCheck ∧ 255 ∈ d.bls.expired ∧ d.blsReady 255 = false ∧ d.log.queue.length < 64) ∧
      (base.granted .spi (addr_GWY_CH_PRESET 31) 0x3F800000 ∧ base.dev.noArm ∧ fvIsNan (fdec f32 (0x3F800000 : Word).toNat) = false) ∧
      ((st base [(BOT_ARM_EN, 1)]).granted .spi (addr_GWY_CH_PRESET 0) 0 ∧ (st base [(BOT_ARM_EN, 1)]).dev.noArm = false) := by decide

/-! ### Witnesses: measurement -/

theorem witness_ModulatorClock :
    (let s := st base [(MOD_CTRL_SRC, 1)]
     s.bak.main ∧ s.dev.bit MOD_CTRL_SRC ∧ s.dev.mod.gap = false ∧ s.dev.mod.badFreq = false) ∧
      (dv base fun d => { d with mod := { badFreq := true } }).dev.mod.badFreq ∧ (st base [(MOD_CTRL_SRC, 0)]).dev.bit MOD_CTRL_SRC = false ∧
      (dv base fun d => { d with mod := { gap := true } }).dev.mod.gap ∧
      (let c : Capture := ⟨31, [true], 5⟩
       c.ch < 32 ∧ c.bits ≠ [] ∧ (st base [(MOD_CH_CFG_EN 31, 1)]).dev.bit (MOD_CH_CFG_EN c.ch) ∧ (st base [(MOD_CH_CFG_EN 31, 1)]).dev.rd addr_MTR_STAT = 0) ∧
      (let s := dv (st base [(MOD_STAT_CLK_OK, 0)]) fun d => d.wr addr_MTR_STAT 2
       (∀ k, k < 2 → (s.dev.mtrRuns k ↔ k = 1)) ∧ s.dev.bit (MTR_PT_CFG_SRC 1) = false ∧ s.dev.mtrDc 1 = false ∧
         s.dev.bit MOD_STAT_CLK_OK = false ∧ (s.dev.mtrPt 1).fbN = 0) := by decide

def wSar (busy : Sp (Option SarConv)) : State := dv base fun d => { d with sar := { d.sar with busy := busy } }
theorem witness_SarConversions :
    ((running base).dev.per.running ∧ base.bak.main) ∧
      (let s := st base [(SAR_STAT_CAL, 7), (SAR_STAT_SUB, 7), (SAR_CTRL_CAL_EN, 0), (SAR_SL_LEN_SEQLEN 3, 8)]
       s.dev.per.running = false ∧ s.dev.getF SAR_STAT_CAL = 7 ∧ s.dev.getF SAR_STAT_SUB = 7 ∧ s.dev.bit SAR_CTRL_CAL_EN = false ∧
         s.dev.sar.stage = none ∧ s.dev.sar.subst = none ∧ s.dev.sarBusy 3 = none ∧ 0 < s.dev.getF (SAR_SL_LEN_SEQLEN 3)) ∧
      ((wSar [(4, some ⟨2, 63, 9⟩)]).dev.sarBusy 4 = some ⟨2, 63, 9⟩ ∧ base.dev.sarBusy 4 = none) ∧
      ((running base).dev.drives ∧ (running base).dev.per.duePassed = false ∧ (st base [(MOR_CFG_PAIR, 1)]).dev.drives = false) ∧
      (base.granted .spi addr_SAR_URG 63 ∧ base.dev.sarBusy (base.dev.sarServer 3) = none) ∧
      ((running base).granted .spi addr_SAR_URG 0 ∧ ¬ ((running base).dev.sarNext ≤ (running base).dev.time + nsU 500)) ∧
      ((wSar [(3, some ⟨1, 48, 9⟩)]).granted .spi addr_SAR_URG 63 ∧ ((wSar [(3, some ⟨1, 48, 9⟩)]).dev.sarBusy 3).isSome) ∧
      (let s := dv (st base [(SAR_STAT_CAL, 4)]) fun d => { d with sar := { win := 256, s0 := 100, n0 := 10, s1 := 10 * 32768, n1 := 10 } }
       s.dev.getF SAR_STAT_CAL = 4 ∧ 256 ≤ s.dev.sar.win ∧ (calCoefs 0 0 0 0).isNone) ∧
      base.dev.sar.win < 256 := by decide

theorem witness_SarConversions_offset : ∃ s0 n0 s1 n1 so sg, 0 < n0 ∧ calCoefs s0 n0 s1 n1 = some (so, sg) :=
  ⟨100, 10, 10 * 61450, 10, (calCoefs 100 10 (10 * 61450) 10).get!.1, (calCoefs 100 10 (10 * 61450) 10).get!.2, by decide, by decide⟩

theorem witness_Comparators :
    base.bak.main ∧ (st base [(WCM_CMP_CFG_EN 23, 1)]).dev.bit (WCM_CMP_CFG_EN 23) ∧ base.dev.bit (WCM_CMP_CFG_EN 23) = false ∧
      (let s := st base [(WCM_CMP_CFG_LO_EN 23, 1), (WCM_CMP_CFG_HI_EN 23, 1)]
       s.granted .spi (addr_WCM_CMP_THR 23) 1 ∧ s.dev.bit (WCM_CMP_CFG_LO_EN 23) ∧ s.dev.bit (WCM_CMP_CFG_HI_EN 23) ∧
         (1 : Word).toNat / 2 ^ 16 % 1024 < (1 : Word).toNat % 1024 ∧ s.granted .spi (addr_WCM_CMP_THR 23) 0x03FF03FF) := by decide

theorem witness_MeteringEvents :
    (let s := dv base fun d => d.wr addr_MTR_STAT 2
     s.bak.main ∧ s.dev.mtrRuns 1 ∧ s.dev.mtrDc 1 = false ∧ 2 < s.dev.mtrEls 1 ∧ s.dev.getF (MTR_PT_ZST_LOSS 1) / 2 ^ 2 % 2 = 0 ∧
       s.dev.log.queue.length < 64) ∧
      base.dev.mtrRuns 0 = false ∧
      (let s := dv (st base [(MTR_PT_ZST_FALLBACK 1, 1)]) fun d => d.wr addr_MTR_STAT 2
       s.dev.mtrRuns 1 ∧ s.dev.mtrDc 1 = false ∧ s.dev.bit (MTR_PT_ZST_FALLBACK 1) ∧ (s.dev.mtrPt 1).buf = []) ∧
      (base.granted .spi addr_MTR_ECLR 0x80000000 ∧ (0x80000000 : Word).toNat = 2 ^ 31) ∧
      (let s := st base [(MTR_CTRL_EN, 1), (MTR_MP_CFG_EN 3, 1), (MTR_MP_ST_PIN 3, 0), (MTR_MP_ST_BKLG 3, 1), (MTR_MP_CFG_WIDTH 3, 100)]
       s.dev.getF MTR_CTRL_EN = 1 ∧ s.dev.bit (MTR_MP_CFG_EN 3) ∧ s.dev.bit (MTR_MP_ST_PIN 3) = false ∧ 0 < s.dev.getF (MTR_MP_ST_BKLG 3) ∧
         s.dev.getF (MTR_MP_CFG_WIDTH 3) ≤ 100) ∧
      (st base [(MTR_MP_ST_PIN 3, 1)]).dev.bit (MTR_MP_ST_PIN 3) := by decide

/-! ### Witnesses: trip matrix and safety island -/

/-- Source 0 mapped to every group and enabled, no group latched, every pin known and inactive. -/
def wTrip (act : Nat) : State :=
  dv (dv base fun d => { d with saf := false }) fun d => ((((d.wr addr_TRP_EN0 1).setF (TRP_MAP_GROUPS 0) 0xFFFF).setF TRP_STAT_KNOWN 0xFFFF).wrN addr_TRP_LEVEL0 act).setF TRP_STAT_LATCH 0
theorem witness_TripMatrix :
    ((wTrip 0).bak.main ∧ (wTrip 0).dev.srcActive 0 = false ∧ (∀ g, g < 16 → (wTrip 0).dev.isLatched g = false)) ∧
      ((wTrip 0).dev.pinKnown 15 ∧ (wTrip 0).dev.srcBit addr_TRP_LEVEL0 addr_TRP_LEVEL1 (24 + 15) = false) ∧
      base.dev.pinKnown 15 = false := by decide
theorem witness_TripMatrix_pull : (wTrip 0).dev.pulls [0] 15 0 ∧ ∀ r, r < 0 → ¬ (wTrip 0).dev.pulls [0] 15 r :=
  ⟨⟨by decide, .inr (by decide), by decide, by decide⟩, fun r h => absurd h (Nat.not_lt_zero r)⟩

/-- Group 15 latched, of which source 0 is the only enabled one. -/
def wClr (act : Nat) : State := dv (wTrip act) fun d => (d.setF TRP_STAT_LATCH 0x8000).setF (TRP_GRP_FIRST_SRC 15) 0
theorem wClr_free (q : Nat) : ¬ (wClr 0).dev.pulls [] 15 q := by
  rintro ⟨hq, ha, he, -⟩
  have k : ∀ q, q < 64 → (wClr 0).dev.srcActive q = true →
      (wClr 0).dev.srcEnabled q = true → False := by decide
  exact k q hq (ha.resolve_right (by simp)) he
theorem witness_TripClears :
    ((wClr 0).granted .spi addr_TRP_CLR 0x8000 ∧ (wClr 0).dev.isLatched 15 ∧ (wClr 0).dev.isLatched 14 = false) ∧
      (let s := st (wClr 0) [(TRP_GRP_REARM_EN 15, 1), (TRP_GRP_REARM_TRIES 15, 1), (TRP_GRP_REARM_SAFSEEN 15, 0)]
       s.dev.drives ∧ s.dev.bit (TRP_GRP_REARM_EN 15) ∧ s.dev.isLatched 15 ∧ s.dev.bit (TRP_GRP_REARM_SAFSEEN 15) = false ∧
         s.dev.getF (TRP_GRP_FIRST_SRC 15) ≠ 0x7F ∧ s.dev.getF (TRP_GRP_REARM_COUNT 15) < s.dev.getF (TRP_GRP_REARM_TRIES 15) ∧
         s.dev.bit (TRP_GRP_REARM_EXH 15) = false) ∧
      (let d := (st (wClr 0) [(TRP_GRP_REARM_TRIES 15, 1), (TRP_GRP_REARM_COUNT 15, 1)]).dev
       ¬ (d.getF (TRP_GRP_REARM_COUNT 15) < d.getF (TRP_GRP_REARM_TRIES 15))) ∧ (wClr 0).dev.bit (TRP_GRP_REARM_EN 15) = false := by
  decide
theorem witness_TripClears_pull : (wClr 1).dev.pulls [] 15 0 := ⟨by decide, .inl (by decide), by decide, by decide⟩

/-- The island in a state, its switches all closed but those of EN0 to EN7. -/
def wIsl (x : Nat) : State := stI base [(SAF_STAT_STATE, x), (SAF_STAT_SEAL, 1), (SAF_SW_USE, 0x4000)]
theorem witness_IslandStart :
    ((wIsl safStart).bak.main ∧ (wIsl safStart).safClocked ∧ (wIsl safStart).safState = safStart ∧ (wIsl safStart).isl.lost = 0) ∧
      (stI (wIsl safStart) [(SAF_SEAL_N_COUNT, 1)]).isl.getF SAF_SEAL_N_COUNT ≠ 0 ∧ (wIsl safRun).safState ≠ safStart ∧
      ((wIsl safRun).safClocked ∧ (wIsl safRun).isl.use ≠ 0 ∧ (wIsl safRun).isl.swN = 0 ∧ (wIsl safRun).isl.use = 0x4000) ∧
      (let s : State := { wIsl safRun with isl := { (wIsl safRun).isl with swN := 1 } }
       s.safState ≠ safStart ∧ s.isl.use ≠ 65535 ∧ 0 < s.isl.swN ∧ s.isl.bit SAF_STAT_SW_PEND = false) := by decide
theorem wIsl_runs : (wIsl safRun).safRuns := ⟨by decide, by decide, by decide⟩

def wIns (l : List Nat) : State := { wIsl safRun with isl := { (wIsl safRun).isl with ins := l } }
theorem witness_SafetyInputs :
    ((wIsl safRun).safClocked ∧ (wIsl safRun).isl.ins.length = 8) ∧
      (let s := stI (wIns (List.replicate 8 inClosed)) [(SAF_SW_USE, 0x40FF)]
       s.isl.ins.getD 6 inOpen = inClosed ∧ swBit s.isl.use 6 ∧ keyInput s.isl.use 6 = false ∧ inClosed ≤ inDiscrepant ∧ s.isl.ins.length = 8) ∧
      ((wIns (List.replicate 8 inOpening)).isl.ins.getD 7 inOpen = inOpening ∧ (wIns (List.replicate 8 inClosing)).isl.ins.getD 7 inOpen = inClosing ∧
        inOpen ≠ inOpening ∧ inOpen ≠ inClosing ∧ swBit (wIns []).isl.use 7 = false) ∧
      ((wIsl safLockout).isl.lorHeld = false ∧ (wIsl safLockout).safState = safLockout ∧ (5 * 6553 < 32768) ∧ 32768 ≤ 5 * 6554) ∧
      ({ (wIsl safLockout) with isl := { (wIsl safLockout).isl with lorHeld := true } } : State).isl.lorHeld := by decide

theorem witness_SelfChecksAndSeal :
    ((wIsl safRun).bak.main ∧ (wIsl safStart).safState ≠ safRun ∧ (wIsl safRun).isl.lost % 2 = 0 ∧ (wIsl safRun).isl.lost < 2) ∧
      (∀ n, n < 4 → ({ (wIsl safRun) with isl := { (wIsl safRun).isl with lost := n } } : State).isl.lost = n) ∧
      ((wIsl safRun).safState ≠ safLockout ∧ (wIsl safLockout).safState = safLockout) ∧
      ((wIsl safRun).safClocked ∧ (wIsl safRun).isl.bit SAF_STAT_SEAL ∧ (stI base [(SAF_STAT_SEAL, 0)]).isl.bit SAF_STAT_SEAL = false) ∧
      ({ base with bak := { base.bak with main := false } } : State).bak.main = false ∧
      ((wIsl safRun).granted .spi addr_SAF_CTRL 2 ∧ (wIsl safRun).granted .spi addr_SAF_CTRL 1 ∧ (wIsl safLockout).granted .spi addr_SAF_CTRL 1 ∧
        (stI base [(SAF_STAT_SEAL, 0)]).granted .spi addr_SAF_CTRL 2) := by decide

/-! ### Witnesses: process bus -/

def wNet : State := st base [(NET_PCFG_EN 0, 1), (NET_PCFG_EN 1, 1), (NET_PCFG_EN 2, 1), (NET_STAT2_LINK, 7)]
def wEth : EthRx := { port := 2, src := 2 ^ 48 - 1, rct := none, vid := none }
theorem witness_Ports :
    (wNet.bak.main ∧ (∀ p, p < 4 → 1 ≤ p → wNet.dev.linkUp p ∧ base.dev.linkUp p = false) ∧ wNet.dev.log.queue.length < 64) ∧
      ((st wNet [(NET_STAT2_LINK, 0)]).dev.linkUp 3 = false ∧ wNet.dev.portUsed 3 ∧ base.dev.portUsed 3 = false) ∧
      (let e : EthRx := { wEth with rct := some (65535, false) }
       e.port = 2 ∧ wNet.dev.portOn e.port ∧ e.rct = some (65535, false)) ∧
      (let s := dv wNet fun d => { d with net := { nodes := [5], dups := [(5, 65535)] } }
       5 ∈ s.dev.net.nodes ∧ (5, 65535) ∈ s.dev.net.dups ∧ (5, 0) ∉ s.dev.net.dups ∧ wEth.src ∉ s.dev.net.nodes ∧ s.dev.net.nodes.length < 256) ∧
      256 ≤ (dv wNet fun d => { d with net := { nodes := List.range 256 } }).dev.net.nodes.length ∧
      (wNet.dev.portOn 1 ∧ wNet.dev.portOn 3 ∧ (st wNet [(NET_PCFG_STORM 2, 1)]).dev.getF (NET_PCFG_STORM (3 - 1)) ≠ 0) := by decide

def wSv (x : Nat) : State :=
  st wNet [(SVX_SUB_CFG_EN 31, 1), (SVX_SUB_ID 31, 0x40), (SVX_SUB_HASH 31, 9), (SVX_SUB_CONF 31, 2), (SVX_SUB_CFG_LEARN_N 31, 2),
    (SVX_SUB_ST_STATE 31, x), (SVX_SLOT_CFG_EN 255, 1), (SVX_SLOT_CFG_STREAM 255, 31)]
def wSvF : SvFrame :=
  { eth := wEth, ident := 0x40, hash := 9, confRev := 2, test := false, sim := false, smpSynch := 2, asdus := [(3, List.replicate 64 (5, 0))], tIn := 7 }
theorem wSv_to (x : Nat) (h : x < 4) : (wSv x).dev.svTo wSvF 31 := by
  have k : ∀ x, x < 4 → (wSv x).dev.portOn 2 ∧ (wSv x).dev.bit (SVX_SUB_CFG_EN 31) ∧ (wSv x).dev.getF (SVX_SUB_ID 31) = 0x40 ∧
      ∀ k, k < 32 → k ≠ 31 → (wSv x).dev.bit (SVX_SUB_CFG_EN k) = false ∨ (wSv x).dev.getF (SVX_SUB_ID k) % 65536 ≠ 0x40 % 65536 := by decide
  obtain ⟨a, b, c, e⟩ := k x h
  exact ⟨⟨.inr rfl, a, rfl⟩, by decide, b, c, e⟩
theorem wSv_fits : (wSv 2).dev.svFits wSvF 31 := by
  refine ⟨by decide, by decide, rfl, rfl, by decide, ?_, by decide⟩
  decide
theorem witness_SampledValues :
    ((st base [(SVX_PUB_CFG_EN 7, 1), (SVX_PUB_CFG_NASDU 7, 2)]).dev.bit (SVX_PUB_CFG_EN 7) ∧ base.dev.drives ∧
      0 < (st base [(SVX_PUB_CFG_NASDU 7, 2)]).dev.getF (SVX_PUB_CFG_NASDU 7) ∧ base.dev.bit (SVX_PUB_CFG_EN 7) = false) ∧
      (∀ x, x < 4 → (wSv x).dev.svState 31 = x) ∧ ((wSv 2).bak.main ∧ (wSv 2).dev.log.queue.length < 64 ∧ wSvF.eth.src < 2 ^ 48) ∧
      ((wSv 2).dev.getF (SVX_SUB_HASH 31) = wSvF.hash ∧ (wSv 2).dev.getF (SVX_SUB_HASH 31) ≠ 10 ∧ (wSv 2).dev.getF (SVX_SUB_CONF 31) ≠ 3) ∧
      1 < (wSv 0).dev.getF (SVX_SUB_CFG_LEARN_N 31) ∧
      ((wSv 2).dev.svSource 31 ≠ wSvF.eth.src ∧ { wSvF.eth with src := (wSv 2).dev.svSource 31 }.src < 2 ^ 48) ∧
      (wSv 2).dev.bit (SVX_SLOT_CFG_EN 255) ∧ (wSv 2).dev.getF (SVX_SLOT_CFG_STREAM 255) = 31 := by decide

def wGse (x : Nat) : State :=
  st wNet [(GSE_SUB_CFG_EN 127, 1), (GSE_SUB_ID 127, 0x40), (GSE_SUB_HASH 127, 9), (GSE_SUB_CONF 127, 2), (GSE_SUB_ST_STATE 127, x),
    (GSE_SUB_STNUM 127, 2 ^ 32 - 1), (GSE_SUB_SQNUM 127, 7), (GSE_GB_SUB 63, 127), (GSE_PUB_CFG_EN 15, 1), (GSE_PUB_CFG_NELEM 15, 1)]
def wGoose : GooseMsg :=
  { eth := wEth, ident := 0x40, hash := 9, confRev := 2, ndsCom := false, test := false, sim := false, stNum := 1, sqNum := 0, tal := 2000,
    data := [some true] }
theorem wGse_to : (wGse 2).dev.gooseTo wGoose 127 := by
  refine ⟨⟨.inr rfl, by decide, rfl⟩, by decide, by decide, by decide, by decide, ?_⟩
  decide
theorem witness_Goose :
    ((wGse 2).bak.main ∧ (wGse 2).dev.bit (GSE_PUB_CFG_EN 15) ∧ (wGse 2).dev.drives ∧
      (dv (wGse 2) fun d => { d with gse := { pub := [(15, { data := some [true] })] } }).dev.gsePub 15 = { data := some [true] }) ∧
      ((wGse 2).dev.getF (GSE_SUB_CONF 127) = wGoose.confRev ∧ (wGse 2).dev.getF (GSE_SUB_CONF 127) ≠ 3 ∧ { wGoose with ndsCom := true }.ndsCom) ∧
      ((wGse 2).dev.bit (GSE_SUB_CFG_VCHK 127) = false ∧ (wGse 2).dev.gseTypesOk 127 wGoose) ∧
      (∀ x, x < 4 → (wGse x).dev.gseState 127 = x) ∧ (wGse 2).dev.getF (GSE_SUB_STNUM 127) = 2 ^ 32 - 1 ∧
      (serialAfter 32 8 7 ∧ serialAfter 32 7 7 = false) := by decide

/-! ### Witnesses: mooring -/

/-- A paired device in a mooring state, bond up, partner found. -/
def wMor (x : Nat) : State := st base [(MOR_CFG_PAIR, 1), (MOR_STAT_STATE, x), (LNK_STAT_BOND_ST, 2), (MOR_PEER_PAIR_OK, 1)]
def wMorUp (s : State) : State := laneUp (laneUp (laneUp (laneUp s 64) 65) 66) 67
def wPair : PairFrame :=
  { roleB := true, stepping := fldGet 16 8 (base.dev.rd addr_MGT_ID), fw := 0, ident := 0, state := morStart, epoch := 65535 }
theorem witness_MooringLink_pair :
    ((wMor morStart).bak.main ∧ (wMor morStart).dev.paired ∧ (wMor morStart).dev.quiet ∧ (wMor morStart).dev.bondState = 2 ∧
      wPair.state ≤ 5 ∧ wPair.epoch < 65536) ∧
      (st (wMor morStart) [(LNK_STAT_BOND_ST, 1)]).dev.bondState ≠ 2 ∧
      (wPair.roleB ≠ (wMor morStart).dev.bit MOR_STAT_ROLE ∧ wPair.stepping = fldGet 16 8 ((wMor morStart).dev.rd addr_MGT_ID) ∧
        wPair.fw = (wMor morStart).dev.getF BOT_FWVER ∧ wPair.ident = (wMor morStart).dev.mor.ident) ∧
      ((wMor morStart).dev.morState = morStart ∧ (st (wMor morStart) [(MOR_STAT_ROLE, 1)]).dev.bit MOR_STAT_ROLE ∧
        (wMor morStart).dev.bit MOR_STAT_ROLE = false) ∧
      (let s := wMorUp (wMor morStart)
       s.dev.quiet ∧ (∀ m, m < 4 → s.dev.txUp (64 + m)) ∧ s.dev.mor.peer = none) := by decide

def wPer : PeriodFrame :=
  { state := morHolder, epoch := 0, mis := 0, fresh := [], sk := 400000, digest := 0, sar := [1], sv := [2], corr := 0,
    goose := [(15, 1, 0, [])], cmds := [] }
theorem witness_MooringLink_period :
    ((running (wMor morStandby)).dev.quiet ∧ wPer.state ≤ 5 ∧ wPer.epoch < 65536 ∧ (running (wMor morStandby)).dev.peerUp ∧
      wPer.state = morHolder ∧ wPer.cmds = [] ∧ (∀ g ∈ wPer.goose, g.1 < 16) ∧ (running (wMor morStandby)).dev.per.started) ∧
      base.dev.peerUp = false ∧ (wMor morStandby).dev.morState = morStandby ∧
      ((running (wMor morStandby)).dev.per.running ∧ wPer.digest = (wMor morStandby).dev.mor.digPrev ∧ wPer.digest + 1 ≠ (wMor morStandby).dev.mor.digPrev ∧
        wPer.sk ≠ (running (wMor morStandby)).dev.per.sk + 1) ∧
      ((wMor morHolder).dev.morState = morHolder ∧ (st (wMor morHolder) [(MOR_STAT_ROLE, 1)]).dev.bit MOR_STAT_ROLE ∧
        (wMor morHolder).dev.bit MOR_STAT_ROLE = false) := by decide

theorem witness_MooringLink_deadline :
    ((running (wMor morStandby)).dev.per.running ∧ (wMor morStandby).dev.mor.hb = false ∧ (wMor morStandby).dev.mor.drive = false ∧
      (wMor morStandby).dev.bit MOR_CTRL_NOCLAIM = false ∧ (wMor morStandby).dev.mor.mirrored = false) ∧
      ((dv (wMor morUnfit) fun d => { d with mor := { hb := true, mirrored := true } }).dev.mor.hb ∧
        (st (wMor morUnfit) [(MOR_CFG_UNFIT_CLAIM, 1)]).dev.bit MOR_CFG_UNFIT_CLAIM) ∧
      (let s := st (wMor morStandby) [(MOR_CFG2_TOFS_LIM, 10)]
       (10 : Int).natAbs ≤ s.dev.getF MOR_CFG2_TOFS_LIM ∧ s.dev.getF MOR_CFG2_TOFS_LIM < (11 : Int).natAbs ∧ s.dev.morState = morStandby) ∧
      (∀ xs ∈ [[(5000 : Int)]], 0 ≤ xs.foldl (· + ·) 0 ∧ xs.foldl (· + ·) 0 < 2 * (xs.length : Int) * (2 ^ 24 - 1)) := by decide

theorem witness_MooringStates :
    ((wMor morSync).bak.main ∧ (wMor morSync).dev.paired ∧ (wMor morSync).dev.quiet ∧ (wMor morSync).dev.peerUp ∧ (wMor morSync).dev.morState = morSync) ∧
      syncReg addr_HLM_LOOPST ∧ (wMor morStandby).dev.morState ≠ morSync ∧
      ((wMor morStandby).dev.quiet ∧ (wMor morStandby).dev.peerUp ∧ (wMor morStandby).dev.morState = morStandby) ∧
      (let s := st (wMor morStart) [(LNK_STAT_BOND_ST, 0)]
       s.dev.morState = morStart ∧ s.dev.bondState ≠ 2 ∧ s.dev.mor.drive = false) ∧
      (wMor morUnfit).dev.morState ≠ morStart := by decide

def wHo : State := st (wMor morHolder) [(MOR_PEER_STATE, morStandby), (MOR_CTRL_NOCLAIM, 0)]
theorem witness_MooringStates_commands :
    (wHo.dev.paired ∧ wHo.granted .spi addr_MOR_CTRL 1 ∧ (1 : Word) = BitVec.ofNat 32 (Nat.lor 1 (4 * wHo.dev.getF MOR_CTRL_NOCLAIM)) ∧
      wHo.dev.morState = morHolder ∧ wHo.dev.peerUp ∧ wHo.dev.getF MOR_PEER_STATE = morStandby ∧ wHo.dev.mor.peerMis = 0 ∧ wHo.dev.mor.ho = none ∧
      wHo.dev.quiet) ∧
      (st wHo [(MOR_PEER_STATE, morUnfit)]).dev.getF MOR_PEER_STATE ≠ morStandby ∧
      ((wMor morUnfit).granted .spi addr_MOR_CTRL 1 ∧ (wMor morUnfit).dev.morState ≠ morHolder) ∧
      (wHo.granted .spi addr_MOR_CTRL 2 ∧ (2 : Word) = BitVec.ofNat 32 (Nat.lor 2 (4 * wHo.dev.getF MOR_CTRL_NOCLAIM))) ∧
      (let s := st (wMor morUnfit) [(MOR_PEER_STATE, morHolder)]
       s.granted .spi addr_MOR_CTRL 2 ∧ s.dev.morState = morUnfit ∧ s.dev.peerUp ∧ s.dev.getF MOR_PEER_STATE = morHolder ∧ s.dev.mor.claim = false) ∧
      (let s := st (wMor morUnfit) [(MOR_PEER_PAIR_OK, 0)]
       s.granted .spi addr_MOR_CTRL 2 ∧ s.dev.morState = morUnfit ∧ s.dev.peerUp = false) := by decide

/-! ### Witnesses: resets and power -/

theorem witness_Resets :
    (base.bak.main ∧ (st base [(BOT_STAT_SLIPWAY, 1)]).dev.bit BOT_STAT_SLIPWAY ∧ base.dev.bit (CRG_PLL_LOCK 3)) ∧
      (let s := st base [(CRG_PLL_LOCK 3, 0), (CRG_STAT_PSTATE, 1)]
       s.dev.bit (CRG_PLL_LOCK 3) = false ∧ s.dev.applied ∧ s.dev.getF CRG_STAT_PSTATE ≠ 3) ∧
      (base.dev.bit BOT_STAT_SLIPWAY = false ∧ (base.dev.brtc + 2 ^ 55 - base.bak.startT) % 2 ^ 55 < 60 * 32768 ∧ base.dev.getF BOT_FAILS_COUNT < 2 ∧
        (st base [(BOT_FAILS_COUNT, 1)]).dev.getF BOT_FAILS_COUNT < 2) ∧
      ({ base with bak := { base.bak with main := false } } : State).bak.main = false := by decide

theorem witness_ResetCommands :
    (base.bak.main ∧ base.dev.log.queue.length < 64) ∧
      (base.granted .spi addr_CRG_SWRST 0xA55A ∧ base.dev.noArm ∧ base.dev.crg.swFirst = none) ∧
      (let s := dv base fun d => { d with crg := { d.crg with swFirst := some 0 } }
       s.granted .spi addr_CRG_SWRST 0x5AA5 ∧ s.dev.noArm ∧ s.dev.crg.swFirst = some 0 ∧ s.dev.time ≤ 0 + nsU 1000000) ∧
      (st base [(BOT_ARM_EN, 1)]).granted .spi addr_CRG_SWRST 0xA55A ∧
      (base.granted .spi addr_CRG_BRST 0x01000000 ∧ 2 ^ 24 ≤ (0x01000000 : Word).toNat) ∧
      (∀ b, b < 24 → base.granted .spi addr_CRG_BRST (BitVec.ofNat 32 (2 ^ b))) ∧
      ((st base [(BOT_ARM_EN, 1)]).granted .spi addr_CRG_BRST 0x200000 ∧ (st base [(BOT_ARM_EN, 1)]).dev.noArm = false) ∧
      base.granted .spi addr_CRG_CNTCLR 0x00FFFFFF := by decide

theorem witness_ClocksAndPower :
    (base.bak.main ∧ base.dev.crg.retry = false ∧ (st base [(CRG_PLL_STATE 3, 1)]).dev.getF (CRG_PLL_STATE 3) ≠ 2 ∧ base.dev.getF CRG_STAT_PSTATE ≠ 3) ∧
      (State.reset.dev.bit (CRG_PLL_LOCK 3) = false ∧ State.reset.dev.applied = false) ∧
      (base.granted .spi addr_CRG_PWR 1 ∧ base.dev.getF CRG_STAT_PSTATE = 0) ∧
      ((st base [(CRG_STAT_PSTATE, 2)]).granted .spi addr_CRG_PWR 1 ∧ (st base [(CRG_STAT_PSTATE, 2)]).dev.getF CRG_STAT_PSTATE ∉ [0, 3] ∧ base.dev.noArm) ∧
      ((st base [(CRG_STAT_PSTATE, 3)]).granted .spi addr_CRG_PWR 1 ∧ (st base [(CRG_STAT_PSTATE, 3)]).dev.getF CRG_STAT_PSTATE = 3) ∧
      ((st base [(CRG_STAT_PSTATE, 3)]).granted .spi addr_CRG_PWR 0 ∧ base.granted .spi addr_CRG_PWR 0) ∧
      (base.dev.crg.aocLost = false ∧ (dv base fun d => { d with crg := { d.crg with aocLost := true } }).dev.crg.aocLost) := by decide

/-! ### Witnesses: boot -/

def wEnv : StartEnv :=
  { role := false, testen := false, refclk := true, bands := [some 1, some 2, some 3, some 4], test := [], temps := List.replicate 9 200, keyOk := true,
    mbit := 256, cells := [], permit := [] }
theorem witness_Starts :
    (State.reset.canStart false ∧ wEnv.testen = false ∧ State.reset.canStart true = false ∧
      (dv State.reset fun d => { d with crg := { d.crg with retry := true } }).canStart true) ∧
      ({ wEnv with refclk := false }.refclk = false ∧ wEnv.refclk ∧ wEnv.keyOk ∧ 256 ≤ wEnv.mbit) ∧
      (State.reset.dev.bit (CRG_PLL_LOCK 3) = false ∧ ({ wEnv with bands := [some 1, some 2, some 3] }.bands.getD 3 none).isSome = false ∧
        (∀ m, m < 3 → ({ wEnv with bands := [some 1, some 2, some 3] }.bands.getD m none).isSome) ∧ (∀ n, n < 4 → (wEnv.bands.getD n none).isSome)) ∧
      (State.reset.dev.getF BOT_FAILS_COUNT < 3 ∧ 3 ≤ (st State.reset [(BOT_FAILS_COUNT, 3)]).dev.getF BOT_FAILS_COUNT) ∧
      ((dv State.reset fun d => { d with crg := { d.crg with fromPor := false } }).dev.crg.fromPor = false ∧
        (dv State.reset fun d => { d with crg := { d.crg with fromPor := true } }).dev.crg.fromPor) ∧
      (wEnv.test = [] ∧ { wEnv with test := [(0x11, 0)] }.test = (0x11, 0) :: [] ∧ { wEnv with mbit := 255 }.mbit < 256) := by decide

theorem one_differs (F G : State → Nat) (P : State → Prop) (a b : State) (hF : F a = F b) (hG : G a ≠ G b) (ha : P a) (hb : P b) :
    ∃ s, P s ∧ F s ≠ G s := by
  by_cases h : F a = G a
  · exact ⟨b, hb, fun e => hG (h.symm.trans (hF.trans e))⟩
  · exact ⟨a, ha, h⟩
def wKid (v : Word) : State := dv (st State.reset [(BOT_FAILS_COUNT, 3)]) fun d => ({ d with crg := { d.crg with fromPor := true } }).wr addr_BOT_KIDS_LO v
theorem witness_Starts_key : ∃ s : State, (s.dev.crg.fromPor = true ∧ 3 ≤ s.dev.getF BOT_FAILS_COUNT) ∧ keyIdent s.key ≠ s.dev.kids := by
  have k : (wKid 0).key = (wKid 5).key := rfl
  exact one_differs (fun s => keyIdent s.key) (fun s => s.dev.kids) _ (wKid 0) (wKid 5) (congrArg keyIdent k) (by decide) (by decide) (by decide)

theorem witness_BootControl :
    (base.bak.main ∧ (st base [(BOT_STAT_STAGE, 1)]).dev.getF BOT_STAT_STAGE = 1 ∧ base.dev.getF BOT_STAT_STAGE ≠ 1 ∧ base.dev.log.queue.length < 64) ∧
      ((st base [(BOT_STAT_SLIPWAY, 1)]).granted .spi addr_BOT_CTRL 0x5A1A0021 ∧ (0x5A1A0021 : Word).toNat / 2 ^ 16 = 0x5A1A ∧
        (0x5A1A0021 : Word).toNat / 16 % 4 = 2) ∧
      (base.granted .spi addr_BOT_CTRL 0x22 ∧ base.dev.bit BOT_STAT_SLIPWAY = false ∧ base.dev.noArm) ∧
      (base.granted .spi addr_BOT_CTRL 0 ∧ base.granted .spi addr_BOT_CTRL 3 ∧ base.granted .spi addr_BOT_CTRL 0x32) ∧
      (base.granted .spi addr_BOT_SVNBURN 0xA51E0000 ∧ (0xA51E0000 : Word).toNat / 2 ^ 16 = 0xA51E ∧ base.granted .spi addr_BOT_SVNBURN 0) := by decide

def wKey (a : Nat) : State := dv { base with key := [(0x1FFFF00, 0x5A)] } fun d => d.setF BOT_KADDR_ADDR a
theorem witness_KeyCommands :
    (∀ op, op < 5 → op = 0 ∨ (wKey 0x1FF0000).granted .spi addr_BOT_KCMD (BitVec.ofNat 32 op)) ∧
      (base.bak.main ∧ (stI (st base [(MGT_STAT_SPI_GRANT, 1)]) [(SAF_STAT_KEY, 0)]).dev.judge
        ((stI (st base [(MGT_STAT_SPI_GRANT, 1)]) [(SAF_STAT_KEY, 0)]).classOf .spi) addr_BOT_KCMD 1 = stR10) ∧
      ((wKey 0x1FF0000).dev.kcmd = none ∧ (wKey 0x1FF0000).keyWf ∧
        (∀ n ∈ [256, 4096, 65536], (wKey 0x1FF0000).dev.getF BOT_KADDR_ADDR % n = 0 ∧ (wKey 0x1FF0000).dev.getF BOT_KADDR_ADDR + n ≤ 0x2000000) ∧
        (wKey 0x1FF0000).dev.getF BOT_KADDR_ADDR / 0x1000000 ≠ (wKey 0x1FF0000).dev.getF BOT_STAT_SLOT) ∧
      ((wKey 1).dev.getF BOT_KADDR_ADDR % 256 ≠ 0 ∧ (wKey 1).granted .spi addr_BOT_KCMD 1) ∧
      (let s := dv base fun d => { d with kcmd := some { op := 2, addr := 0x1FFFF00, bytes := List.replicate 256 255, want := [] } }
       s.dev.kcmd.isSome ∧ s.bak.main) := by decide

/-- In RUN outside Slipway mode, stepped, arm 7 configured. -/
def wArm : State := st base [(CRG_STAT_PSTATE, 1), (TBS_STAT_STEPPED, 1), (BLS_ARM_CFG_EN 7, 1), (TBS_PER_PER, 100000)]
theorem witness_ArmCommands :
    (wArm.granted .spi addr_BOT_ARM_SET 0x80 ∧ wArm.granted .spi addr_BOT_ARM_CLR 0x80 ∧ wArm.dev.applied ∧ wArm.dev.bit BOT_STAT_SLIPWAY = false ∧
      wArm.dev.getF CRG_STAT_PSTATE ≠ 3 ∧ wArm.dev.bit TBS_STAT_STEPPED ∧
      (∀ n, n < 8 → (0x80 : Word).toNat / 2 ^ n % 2 = 1 → wArm.dev.bit (BLS_ARM_CFG_EN n)) ∧ wArm.dev.paired = false ∧ wArm.dev.log.queue.length < 64) ∧
      (wArm.dev.per.started = false ∧ 0 < wArm.dev.getF TBS_PER_PER) ∧
      (base.granted .spi addr_BOT_ARM_SET 0 ∧ base.granted .spi addr_BOT_ARM_CLR 0 ∧ base.dev.applied = false) ∧
      ((st wArm [(CRG_STAT_PSTATE, 3)]).granted .spi addr_BOT_ARM_SET 0x80 ∧ (st wArm [(CRG_STAT_PSTATE, 3)]).dev.applied) ∧
      ((st wArm [(TBS_STAT_STEPPED, 0)]).granted .spi addr_BOT_ARM_SET 0x80 ∧ (st wArm [(TBS_STAT_STEPPED, 0)]).dev.bit TBS_STAT_STEPPED = false) ∧
      (wArm.granted .spi addr_BOT_ARM_SET 0x40 ∧ (0x40 : Word).toNat / 2 ^ 6 % 2 = 1 ∧ wArm.dev.bit (BLS_ARM_CFG_EN 6) = false) ∧
      (let s := st wArm [(MOR_CFG_PAIR, 1)]
       s.bak.main ∧ s.dev.judge (s.classOf .spi) addr_BOT_ARM_SET 0x80 = stDone ∧ s.dev.drives = false) ∧
      (let s := st wArm [(MGT_STAT_SPI_GRANT, 1)]
       s.dev.judge (s.classOf .spi) addr_BOT_ARM_SET 0x80 = stR10 ∧ s.dev.drives) := by decide

/-! ### Witnesses: Logbook, Manifest, thermal -/

def wRec (sev seq : Nat) : LogRec :=
  { sev := sev, frz := false, syncQ := 0, src := 22, plen := 1, code := 0x1000, seq := seq, time := 0, brtc := 0, pay := [0], chn := 0 }
def wQueue (sev : Nat) : State := dv base fun d => { d with log := { d.log with queue := [wRec sev 70000] } }
/-- The record area full: record `n` in slot `n`. -/
def fullSlots (sev : Nat) : List (Nat × Option LogRec) := (List.range 65536).map fun n => (n, some (wRec sev n))
def wFilled (l : List (Nat × Option LogRec)) : State := dv (wQueue 3) fun d => { d with mram := { d.mram with slots := l } }
theorem wFilled_slots (l : List (Nat × Option LogRec)) : (wFilled l).dev.mram.slots = l := rfl
def wFull (sev : Nat) : State := wFilled (fullSlots sev)
theorem wFull_slots (sev : Nat) : (wFull sev).dev.mram.slots = (List.range 65536).map fun n => (n, some (wRec sev n)) := by
  unfold wFull; rw [wFilled_slots, fullSlots]
theorem wFull_mem (sev n : Nat) (y : LogRec) : (n, some y) ∈ (wFull sev).dev.mram.slots ↔ n < 65536 ∧ y = wRec sev n := by
  rw [wFull_slots, List.mem_map]
  constructor
  · rintro ⟨k, hk, e⟩
    have e1 : k = n := congrArg Prod.fst e
    have e2 : some (wRec sev k) = some y := congrArg Prod.snd e
    rw [e1] at hk e2
    exact ⟨List.mem_range.1 hk, (Option.some.inj e2).symm⟩
  · rintro ⟨h, e⟩
    exact ⟨n, List.mem_range.2 h, by rw [e]⟩
theorem wFull_key (sev n : Nat) (h : n < 65536) : n ∈ (wFull sev).dev.mram.slots.map (·.1) :=
  List.mem_map.2 ⟨(n, some (wRec sev n)), (wFull_mem sev n _).2 ⟨h, rfl⟩, rfl⟩

theorem witness_RecordStored :
    (base.bak.main ∧ base.dev.log.queue = []) ∧ ((wQueue 7).dev.log.queue = wRec 7 70000 :: [] ∧ (wQueue 7).dev.bit LOG_STAT_FROZEN = false) ∧
      (0 ∉ (wQueue 7).dev.mram.slots.map (·.1) ∧ ∀ m, m < 0 → m ∈ (wQueue 7).dev.mram.slots.map (·.1)) ∧
      (st (wQueue 7) [(LOG_STAT_FROZEN, 1)]).dev.bit LOG_STAT_FROZEN ∧ (wQueue 7).dev.log.fbuf.length < 256 ∧
      256 ≤ (dv base fun d => { d with log := { d.log with fbuf := List.replicate 256 (wRec 0 0) } }).dev.log.fbuf.length ∧
      (wRec 5 0).sev < 6 ∧ 6 ≤ (wRec 6 0).sev := by
  refine ⟨by decide, by decide, ⟨by decide, fun m h => absurd h (Nat.not_lt_zero m)⟩, by decide⟩
theorem witness_RecordStored_overwrite :
    (∀ n, n < 65536 → n ∈ (wFull 3).dev.mram.slots.map (·.1)) ∧ (0, some (wRec 3 0)) ∈ (wFull 3).dev.mram.slots ∧
      (∀ m y, (m, some y) ∈ (wFull 3).dev.mram.slots → m ≠ 0 → y.sev ≤ 3 → (wRec 3 0).seq < y.seq) ∧
      ∀ y, (0, some y) ∈ (wFull 3).dev.mram.slots → y = wRec 3 0 := by
  refine ⟨wFull_key 3, (wFull_mem 3 0 _).2 ⟨by decide, rfl⟩, ?_, fun y h => ((wFull_mem 3 0 y).1 h).2⟩
  intro m y h hm _
  rw [((wFull_mem 3 m y).1 h).2]
  exact Nat.pos_of_ne_zero hm
theorem witness_RecordStored_drop :
    (∀ n, n < 65536 → n ∈ (wFull 4).dev.mram.slots.map (·.1)) ∧ ∀ n x, (n, some x) ∈ (wFull 4).dev.mram.slots → (wRec 3 70000).sev < x.sev := by
  refine ⟨wFull_key 4, fun n x h => ?_⟩
  rw [((wFull_mem 4 n x).1 h).2]
  show 3 < 4
  decide

def wLog : State := dv base fun d => { d with mram := { d.mram with slots := [(65535, some (wRec 3 9)), (65534, some (wRec 3 5))] } }
theorem witness_LogbookControl :
    (base.granted .spi addr_LOG_CTRL (fldPut 0 1 1 (base.dev.rd addr_LOG_CTRL)) ∧ base.dev.bit LOG_STAT_FROZEN = false ∧
      (st base [(LOG_STAT_FROZEN, 1)]).granted .spi addr_LOG_CTRL (fldPut 0 1 0 (base.dev.rd addr_LOG_CTRL)) ∧
      (st base [(LOG_STAT_FROZEN, 1)]).dev.bit LOG_STAT_FROZEN) ∧
      (base.granted .spi addr_LOG_CLR 0xC1EA ∧ base.granted .spi addr_LOG_CLR 0xC1EB) ∧
      (base.dev.log.clearAfter = none ∧ (dv wLog fun d => { d with log := { d.log with clearAfter := some 9 } }).dev.log.clearAfter = some 9 ∧
        (∀ r ∈ (dv wLog fun d => { d with log := { d.log with queue := [wRec 1 10] } }).dev.log.queue, 9 < r.seq) ∧
        (∃ r ∈ (wQueue 3).dev.log.queue ++ (wQueue 3).dev.log.fbuf, r.seq ≤ 70000) ∧
        wRec 3 5 ∈ wLog.dev.mram.stored ∧ wRec 3 9 ∈ wLog.dev.mram.stored ∧ ∀ x ∈ wLog.dev.mram.stored, 5 ≤ x.seq ∧ x.seq ≤ 9) ∧
      (∀ f ∈ [(⟨7, 0, 1, .other⟩ : ScrubWord)], 6 < f.mem) ∧ (∀ f ∈ [(⟨6, 0, 1, .other⟩ : ScrubWord)], f.mem < 7 ∧ f.err = 1) ∧
      (∀ f ∈ [(⟨6, 0, 2, .slot 65535⟩ : ScrubWord)], f.mem < 7 ∧ f.err = 2 ∧ f.holds = .slot 65535) := by decide

theorem witness_LogbookControl_cursors :
    (∀ op, op < 6 → op = 0 ∨ wLog.granted .spi (addr_LOG_CUR_CMD 1) (BitVec.ofNat 32 (op * 2 ^ 28))) ∧
      ((st wLog [(LOG_CUR_STAT_BUSY 1, 1)]).dev.bit (LOG_CUR_STAT_BUSY 1) ∧ wLog.dev.bit (LOG_CUR_STAT_BUSY 1) = false) ∧
      (let s := dv wLog fun d => d.setCursor 1 { (d.cursor 1) with valid := true, pos := 5 }
       (s.dev.cursor 1).valid ∧ (∃ r ∈ s.dev.mram.stored, (s.dev.cursor 1).pos < r.seq) ∧ ∀ r ∈ s.dev.mram.stored, ¬ (r.seq < (s.dev.cursor 1).pos)) ∧
      base.dev.mram.stored = [] ∧ (base.dev.cursor 1).copy = none ∧
      ((dv base fun d => d.setCursor 1 { (d.cursor 1) with copy := some (wRec 3 5) }).dev.cursor 1).copy = some (wRec 3 5) := by decide

theorem witness_Manifests :
    (base.bak.main ∧ base.granted .spi addr_MFT_CTRL 2 ∧ base.granted .spi addr_MFT_CTRL 1) ∧
      ((st base [(MFT_STAT_ARC_BUSY, 1)]).dev.bit MFT_STAT_ARC_BUSY ∧ base.dev.bit MFT_STAT_ARC_BUSY = false) ∧
      (base.dev.mft.pend = none ∧ (dv base fun d => { d with mft := { d.mft with pend := some ⟨5, 4, 16, 0, 4⟩ } }).dev.mft.pend = some ⟨5, 4, 16, 0, 4⟩) ∧
      (base.dev.mft.arcNew = none ∧ (dv base fun d => { d with mft := { d.mft with arcNew := some ⟨0, 0, 0, 0, [], 0, [], false⟩ } }).dev.mft.arcNew = some ⟨0, 0, 0, 0, [], 0, [], false⟩) ∧
      (base.granted .spi addr_MFT_ASEL 25 ∧ base.granted .spi addr_MFT_ASEL 0x1F18) ∧
      (base.dev.mft.copy = none ∧ (dv base fun d => { d with mft := { d.mft with copy := some (31, 24) } }).dev.mft.copy = some (31, 24)) ∧
      (base.dev.mram.archive[31]? = none ∧
        (dv base fun d => { d with mram := { d.mram with archive := List.replicate 32 ⟨0, 0, 0, 0, [], 0, [], false⟩ } }).dev.mram.archive[31]? = some ⟨0, 0, 0, 0, [], 0, [], false⟩) := by decide

theorem witness_Thermal :
    let ts : List Int := [-440, 1200, 100, 101, 102, 103, 104, 262, 263]
    let x := fun n => ts.getD n 0
    let good := (List.range 9).filter fun n => decide (-440 ≤ x n ∧ x n ≤ 1200 ∧ (x n - 103).natAbs ≤ 160)
    (base.bak.main ∧ base.dev.thmState ≤ 4) ∧
      ((∃ n, n < 9 ∧ x n = 103) ∧ 5 ≤ ((List.range 9).filter fun n => decide (x n ≤ 103)).length ∧
        5 ≤ ((List.range 9).filter fun n => decide (103 ≤ x n)).length ∧ 5 ≤ good.length ∧ (∃ n ∈ good, x n = 263) ∧ ∀ n ∈ good, x n ≤ 263) ∧
      (let ys := fun n => ([-440, -300, -100, 0, 103, 300, 600, 900, 1200] : List Int).getD n 0
       ((List.range 9).filter fun n => decide ((ys n - 103).natAbs ≤ 160)).length < 5) ∧
      (∀ n, n < 5 → (st base [(THM_STAT_STATE, n)]).dev.thmState = n) ∧
      (let s := st base [(THM_STAT_STATE, 4), (THM_STAT_RESUME_OK, 1)]
       s.granted .spi addr_THM_CTRL (fldPut 1 1 1 (s.dev.rd addr_THM_CTRL)) ∧ s.dev.bit THM_STAT_RESUME_OK) ∧
      base.dev.bit THM_STAT_RESUME_OK = false := by decide

/-! ### Witnesses: access and Landing -/

/-- A network in which port 1 (the pair) and port 3 carry IP, and one credential. -/
def wCred : AccKey := ⟨7, 3, 0x0A000000, 0xFF000000, [1, 2, 3]⟩
def wAcc : AccRec := { spiClass := 1, idleTmo := 30, keys := [wCred] }
def wIp : State := dv base fun d => { d with mgt := { d.mgt with acc := some wAcc, netif := [⟨1, 1, 4000, 0x0A000001, 0xFF000000, 0, 0⟩] } }
/-- Slot 7 holds a session whose number is 3, of the Operator class; slot 0 one whose number is 2, of the Maintainer class. -/
def wSess : State :=
  dv (st wIp [(MGT_SESS_STATE 7, 2), (MGT_SESS_CLASS 7, 2), (MGT_SESS_PORT 7, 1), (MGT_SESS_NOTE 7, 1), (MGT_SESS_IP 7, 0x0A000002),
      (MGT_SESS_UDP 7, 5000), (MGT_SESS_SID 7, 31), (MGT_SESS_STATE 0, 1), (MGT_SESS_CLASS 0, 3), (MGT_SESS_PORT 0, 1), (MGT_SESS_IP 0, 0x0A000002),
      (MGT_SESS_UDP 0, 5000), (MGT_SESS_SID 0, 16)])
    fun d => { d with mgt := { d.mgt with sess := (List.range 8).map fun n => (n, { sk := [9, 9], lastSeq := 4 }) } }
def wTodo (x : Session) : State := dv wSess fun d => { d with mgt := { d.mgt with sess := (List.range 8).map fun n => (n, x) } }
/-- A session's client speaks, whatever key the session has. -/
theorem speaks_of (d : Dev) (type seq : Nat) (body : List Nat) (n : Nat) (h : d.sessState n ≠ 0) :
    d.speaks ⟨d.getF (MGT_SESS_PORT n), d.getF (MGT_SESS_IP n), d.getF (MGT_SESS_UDP n), d.getF (MGT_SESS_SID n), seq,
      hmacSha256 (d.sess n).sk (landHead type (d.getF (MGT_SESS_SID n)) seq body)⟩ type body n := ⟨h, rfl, rfl, rfl, rfl, rfl⟩
/-- A message of another UDP port is no session's. -/
theorem silent_of (d : Dev) (m : LandMsg) (type : Nat) (body : List Nat) (n : Nat) (h : d.getF (MGT_SESS_UDP n) ≠ m.udp) :
    ¬ d.speaks m type body n := fun k => h k.2.2.2.1

theorem witness_LatchedReads :
    (∀ n, n < 32 → ∀ x ∈ base.dev.latchRows .spi n, base.readable .spi x.2.1) ∧
      (base.dev.latchRows .spi 31).length = 12 ∧ (base.dev.latchRows .spi 15).length = 13 ∧ (base.dev.latchRows .spi 1).length = 15 ∧
      (base.bak.main ∧ base.classOf .spi ≠ 0 ∧ (dv base fun d => { d with crg := { d.crg with aocLost := true } }).dev.stopped (domOf addr_CRG_BRTC_LO) ∧
        (st base [(MOD_STAT_CLK_OK, 0)]).dev.stopped (domOf addr_MOD_CAPT_LO)) ∧
      base.classOf (.landing 7) = 0 ∧ (∀ n, n < 32 → ∀ x ∈ clearRows .spi n, base.readable .spi x.2.1) := by decide

theorem witness_RegisterWrites :
    (base.bak.main ∧ base.dev.judge 3 2 0 = stR4 ∧ base.dev.judge 0 addr_TBS_PER 0 = stR10 ∧ blockOf addr_TBS_PER ≠ some 19) ∧
      (base.dev.judge 3 0x190000 1 = stR9 ∧ blockOf 0x190000 ≠ some 19) ∧
      (writesPlain (statAddr 4 + 12) ∧ base.granted .spi (statAddr 4 + 12) 1 ∧ (regRow? (statAddr 4 + 12)).isSome) ∧
      (writesPlain (statAddr 4 + 8) ∧ base.granted .spi (statAddr 4 + 8) 1 ∧ (regRow? (statAddr 4 + 8)).isSome) := by
  refine ⟨by decide, by decide, ⟨Or.inr ⟨4, ?_⟩, ?_⟩, Or.inr ⟨4, ?_⟩, ?_⟩ <;> decide

theorem witness_ManagementSpi :
    base.bak.main ∧ (∃ r, crc8 (3 :: beBytes 3 0) ≠ r) ∧ (∃ r, crc8 (2 :: beBytes 3 0 ++ beBytes 4 0) ≠ r) ∧ (1 ≠ 2 ∧ 1 ≠ 3) ∧ (3 % 4 ≠ 0) ∧
      (blockOf 0x0FFFFC = none) ∧ (base.readable .spi addr_TBS_PER ∧ readsPlain addr_TBS_PER) ∧
      (base.readable .spi addr_TBS_TIME_HI ∧ latchedReg addr_TBS_TIME_HI ∧ loEff 0 addr_TBS_TIME_HI = none ∧ arrEff 0 addr_TBS_TIME_HI = none) := by
  refine ⟨by decide, ⟨_, Nat.succ_ne_self _ |>.symm⟩, ⟨_, Nat.succ_ne_self _ |>.symm⟩, by decide, by decide, by decide, by decide, ?_⟩
  exact ⟨by decide, by decide, rfl, rfl⟩

theorem witness_LandingSessions :
    (wIp.bak.main ∧ base.dev.ipUp 1 = false ∧ wIp.dev.ipUp 1) ∧
      ((∀ x ∈ wAcc.keys, x.kid ≠ 8) ∧ wCred ∈ wAcc.keys ∧ wCred.kid = 7 ∧ (∀ x ∈ wAcc.keys, x.kid = 7 → x = wCred) ∧
        0x0A000002 &&& wCred.mask = wCred.ip &&& wCred.mask) := by
  decide
theorem witness_LandingSessions_slots :
      ((∀ n, n < 8 → (st wIp ((List.range 8).map fun n => (MGT_SESS_STATE n, 1))).dev.sessState n ≠ 0) ∧ wIp.dev.sessState 7 = 0) ∧
      (∀ n, n < 8 → ∀ k, k < 8 → n = k ∨ wSess.dev.sessState n = 0 ∨ wSess.dev.sessState k = 0 ∨
        wSess.dev.getF (MGT_SESS_SID n) ≠ wSess.dev.getF (MGT_SESS_SID k)) ∧
      (wSess.dev.sessState 0 = 1 ∧ wSess.dev.sessState 7 ≠ 1 ∧ wSess.dev.sessState 7 ≠ 0 ∧ wSess.dev.ipUp (wSess.dev.getF (MGT_SESS_PORT 7)) ∧
        wSess.dev.sessState 6 = 0 ∧ wSess.dev.getF (MGT_SESS_CLASS 7) ≠ 3) ∧
      ((∃ e ∈ wIp.dev.mgt.netif, e.port = 1 ∧ e.ip = 0x0A000001 ∧ e.flags % 2 = 1) ∧ ¬ ∃ e ∈ wIp.dev.mgt.netif, e.port = 1 ∧ e.ip = 0x0A000002) := by
  decide

/-- The TAG may be any credential's; slot 7's client speaks, and it alone (the session keys stand as a variable of `hmacSha256`). -/
theorem tag_ex (F : Nat → Nat → List Nat) (P : Nat → Nat → Prop) (port ip : Nat) (h : P port ip) :
    ∃ m : LandMsg, P m.port m.ip ∧ m.tag = F m.sid m.seq := ⟨⟨port, ip, 5000, 0, 0, F 0 0⟩, h, rfl⟩
theorem witness_LandingSessions_hello (body : List Nat) :
    ∃ m : LandMsg, (wIp.dev.ipUp m.port ∧ m.ip &&& wCred.mask = wCred.ip &&& wCred.mask) ∧
      m.tag = hmacSha256 wCred.secret (landHead 1 m.sid m.seq body) :=
  tag_ex (fun sid seq => hmacSha256 wCred.secret (landHead 1 sid seq body))
    (fun port ip => wIp.dev.ipUp port ∧ ip &&& wCred.mask = wCred.ip &&& wCred.mask) 1 0x0A000002 (by decide)
theorem sess_sids : wSess.dev.sidsDiffer := fun n k hn hk h0 hn0 hk0 => by
  rcases (by decide : ∀ n, n < 8 → ∀ k, k < 8 → n = k ∨ wSess.dev.sessState n = 0 ∨ wSess.dev.sessState k = 0 ∨
    wSess.dev.getF (MGT_SESS_SID n) ≠ wSess.dev.getF (MGT_SESS_SID k)) n hn k hk with h | h | h | h
  · exact absurd h h0
  · exact absurd h hn0
  · exact absurd h hk0
  · exact h
theorem witness_LandingSessions_client :
    wSess.dev.sidsDiffer ∧ (∃ m : LandMsg, wSess.dev.ipUp m.port ∧ wSess.dev.speaks m 6 [255, 0, 0, 0] 7) ∧
      (∃ m : LandMsg, wSess.dev.ipUp m.port ∧ wSess.dev.speaks m 7 [] 7) ∧
      ∃ m : LandMsg, wSess.dev.ipUp m.port ∧ ∀ type body n, n < 8 → ¬ wSess.dev.speaks m type body n := by
  refine ⟨sess_sids, ⟨_, ?_, speaks_of wSess.dev 6 1 [255, 0, 0, 0] 7 (by decide)⟩, ⟨_, ?_, speaks_of wSess.dev 7 1 [] 7 (by decide)⟩,
    ⟨1, 0, 9, 0, 0, []⟩, by decide, fun type body n hn => silent_of _ _ _ _ n ?_⟩
  · decide
  · decide
  · exact (by decide : ∀ n, n < 8 → wSess.dev.getF (MGT_SESS_UDP n) ≠ 9) n hn
theorem witness_LandingSessions_notify :
    wSess.dev.sessState 7 ≠ 0 ∧ wSess.dev.bit (MGT_SESS_NOTE 7) ∧
      (∀ a, a ∈ [4, 0x80000000] → a ||| (wSess.dev.sess 7).seen ≠ (wSess.dev.sess 7).seen) ∧ wSess.dev.bit (MGT_SESS_NOTE 0) = false := by decide

/-- A session with an operation list of its own. -/
def wTodoOps (ops : List (Nat × Nat × Nat)) : State := wTodo { sk := [9, 9], lastSeq := 4, todo := ops }
theorem speaks_ex (d : Dev) (type seq : Nat) (body : List Nat) (n : Nat) (h : d.sessState n ≠ 0) :
    ∃ m : LandMsg, m.port = d.getF (MGT_SESS_PORT n) ∧ m.seq = seq ∧ d.speaks m type body n := ⟨_, rfl, rfl, speaks_of d type seq body n h⟩
theorem getF_setMgt (d : Dev) (m : MgtSt) (f : Fld) : ({ d with mgt := m } : Dev).getF f = d.getF f := rfl
theorem todo_speaks (x : Session) (body : List Nat) : ∃ m : LandMsg, m.port = 1 ∧ m.seq = 5 ∧ (wTodo x).dev.speaks m 3 body 7 := by
  have e : ∀ f, (wTodo x).dev.getF f = wSess.dev.getF f := fun f => getF_setMgt wSess.dev _ f
  obtain ⟨m, hp, hs, k⟩ := speaks_ex (wTodo x).dev 3 5 body 7 (by
    show (wTodo x).dev.getF (MGT_SESS_STATE 7) ≠ 0
    rw [e]; decide)
  exact ⟨m, hp.trans ((e _).trans (by decide)), hs, k⟩
theorem witness_LandingRequests (body : List Nat) :
    (wTodo {}).bak.main ∧ (wTodo {}).dev.ipUp 1 ∧
      (∃ m : LandMsg, (wTodo { lastSeq := 4 }).dev.speaks m 3 body 7 ∧ m.seq = (((wTodo { lastSeq := 4 }).dev.sess 7).lastSeq + 1) % 2 ^ 32 ∧
        ((wTodo { lastSeq := 4 }).dev.sess 7).todo = []) ∧
      (∃ m : LandMsg, (wTodo { lastSeq := 5, lastResp := [1] }).dev.speaks m 3 body 7 ∧ m.seq = 5 ∧
        m.seq ≠ (((wTodo { lastSeq := 5, lastResp := [1] }).dev.sess 7).lastSeq + 1) % 2 ^ 32 ∧
        ((wTodo { lastSeq := 5, lastResp := [1] }).dev.sess 7).lastResp ≠ []) ∧
      ((wTodoOps [(1, 0, 0)]).dev.sess 7).todo ≠ [] ∧ ((wTodoOps [(1, 0, 0)]).dev.sess 7).held.length < 4 ∧
      4 ≤ ((wTodo { todo := [(1, 0, 0)], held := List.replicate 4 ⟨6, [(1, 0, 0)], []⟩ }).dev.sess 7).held.length := by
  refine ⟨by decide, by decide, ?_, ?_, by decide⟩
  · obtain ⟨m, _, h, k⟩ := todo_speaks { lastSeq := 4 } body
    exact ⟨m, k, h.trans (by decide), by decide⟩
  · obtain ⟨m, _, h, k⟩ := todo_speaks { lastSeq := 5, lastResp := [1] } body
    exact ⟨m, k, h, by rw [h]; decide, by decide⟩
theorem witness_LandingRequests_ops :
    let r := wTodoOps [(1, addr_TBS_PER, 0), (2, (statAddr 4 + 12), 0xFFFFFFFF)]
    let w := wTodoOps [(2, (statAddr 4 + 12), 0xFFFFFFFF), (1, addr_TBS_PER, 0)]
    (r.dev.sess 7).todo.head? = some (1, addr_TBS_PER, 0) ∧ r.readable (.landing 7) addr_TBS_PER ∧ readsPlain addr_TBS_PER ∧
      (r.dev.sess 7).held = [] ∧ r.dev.ipUp (r.dev.getF (MGT_SESS_PORT 7)) ∧ (w.dev.sess 7).todo.head? = some (2, (statAddr 4 + 12), 0xFFFFFFFF) ∧
      (∀ y ∈ (w.dev.sess 7).todo.head?, y.1 ≠ 1) ∧ (∀ y ∈ (r.dev.sess 7).todo.head?, y.1 ≠ 2) ∧ w.dev.sessState 7 ≠ 0 := by decide
/-! ### Witnesses: the block as a whole -/

theorem witness_StepRunsFront : (State.reset.push .resetn).pending = .resetn :: [] := by decide

theorem witness_CommandsComplete :
    State.reset.bak.main ∧ { base with bak := { base.bak with main := false } }.bak.main = false ∧
      (Instr.resetn ≠ .por ∧ Instr.resetn ≠ .backupPor ∧ Instr.resetn ≠ .brtcTrim) ∧ ∀ h, Instr.resetn ≠ .sealWatchPulse h :=
  ⟨by decide, by decide, by decide, fun _ h => Instr.noConfusion h⟩

/-- A device of a pair in STANDBY. -/
def wStandby : State := st base [(MOR_CFG_PAIR, 1), (MOR_STAT_STATE, morStandby)]
/-- A device of a pair that drives, a period of length 0 in progress. -/
def wDrives : State :=
  dv (st base [(MOR_CFG_PAIR, 1), (MOR_STAT_STATE, morHolder)]) fun d => { d with per := { started := true, running := true, k := 3, sk := 0, len := 0 } }
theorem witness_Refusals :
    base.bak.main ∧ (∀ x ∈ writeRows (.landing 7) 1, base.dev.judge (base.classOf (.landing 7)) x.2.1 x.2.2 = stR10) ∧
      (let s := st base [(CRG_STAT_PSTATE, 3)]
       s.dev.judge (s.classOf .spi) 0x3FFFFC 7 = stDone ∧ s.dev.stopped (domOf 0x3FFFFC) ∧ base.dev.judge 3 (addr_LNK_SLIP 71) 0x80000000 = stDone ∧
        base.dev.stopped (domOf (addr_LNK_SLIP 71))) ∧
      (∃ x ∈ writeRows .spi 0, wStandby.dev.judge (wStandby.classOf .spi) x.2.1 x.2.2 = stDone ∧ wStandby.dev.stopped (domOf x.2.1) = false ∧
        carriedAddr x.2.1 ∧ wStandby.dev.drives = false) ∧
      (wDrives.dev.judge (wDrives.classOf .spi) addr_HLM_LOOP 0 = stDone ∧ wDrives.dev.stopped (domOf addr_HLM_LOOP) = false ∧ wDrives.dev.drives ∧
        wDrives.dev.defers addr_HLM_LOOP) := by decide

theorem reset_inv : State.reset.Inv := ⟨rfl, by decide, by decide⟩
theorem witness_InvariantKept : State.reset.Inv ∧ ∃ t, step (State.reset.push .mainPowerLoss) = .next t :=
  ⟨reset_inv, _, rfl⟩

/-! #### Other families -/

/-- R161 with m = 0.5, -0.5 and 0.05 of N = 10 cells. -/
theorem test_nl_level : nlLevel 0x3F000000 10 = 5 ∧ nlLevel 0xBF000000 10 = -5 ∧ nlLevel 0x3D4CCCCD 10 = 1 := by decide
/-- "Worked example: a failed cell and a hot spare": the cell is bypassed by an Operator's BYPASS taken at the next S(k), not at once (R226). -/
theorem test_bypass : (after (.bypass .spi 255) wLive).dev.member 255 = blsActive ∧
    (after (.bypass .spi 255) wLive).dev.sent.head? = some ⟨.reply, 0, [0x5A, addr_BLS_CMD]⟩ := by decide
/-- R58: an Announce whose PTP timescale flag is 0 is ignored. -/
theorem test_foreign_timescale : let m : PtpAnnounce := ⟨1, 0, 5, false, 128, 6, 0x21, 0x4E5D, 128, 7, 0, 0x20, true, 37, none⟩
    (after (.announce m) base).dev.ptp1 = base.dev.ptp1 ∧ (after (.announce m) base).dev.getF PTP_STAT_SEL_PORT = 0 := by decide
/-- R252: an end of a conversion that does not run changes nothing of the slices. -/
theorem test_conversion : (after (.conversionEnd 4 0x8000) base).dev.sar = base.dev.sar := by decide
/-- R325: a link that goes down on P1. -/
theorem test_link_down : (after (.linkDown 1 false) (st base [(NET_PCFG_EN 0, 1), (NET_STAT2_LINK, 3)])).dev.getF NET_STAT2_LINK = 2 := by decide
/-- R368: a resynchronisation ends in STANDBY. -/
theorem test_resync_complete : (after .resyncComplete (st base [(MOR_CFG_PAIR, 1), (MOR_STAT_STATE, morSync)])).dev.morState = morStandby := by decide
/-- R417: failed starts are forgotten when the device has run for 60 s. -/
theorem test_fails_clear : (after .failsClear (st base [(BOT_FAILS_COUNT, 2), (BOT_STAT_STAGE, 5)])).dev.getF BOT_FAILS_COUNT = 0 := by decide
/-- R439: FREEZE. -/
theorem test_freeze : (after (.freeze .spi) base).dev.bit LOG_STAT_FROZEN ∧
    (after (.unfreeze .spi) (after (.freeze .spi) base)).dev.bit LOG_STAT_FROZEN = false := by decide
/-- R289, R393: without main power the outputs are low. -/
theorem test_power_loss : (after .mainPowerLoss base).isl.outA = false ∧ (after .mainPowerLoss base).bak.main = false := by decide
/-- R466: a WELCOME that no REQUEST follows is forgotten without a message. -/
theorem test_welcome_timeout : (after (.welcomeTimeout 0) wSess).dev.sessState 0 = 0 ∧ (after (.welcomeTimeout 0) wSess).dev.sent = wSess.dev.sent := by
  decide
/-- R468: the first operation of a REQUEST, a read of MGT_ID. -/
theorem test_landing_read : ((after (.landingRead 7) (wTodoOps [(1, 0, 0), (1, 0, 0)])).dev.sess 7).resp = [0x5A, 0, 0, 0, 0x00, 0x01, 0xB1, 0x00] := by decide
/-- R293: a break of the intact seal is counted. -/
theorem test_seal : (after .sealBreak (after .sealIntact base)).isl.getF SAF_SEAL_N_COUNT = 1 := by decide
/-- R446, in steps of 0.125 degrees: 150 degrees beside a median of 130, then of 129.875; -55 degrees; 150.125 degrees. -/
theorem test_reading : readingOk 1040 1200 ∧ readingOk 1039 1200 = false ∧ readingOk (-300) (-440) ∧ readingOk 1190 1201 = false := by decide

end Sys2Proof.Tests
end

section
/-! SUPPORT. The increment of R35: which increments are permitted, and that the limit takes the nearest of them. -/

namespace Sys2Proof.Machine

/-- R35: an increment that differs from nominal by at most `ppm` millionths of it. -/
def IncrPermitted (ppm x : Nat) : Prop := ((x : Int) - incrNominal).natAbs * 1000000 ≤ incrNominal * ppm

/-- The permitted increments are those within the whole units the limit leaves around nominal. -/
theorem incrPermitted_iff (ppm x : Nat) :
    IncrPermitted ppm x ↔ incrNominal - incrNominal * ppm / 1000000 ≤ x ∧ x ≤ incrNominal + incrNominal * ppm / 1000000 := by
  unfold IncrPermitted
  rw [← Nat.le_div_iff_mul_le (by decide)]
  omega

theorem incrLimit_eq_self_iff (ppm v : Nat) : incrLimit ppm v = v ↔ IncrPermitted ppm v := by
  rw [incrPermitted_iff]
  unfold incrLimit
  generalize incrNominal * ppm / 1000000 = w
  simp only []
  split
  · omega
  · split <;> omega

theorem incrLimit_permitted (ppm v : Nat) : IncrPermitted ppm (incrLimit ppm v) := by
  rw [incrPermitted_iff]
  unfold incrLimit
  generalize incrNominal * ppm / 1000000 = w
  simp only []
  split
  · omega
  · split <;> omega

/-- No permitted increment is nearer. -/
theorem incrLimit_nearest {ppm x : Nat} (v : Nat) (h : IncrPermitted ppm x) :
    ((incrLimit ppm v : Int) - v).natAbs ≤ ((x : Int) - v).natAbs := by
  rw [incrPermitted_iff] at h
  unfold incrLimit
  generalize incrNominal * ppm / 1000000 = w at h ⊢
  simp only []
  split
  · omega
  · split <;> omega

/-! ### The transfer -/

/-- A permitted increment is neither flagged nor counted. -/
theorem Dev.transferIncr_unclamped (d : Dev) {v : Nat} (h : incrLimit (d.getF TBS_INCR_LIM_PPM) v = v) :
    (d.transferIncr v).bit TBS_EVT_INCR_CLAMP = d.bit TBS_EVT_INCR_CLAMP ∧
      (d.transferIncr v).getF TBS_CLAMPS = d.getF TBS_CLAMPS := by
  have hw : Within (· ∈ [addr_TBS_INCR_FR, addr_TBS_INCR_NS]) [.tbs] d (d.transferIncr v) :=
    Within.transferIncr v (by decide) (by decide) (by decide) (fun c => absurd h c) (Within.refl d)
  exact ⟨hw.bit (by decide), hw.getF (by decide)⟩

/-- R35, from `d` to `e` with the increment `asked`: the nearest permitted one is transferred, and where it is another one that is
flagged and counted. -/
def IncrLimited (d e : Dev) (asked : Nat) : Prop :=
  ∃ y, e.tbs.incrNew = some (y, 2) ∧ IncrPermitted (d.getF TBS_INCR_LIM_PPM) y ∧
    (∀ x, IncrPermitted (d.getF TBS_INCR_LIM_PPM) x → ((y : Int) - asked).natAbs ≤ ((x : Int) - asked).natAbs) ∧
    (IncrPermitted (d.getF TBS_INCR_LIM_PPM) asked →
      y = asked ∧ e.bit TBS_EVT_INCR_CLAMP = d.bit TBS_EVT_INCR_CLAMP ∧ e.getF TBS_CLAMPS = d.getF TBS_CLAMPS) ∧
    (¬ IncrPermitted (d.getF TBS_INCR_LIM_PPM) asked →
      e.bit TBS_EVT_INCR_CLAMP = true ∧ e.getF TBS_CLAMPS = d.counted TBS_CLAMPS 1)

theorem Dev.transferIncr_limited (d : Dev) (v : Nat) : IncrLimited d (d.transferIncr v) v := by
  refine ⟨incrLimit (d.getF TBS_INCR_LIM_PPM) v, ?_, incrLimit_permitted _ v, fun x hx => incrLimit_nearest v hx, ?_, ?_⟩
  · rw [Dev.transferIncr_tbs]
  · intro h
    have hv := (incrLimit_eq_self_iff _ v).mpr h
    exact ⟨hv, d.transferIncr_unclamped hv⟩
  · intro h
    exact d.transferIncr_clamp (fun hv => h ((incrLimit_eq_self_iff _ v).mp hv))

/-- The starting device counts through its registers only. -/
theorem IncrLimited.of_getF {d d' e : Dev} {asked : Nat} (hd : ∀ f, d'.getF f = d.getF f) (h : IncrLimited d' e asked) :
    IncrLimited d e asked := by
  unfold IncrLimited Dev.counted Dev.bit at *
  simpa only [hd] using h

/-- An answer sent afterwards changes none of it. -/
theorem IncrLimited.emit {d e : Dev} {asked : Nat} (k : OutKind) (p : Nat) (ws : List Nat) (h : IncrLimited d e asked) :
    IncrLimited d (e.emit k p ws) asked := by
  unfold IncrLimited at *
  simpa only [Dev.emit_tbs, Dev.bit_emit, Dev.getF_emit] using h

/-- The internal servo's increment goes through the transfer (R45). -/
theorem Dev.lockedMeasure_limited (d : Dev) : ∃ asked, IncrLimited d (d.lockedMeasure false) asked := by
  have hd : ∀ f, ({ d with tbs := { d.tbs with overs := 0 } } : Dev).getF f = d.getF f := d.getF_tbs _
  have hm : d.lockedMeasure false = (({ d with tbs := { d.tbs with overs := 0 } } : Dev).free (2 ^ 36)).2.transferIncr
      (({ d with tbs := { d.tbs with overs := 0 } } : Dev).free (2 ^ 36)).1 := rfl
  rw [hm]
  exact ⟨_, (Dev.transferIncr_limited _ _).of_getF fun f => (Dev.getF_free _ _ f).trans (hd f)⟩

/-- A granted write of TBS_INCR_FR under the external servo transfers the staged nanoseconds and the fraction (R34, R61). -/
theorem exec_incrFrWrite {s : State} {p : Path} {v : Word} (hg : s.granted p addr_TBS_INCR_FR v = true)
    (he : s.dev.extServo = true) :
    exec (.incrFrWrite p v) s = .next { s with
      dev := (s.dev.transferIncr (s.dev.getF TBS_INCR_NS_NS * 2 ^ 32 + v.toNat)).emit .reply (pathNo p) [stDone, addr_TBS_INCR_FR] } :=
  congrArg Host.Outcome.next (State.writeRow_plain (ref := id) (eff := incrFrEffect v) hg (if_pos he) (by decide))

/-- Settles O2: a written increment and one of the internal servo both go through the transfer, which limits them. -/
theorem nearestIncrement : Obligations.NearestIncrement := by
  unfold Obligations.NearestIncrement
  constructor
  · intro s p v hg he
    exact ⟨_, exec_incrFrWrite hg he, (s.dev.transferIncr_limited _).emit _ _ _⟩
  · exact Dev.lockedMeasure_limited

end Sys2Proof.Machine
end

section
/-! SUPPORT. What a step records (R42): its flag, its count, and a Logbook record with Δ, V_g and n. -/

namespace Sys2Proof.Machine

/-- R42, from `d` to `e`: a step by `delta` is flagged, counted and recorded. -/
def StepShown (d e : Dev) (delta : Int) : Prop :=
  e.bit TBS_EVT_STEP_DONE = true ∧ e.getF TBS_STEPS = d.counted TBS_STEPS 1 ∧
    (d.log.queue.length < 64 → ∃ pre r post, e.log.queue = d.log.queue ++ pre ++ r :: post ∧ r.src = 4 ∧
      r.code = 0x1000 ∧ (r.pay.drop 1).take 7 = timeWords (ofSigned 96 delta) ++ timeWords e.time ++ [e.getF TBS_PHASE_N])

/-- The record of a step carries its five items whole. -/
theorem Dev.stepNoted_queue (d : Dev) (delta : Int) (vg n : Nat) (h : d.log.queue.length < 64) :
    ∃ r, (d.stepNoted delta vg n).log.queue = d.log.queue ++ [r] ∧ r.src = 4 ∧ r.code = 0x1000 ∧
      (r.pay.drop 1).take 7 = timeWords (ofSigned 96 delta) ++ timeWords vg ++ [n] := by
  unfold Dev.stepNoted Dev.logEvt
  simp only []
  generalize hx : (((d.setF TBS_PHASE_N n).setF TBS_STAT_STEPPED 1).evt TBS_EVT_STEP_DONE).bump TBS_STEPS = x
  have hl : x.log = d.log := by rw [← hx]; simp only [Dev.bump_log, Dev.evt_log, Dev.setF_log]
  obtain ⟨r, hq, hs, hc, hp⟩ := x.logAccept_queue 4 (0x1000 + 0) (x.rd (statAddr 4)).toNat
    (timeWords (ofSigned 96 delta) ++ timeWords vg ++ [n]) false (by rw [hl]; exact h)
  exact ⟨r, by rw [hq, hl], hs, hc, by rw [hp]; rfl⟩

theorem Dev.stepNoted_shown (d : Dev) (delta : Int) {vg n : Nat} (ht : d.time = vg) (hn : n < 64) :
    StepShown d (d.stepNoted delta vg n) delta := by
  obtain ⟨hp, -, hb, hc⟩ := d.stepNoted_fields delta vg n
  have hw : Within (fun _ => True) [.log, .mram] d (d.stepNoted delta vg n) :=
    Within.stepNoted _ _ _ trivial trivial trivial trivial (fun _ _ => trivial) (by decide) (by decide) (Within.refl d)
  have hv : (d.stepNoted delta vg n).time = vg := (hw.2 .time (by decide)).trans ht
  refine ⟨hb, hc, fun h => ?_⟩
  obtain ⟨r, hq, hs, hcode, hpay⟩ := d.stepNoted_queue delta vg n h
  refine ⟨[], r, [], by rw [hq, List.append_nil], hs, hcode, ?_⟩
  rw [hpay, hv, hp, Nat.mod_eq_of_lt hn]

/-- What comes before the step touches neither the count nor the queue. -/
theorem StepShown.before {d d' e : Dev} {delta : Int} (hc : d'.getF TBS_STEPS = d.getF TBS_STEPS) (hl : d'.log = d.log)
    (h : StepShown d' e delta) : StepShown d e delta := by
  unfold StepShown Dev.counted at *
  rwa [hc, hl] at h

/-- What comes after the step leaves its flag, its count, its phase, device time and the queue alone. -/
theorem StepShown.after {R : Nat → Prop} {P : List Part} {d e e' : Dev} {delta : Int} (hw : Within R P e e')
    (hr : ∀ a ∈ [addr_TBS_EVT, addr_TBS_STEPS, addr_TBS_PHASE], ¬ R a) (hl : Part.log ∉ P) (ht : Part.time ∉ P)
    (h : StepShown d e delta) : StepShown d e' delta := by
  unfold StepShown at *
  rwa [hw.bit (hr _ (by decide)), hw.getF (f := TBS_STEPS) (hr _ (by decide)), hw.getF (f := TBS_PHASE_N) (hr _ (by decide)),
    show e'.log = e.log from hw.2 .log hl, show e'.time = e.time from hw.2 .time ht]

/-- The registers that follow a step: the phase step of PLL-T, the demand intervals it closes (R316). -/
def AfterStep (a : Nat) : Prop := 0x410000 ≤ a ∨ a = (CRG_PLL_PHSTEPS 0).addr ∨ a ∈ satAddrs

theorem Within.stepFollow (d : Dev) (moved : Int) :
    Within AfterStep [.brtc, .mtr, .svx] d ((d.bump (CRG_PLL_PHSTEPS 0)).brtcWrite.mtrStep moved).svAlign :=
  Within.svAlign (by decide) (Within.mtrStep _ (fun _ h => Or.inl h) (by decide) (Within.brtc (by decide)
    (Within.bump (Or.inr (Or.inl rfl)) (fun _ h => Or.inr (Or.inr h)) (Within.refl d))))

/-- From the device with the time loaded on: the entry into LOCKED, the step's notes and what follows them. -/
theorem Dev.lockedStep_shown (d : Dev) (delta moved : Int) {vg n : Nat} (ht : d.time = vg) (hn : n < 64) :
    StepShown d (((((d.tbsEnter tbsLocked).evt TBS_EVT_LOCKED).stepNoted delta vg n).bump (CRG_PLL_PHSTEPS 0)).brtcWrite.mtrStep moved).svAlign
      delta := by
  have hw : Within (fun a => a = addr_TBS_STAT ∨ a = addr_TBS_EVT) [.mtr] d ((d.tbsEnter tbsLocked).evt TBS_EVT_LOCKED) :=
    Within.evt (Or.inr rfl) (Within.tbsEnter _ (Or.inl rfl) (by decide) (Within.refl d))
  have hs := Dev.stepNoted_shown ((d.tbsEnter tbsLocked).evt TBS_EVT_LOCKED) delta ((hw.2 .time (by decide)).trans ht) hn
  exact (hs.before (hw.getF (by decide)) (hw.2 .log (by decide))).after (Within.stepFollow _ moved) (by unfold AfterStep; decide)
    (by decide) (by decide)

/-- The load of device time is seen neither by the count nor by the queue. -/
theorem StepShown.of_loaded {d e : Dev} {t : Nat} {b : TbsSt} {delta : Int} (h : StepShown { d with time := t, tbs := b } e delta) :
    StepShown d e delta := h.before rfl rfl

theorem Dev.stepBy_shown (d : Dev) (delta : Int) : StepShown d (d.stepBy delta) delta := by
  unfold Dev.stepBy
  exact StepShown.of_loaded (Dev.lockedStep_shown _ delta _ rfl (Nat.lt_succ_of_le (stepTarget_grid _).2.2))

/-- Entry into FREE is recorded as the step by 0 of the load at reset (R40; log entry 38). -/
theorem Dev.enterFree_shown (d : Dev) (h1 : d.tbsState = tbsUnset) (h2 : d.bit TBS_CTRL_MODE = true) :
    StepShown d d.enterFree 0 := by
  have hw : Within (· = addr_TBS_STAT) [.mtr] d (d.tbsEnter tbsFree) := Within.tbsEnter _ rfl (by decide) (Within.refl d)
  unfold Dev.enterFree
  rw [if_pos ⟨h1, h2⟩]
  exact ((d.tbsEnter tbsFree).stepNoted_shown 0 (hw.2 .time (by decide)) (by decide)).before (hw.getF (by decide)) (hw.2 .log (by decide))

/-- Settles O5: both kinds of step note it once, and nothing after touches what they noted. -/
theorem stepRecorded : Obligations.StepRecorded := by
  unfold Obligations.StepRecorded
  exact ⟨Dev.stepBy_shown, fun d h1 h2 => ⟨0, d.enterFree_shown h1 h2⟩⟩

end Sys2Proof.Machine
end

section
/-! SUPPORT. PTP messages that are not used: an Announce of a foreign timescale (R58), a Sync without a peer delay (R44). -/

namespace Sys2Proof.Machine

variable {R : Nat → Prop} {P : List Part} {d e : Dev}

/-! ### A frame received -/

/-- The count of received frames stands beside every PTP register. -/
theorem Within.netRx_bump (d : Dev) (n : Nat) : Within (· ∈ addr_NET_RX n :: satAddrs) [] d (d.bump (NET_RX n)) :=
  Within.bump List.mem_cons_self (fun _ h => List.mem_cons_of_mem _ h) (Within.refl d)

theorem not_mem_netRx {a n : Nat} (h : a < 0x60000) (hs : a ∉ satAddrs) : a ∉ addr_NET_RX n :: satAddrs := by
  simp only [List.mem_cons, not_or]
  refine ⟨?_, hs⟩
  unfold addr_NET_RX
  omega

/-! ### Foreign timescale (R58) -/

/-- An Announce of the configured domain without the PTP timescale is only flagged and counted. -/
theorem announceRx_foreign {m : PtpAnnounce} (hp : d.ptpOn m.port = true) (hd : m.domain = d.getF PTP_CTRL_DOMAIN)
    (hf : m.ptpTimescale = false) :
    announceRx m d = ((d.bump (NET_RX (m.port - 1))).evt PTP_EVT_ARB_IGNORED).bump PTP_ARB_IGNORED := by
  have hk : (d.bump (NET_RX (m.port - 1))).getF PTP_CTRL_DOMAIN = d.getF PTP_CTRL_DOMAIN :=
    (Within.netRx_bump d _).getF (not_mem_netRx (by decide) (by decide))
  unfold announceRx
  simp only [hp, hk, hd, hf, Bool.not_true, Bool.not_false, Bool.false_eq_true, if_false, if_true, ne_eq, not_true_eq_false]

/-- Settles O8: the only effects of such an Announce are the flag, its count and the count of received frames. -/
theorem foreignTimescale : Obligations.ForeignTimescale := by
  unfold Obligations.ForeignTimescale
  intro s m hm hp hd hf
  have hx : exec (.announce m) s = .next (s.onDev (announceRx m)) := rfl
  refine ⟨_, hx, ?_⟩
  rw [State.onDev_main _ _ hm, announceRx_foreign hp hd hf]
  have hr := Within.netRx_bump s.dev (m.port - 1)
  have hc : (s.dev.bump (NET_RX (m.port - 1))).getF PTP_ARB_IGNORED = s.dev.getF PTP_ARB_IGNORED :=
    hr.getF (not_mem_netRx (by decide) (by decide))
  obtain ⟨hb, hn⟩ := (s.dev.bump (NET_RX (m.port - 1))).evt_bump (e := PTP_EVT_ARB_IGNORED) (c := PTP_ARB_IGNORED) (by decide)
  refine ⟨hb, hn.trans (by unfold Dev.counted; rw [hc]), Frame.of ?_⟩
  exact Within.bump (Or.inl (List.mem_cons_of_mem _ List.mem_cons_self)) (fun a ha => Or.inl (List.mem_append_right _ ha))
    (Within.evt (Or.inl List.mem_cons_self)
      (hr.mono (fun a ha => Or.inl (List.mem_cons_of_mem _ (List.mem_cons_of_mem _ ha))) (fun _ hx => hx)))

/-! ### The receive queue (R63, R64) -/

/-- The registers that a receive entry may change under the external servo. -/
def rxqAddrs (n : Nat) : List Nat := (PTP_RXQ_LOST (n - 1)).addr :: queueAddrs (n - 1)

/-- Under the internal servo there are no receive entries. -/
theorem Dev.rxqPush_internal (n : Nat) (x : TsEntry) (h : d.extServo = false) : d.rxqPush n x = d := by
  unfold Dev.rxqPush
  simp only [h, Bool.not_false, if_true]

theorem Within.rxqPush (n : Nat) (x : TsEntry) (h1 : R addr_PTP_EVT) (h2 : ∀ a ∈ satAddrs, R a)
    (h3 : e.extServo = true → ∀ a ∈ rxqAddrs n, R a) (hx : portPart n ∈ P) (h : Within R P d e) :
    Within R P d (e.rxqPush n x) := by
  cases hs : e.extServo
  · rwa [Dev.rxqPush_internal n x hs]
  · have hq := h3 hs
    unfold Dev.rxqPush
    simp only [hs, Bool.not_true, Bool.false_eq_true, if_false]
    split
    · refine Within.bump (hq _ List.mem_cons_self) h2 (Within.evt ?_ h)
      split <;> exact h1
    · exact Within.showQueues n (fun a ha => hq a (List.mem_cons_of_mem _ ha)) (Within.setPtpPort n _ hx h)

/-- A receive entry changes nothing of its port but the queue. -/
theorem Dev.rxqPush_port (d : Dev) (n : Nat) (x : TsEntry) : ∃ q, (d.rxqPush n x).ptpPort n = { d.ptpPort n with rxq := q } := by
  have full : ∀ f c : Fld, ((d.evt f).bump c).ptpPort n = d.ptpPort n := fun f c =>
    (Within.bump (R := fun _ => True) (P := []) trivial (fun _ _ => trivial) (Within.evt trivial (Within.refl d))).ptpPort (by decide) (by decide)
  have shown : ∀ y : Dev, (y.showQueues n).ptpPort n = y.ptpPort n := fun y =>
    (Within.showQueues (R := fun _ => True) (P := []) n (fun _ _ => trivial) (Within.refl y)).ptpPort (by decide) (by decide)
  unfold Dev.rxqPush
  split
  · exact ⟨(d.ptpPort n).rxq, rfl⟩
  · simp only []
    split
    · exact ⟨(d.ptpPort n).rxq, full _ _⟩
    · exact ⟨(d.ptpPort n).rxq ++ [x], by rw [shown, Dev.ptpPort_setPtpPort]⟩

/-! ### No peer delay (R44) -/

/-- The port has no peer delay of the last 4 Pdelay_Req intervals. -/
def PtpPort.Undelayed (x : PtpPort) : Prop := x.delay = none ∨ 4 < x.reqSince

/-- R44, on port `n` from `s` to `t`: no measurement, flagged and counted, with the frame of a receive entry. -/
def Unmeasured (s t : State) (n : Nat) : Prop :=
  t.dev.bit PTP_EVT_NO_PDELAY = true ∧ t.dev.getF PTP_NO_PDELAY_CNT = s.dev.counted PTP_NO_PDELAY_CNT 1 ∧
    Frame s t ([addr_PTP_EVT, (PTP_NO_PDELAY_CNT).addr, addr_NET_RX (n - 1)] ++ satAddrs ++
      if s.dev.extServo then rxqAddrs n else []) [] [portPart n]

/-- A completed Sync on the selected port without a peer delay is flagged and counted in place of a measurement. -/
theorem Dev.syncDone_undelayed {n : Nat} (hn : n = 1 ∨ n = 2) (seq t : Nat) (c : Int) (hs : d.getF PTP_STAT_SEL_PORT = n)
    (hd : (d.ptpPort n).Undelayed) :
    d.syncDone n seq t c = ((d.rxqPush n ⟨0, seq, t, c⟩).evt PTP_EVT_NO_PDELAY).bump PTP_NO_PDELAY_CNT := by
  have hw : Within (· ∈ addr_PTP_EVT :: satAddrs ++ rxqAddrs n) [portPart n] d (d.rxqPush n ⟨0, seq, t, c⟩) :=
    Within.rxqPush n _ List.mem_cons_self (fun a ha => List.mem_append_left _ (List.mem_cons_of_mem _ ha))
      (fun _ a ha => List.mem_append_right _ ha) List.mem_cons_self (Within.refl d)
  have hk : (d.rxqPush n ⟨0, seq, t, c⟩).getF PTP_STAT_SEL_PORT = n :=
    (hw.getF (by rcases hn with rfl | rfl <;> decide)).trans hs
  obtain ⟨q, hq⟩ := d.rxqPush_port n ⟨0, seq, t, c⟩
  unfold Dev.syncDone
  simp only [hk, ne_eq, not_true_eq_false, if_false, hq]
  rcases hd with hd | hd
  · simp only [hd]
  · split
    · rw [if_neg (by omega)]
    · rfl

theorem mem_cons_append_insert {a x y : Nat} {l k : List Nat} (h : a ∈ x :: l ++ k) : a ∈ x :: y :: l ++ k := by
  simp only [List.cons_append, List.mem_cons] at h ⊢
  exact h.imp_right Or.inr

/-- The same as a command's outcome, from a device that has counted the frame and may have taken a Sync off its port. -/
theorem unmeasured_syncDone {s : State} {x : Dev} {n : Nat} (hn : n = 1 ∨ n = 2) (seq t : Nat) (c : Int)
    (hw : Within (· ∈ addr_NET_RX (n - 1) :: satAddrs) [portPart n] s.dev x) (hs : s.dev.getF PTP_STAT_SEL_PORT = n)
    (hd : (x.ptpPort n).Undelayed) : Unmeasured s { s with dev := x.syncDone n seq t c } n := by
  have hsel : x.getF PTP_STAT_SEL_PORT = n := (hw.getF (not_mem_netRx (by decide) (by decide))).trans hs
  have hext : x.extServo = s.dev.extServo := hw.bit (not_mem_netRx (by decide) (by decide))
  have hpush : Within (· ∈ addr_PTP_EVT :: addr_NET_RX (n - 1) :: satAddrs ++ if s.dev.extServo then rxqAddrs n else []) [portPart n]
      s.dev (x.rxqPush n ⟨0, seq, t, c⟩) :=
    Within.rxqPush n _ List.mem_cons_self
      (fun a ha => List.mem_append_left _ (List.mem_cons_of_mem _ (List.mem_cons_of_mem _ ha)))
      (fun he a ha => List.mem_append_right _ (by rwa [if_pos (hext.symm.trans he)])) List.mem_cons_self
      (hw.mono (fun a ha => List.mem_append_left _ (List.mem_cons_of_mem _ ha)) (fun _ hx => hx))
  have hcnt : (x.rxqPush n ⟨0, seq, t, c⟩).getF PTP_NO_PDELAY_CNT = s.dev.getF PTP_NO_PDELAY_CNT := by
    refine hpush.getF ?_
    rcases hn with rfl | rfl <;> cases s.dev.extServo <;> decide
  obtain ⟨hb, hc⟩ := (x.rxqPush n ⟨0, seq, t, c⟩).evt_bump (e := PTP_EVT_NO_PDELAY) (c := PTP_NO_PDELAY_CNT) (by decide)
  rw [Dev.syncDone_undelayed hn seq t c hsel hd]
  refine ⟨hb, hc.trans (by unfold Dev.counted; rw [hcnt]), Frame.of ?_⟩
  exact Within.bump (Or.inl (List.mem_cons_of_mem _ List.mem_cons_self))
    (fun a ha => Or.inl (List.mem_append_left _ (List.mem_append_right _ ha)))
    (Within.evt (Or.inl List.mem_cons_self) (hpush.mono (fun a ha => Or.inl (mem_cons_append_insert ha)) (fun _ hx => hx)))

theorem Within.fromMaster {m : PtpMsg} (h : Within R P d e) (hr : ¬ R addr_PTP_CTRL) (h1 : Part.ptp1 ∉ P) (h2 : Part.ptp2 ∉ P) :
    e.fromMaster m = d.fromMaster m := by
  unfold Dev.fromMaster
  rw [h.getF (f := PTP_CTRL_DOMAIN) hr, h.ptpPort h1 h2]

/-- A one-step Sync of the port's master is complete. -/
theorem syncRx_oneStep {m : PtpMsg} (hp : d.ptpOn m.port = true) (hm : d.fromMaster m = true) (ht : m.twoStep = false) :
    ∃ t, syncRx m d = (d.bump (NET_RX (m.port - 1))).syncDone m.port m.seq t (m.origin + m.corr) := by
  have hk : (d.bump (NET_RX (m.port - 1))).fromMaster m = true :=
    ((Within.netRx_bump d _).fromMaster (not_mem_netRx (by decide) (by decide)) (by decide) (by decide)).trans hm
  unfold syncRx
  simp only [hp, hk, ht, Bool.not_true, Bool.false_eq_true, if_false]
  exact ⟨_, rfl⟩

/-- The Follow_Up that a held Sync waits for completes it. -/
theorem followUpRx_completes {m y : PtpMsg} {u : Nat} (hp : d.ptpOn m.port = true) (hy : (d.ptpPort m.port).sync = some (y, u))
    (h1 : y.seq = m.seq) (h2 : y.src = m.src) (h3 : y.domain = m.domain) :
    followUpRx m d = ((d.bump (NET_RX (m.port - 1))).setPtpPort m.port { d.ptpPort m.port with sync := none }).syncDone m.port m.seq u
      (m.origin + y.corr + m.corr) := by
  have hk : (d.bump (NET_RX (m.port - 1))).ptpPort m.port = d.ptpPort m.port := (Within.netRx_bump d _).ptpPort (by decide) (by decide)
  unfold followUpRx
  simp only [hp, hk, hy, h1, h2, h3, Bool.not_true, Bool.false_eq_true, if_false, and_self, if_true]

/-- Settles O10: both completions lead to the same operation on the port, which finds no peer delay. -/
theorem noPeerDelay : Obligations.NoPeerDelay := by
  unfold Obligations.NoPeerDelay
  intro s m hm hp hs hd
  have hn := (Dev.ptpOn_cases hp).2
  have hw : Within (· ∈ addr_NET_RX (m.port - 1) :: satAddrs) [portPart m.port] s.dev (s.dev.bump (NET_RX (m.port - 1))) :=
    (Within.netRx_bump s.dev _).mono (fun _ h => h) (fun _ h => absurd h List.not_mem_nil)
  constructor
  · intro hf ht
    have hx : exec (.sync m) s = .next (s.onDev (syncRx m)) := rfl
    have hk : (s.dev.bump (NET_RX (m.port - 1))).ptpPort m.port = s.dev.ptpPort m.port :=
      (Within.netRx_bump s.dev _).ptpPort (by decide) (by decide)
    obtain ⟨t, he⟩ := syncRx_oneStep hp hf ht
    refine ⟨_, hx, ?_⟩
    rw [State.onDev_main _ _ hm, he]
    exact unmeasured_syncDone hn _ _ _ hw hs (by rw [hk]; exact hd)
  · intro y u hy h1 h2 h3
    have hx : exec (.followUp m) s = .next (s.onDev (followUpRx m)) := rfl
    refine ⟨_, hx, ?_⟩
    rw [State.onDev_main _ _ hm, followUpRx_completes hp hy h1 h2 h3]
    exact unmeasured_syncDone hn _ _ _ (hw.setPtpPort _ _ List.mem_cons_self) hs (by rw [Dev.ptpPort_setPtpPort]; exact hd)

end Sys2Proof.Machine
end
